-- ==== Sys2Proof/Word.lean ====
section
/-! DEFINITION. The word types: a register is 32 bits wide (00_scope.md, Notation), a byte 8. -/

namespace Sys2Proof

/-- A register word: every register is 32 bits wide. -/
abbrev Word := BitVec 32

/-- A byte. -/
abbrev Byte := BitVec 8

/-- A byte string, first byte first. -/
abbrev Bytes := List Byte

end Sys2Proof
end

