-- ==== Sys2Proof/Syntax.lean ====
section
/-! DEFINITION. The commands: one constructor per row of spec/opcode_table.json, with the operands that the row's rules name, and the plain
data those operands are made of. -/

namespace Sys2Proof

/-- The family members (R1). -/
inductive Member where
  | tt3008 | tt3005 | tt3002
deriving DecidableEq, Repr, Inhabited

/-- String link n + 1, which serves the die in ID_DIES bit n + 1. -/
abbrev LinkId := Fin 7

/-- A lane of a string link; lane 8 is the spare. -/
abbrev Lane := Fin 9

/-- A direction of a string link: out of the HUB or into it. -/
inductive Dir where
  | out | in_
deriving DecidableEq, Repr, Inhabited

/-- The clock domains derived from XO (01_architecture.md, Clock domains). -/
inductive ClkDom where
  | conv | sig | core | memck | ser25 | ser2g5
deriving DecidableEq, Repr, Inhabited

/-- The stores of R466. -/
inductive Store where
  | toybox | context | action | key | logRec | cmdQueue | releaseQueue
deriving DecidableEq, Repr, Inhabited

/-- An error the SECDED code of a store finds in the entry named (R466): correctable or not. -/
structure StoreErr where
  store : Store
  index : Nat
  uncorrectable : Bool
deriving DecidableEq, Repr, Inhabited

/-- What the SECDED code of a core's memories finds at a load (R259): the single-bit errors that the core has corrected in its data and instruction
memory since its last load, and whether the load meets an uncorrectable error in data memory or shared SRAM. -/
structure LoadEcc where
  corrected : Nat
  bad : Bool
deriving DecidableEq, Repr, Inhabited

/-- XAMP_FLT at the end of its hold (R134): the instant at which it was last seen active, and the present one, in ns of NT. -/
structure FltSeen where
  last : Nat
  now : Nat
deriving DecidableEq, Repr, Inhabited

/-- A PTP message as Clockwork takes it from a MAC (R45): what it is, with the times it carries in ns. -/
inductive PtpBody where
  /-- Announce. -/
  | announce
  /-- One-step Sync: its origin time with correction, and its ingress timestamp in NT. -/
  | sync1 (origin ingress : Int)
  /-- Two-step Sync: its ingress timestamp in NT. -/
  | sync2 (ingress : Int)
  /-- Follow_Up: the origin time with correction. -/
  | followUp (origin : Int)
  /-- Delay_Resp: whether its requestingPortIdentity is Clockwork's, and the master's receive time with correction. -/
  | delayResp (mine : Bool) (received : Int)
deriving DecidableEq, Repr, Inhabited

/-- The header of a PTP message (R45): the port's MAC, transport 0 Ethernet, 1 UDP/IPv4, 2 UDP/IPv6, domain, master and sequenceId. -/
structure PtpMsg where
  mac : Fin 8
  transport : Fin 3
  domain : Nat
  master : Nat
  seq : Nat
  body : PtpBody
deriving DecidableEq, Repr, Inhabited

/-- The three references of Clockwork. -/
inductive RefId where
  | ptp | pps | ref10m
deriving DecidableEq, Repr, Inhabited

/-- A radio: 0 RADL, 1 RADM, 2 RADH. -/
abbrev RadioId := Fin 3

/-- An entry of the action list. -/
abbrev ActId := Fin 1024

/-- One of the 16 temperature sensors (R15). -/
abbrev SensorId := Fin 16

/-- A complex sample: in-phase and quadrature parts. -/
abbrev IQ := Int × Int

/-- A Marionette core of the pool (R254). -/
abbrev CoreId := Fin 64

/-- A load on a core, with what the SECDED code finds at it (R259, R288). -/
structure CoreLoad where
  core : CoreId
  ecc : LoadEcc
deriving DecidableEq, Repr, Inhabited

/-- One of the eight MACs and egress ports. -/
abbrev MacId := Fin 8

/-- What the protection of the traffic manager's buffers and links finds when a frame is selected (R342). -/
inductive QErr where
  | none
  /-- A cell error of the chosen head that is corrected. -/
  | corrected
  /-- An uncorrectable error in the chosen head, before its start, or after it. -/
  | headLost
  | lateLost
  /-- An error in one copy of a queue's links or tags, or in both copies of those of queue q. -/
  | linkOne
  | linkBoth (q : Fin 8)
deriving DecidableEq, Repr, Inhabited

/-- What arrives at a MAC: an express frame or a whole frame; the first fragment of a preemptable frame or a later one, with its frame count, its
fragment count and whether it ends the frame; or a respond or verify mPacket (R353, R356). -/
inductive RxKind where
  | whole
  | first (frame : Fin 4) (last : Bool)
  | later (frame : Fin 4) (frag : Fin 4) (last : Bool)
  | verify
  | respond
deriving DecidableEq, Repr, Inhabited

/-- A frame or mPacket at its last bit: its kind, its bytes without FCS or mCRC, whether that check is good, whether a PCS code error or uncorrectable
codeword lies in it, the FEC codewords corrected and uncorrectable in it, and how long ago in ns its first bit passed the timestamp point (R346, R359). -/
structure WireRx where
  kind : RxKind
  data : Bytes
  good : Bool
  codeErr : Bool
  fecFixed : Nat
  fecBad : Nat
  ago : Nat
deriving DecidableEq, Repr, Inhabited

/-- A parity error of an associative entry; lost where its SECDED copy shows an uncorrectable error too (R322). -/
structure TcamErr where
  entry : Fin 8192
  lost : Bool
deriving DecidableEq, Repr, Inhabited

/-- Errors that the classifier's tables show (R322): a parity error of an associative entry, which its copy restores, or an uncorrectable error in an
associative entry's copy, an exact-match entry, a template, or the fragment table's entry at a place. -/
inductive ClsErr where
  | tcam (e : TcamErr)
  | exact (i : Fin 16384)
  | template (t : Fin 256)
  | fragment (i : Nat)
deriving DecidableEq, Repr, Inhabited


/-- A DRAM channel. -/
abbrev ChanId := Fin 2

/-- A bank of a channel. -/
abbrev BankId := Fin 16

/-- An error that a read of a burst finds in one of its eight words (R397): correctable or not. -/
structure DramErr where
  word : Fin 8
  uncorrectable : Bool
deriving DecidableEq, Repr, Inhabited

/-- A calibration unit's code (R399). -/
abbrev CalUnit := Fin 256

/-- What an eye measurement of a shadow-verified unit gives for the tap or DQ bit in turn (R406, R411, R412): the lowest and highest passing code; and
on SerDes the eye's width in UI/64 and height in mV at the code in force and one step toward the centre. -/
inductive CalEye where
  | serdes (lo hi : Int) (width height width' height' : Nat)
  | dram (lo hi : Fin 256)
deriving DecidableEq, Repr, Inhabited

/-- The staged calendar fields (R452). -/
inductive RtcField where
  | minute | hour | day | month | year
deriving DecidableEq, Repr, Inhabited

/-- An alarm's registers (R460). -/
inductive AlarmReg where
  | time | date | ctrl
deriving DecidableEq, Repr, Inhabited


/-- What the demodulation firmware finds in one copy of a burst (R175, R181, R182; the spec does not prescribe how): the refined carrier centre less the
nominal group centre, Hz; the reference instant less the first slot start, or capture sample 0 of a join, ns; the soft decisions of the 24 sync bits,
positive for 1; the coded bits' log likelihood ratios in units of 2^-16, as sent, on the grant's pilot state and on the old one (R173); the instantaneous
frequency at the centre of each symbol from the first training symbol on less the nominal group centre, in units of 2^-8 Hz; and the levels decided for
the symbols after the training block. -/
structure CopyObs where
  centre : Int
  timing : Int
  sync : List Int
  llr : List Int
  llrOld : List Int
  freqs : List Int
  decided : List Int
deriving DecidableEq, Repr, Inhabited

/-- What the firmware finds in a received burst (R175, R195): the instant at which it searched best for the sync word less the first slot start, or capture
sample 0 of a join, ns; the payload's length; and its copies. -/
structure RxObs where
  instant : Int
  len : Nat
  a : CopyObs
  b : CopyObs
deriving DecidableEq, Repr, Inhabited

/-- How the firmware places a transmission (R186): the descriptor of its first group and that of its second, which only a beacon on two groups has (R102),
its symbol buffer and the back-off. -/
structure TxObs where
  desc0 : Fin 1024
  desc1 : Fin 1024
  buf : Nat
  backoff : Nat
deriving DecidableEq, Repr, Inhabited

/-- What a task of the demodulation firmware does before it writes CORE_DONE (R162). -/
inductive FwObs where
  | rx (o : RxObs)
  | tx (o : TxObs)
deriving DecidableEq, Repr, Inhabited


/-- The commands of the block: one constructor per row of the opcode table; each docstring gives the row's mnemonic and rule. -/
inductive Instr where
  /-- POWER_ON (R479). -/
  | powerOn
  /-- RESET_N_ASSERT (R478). -/
  | resetNAssert
  /-- BROWN_OUT (R480). -/
  | brownOut (t : Nat)
  /-- BROWN_OUT_END (R480). -/
  | brownOutEnd
  /-- VIN_RANGE (R476). -/
  | vinRange (out : Bool)
  /-- CONTROL_STATE_MISMATCH (R467). -/
  | controlStateMismatch (both : Bool)
  /-- BOOT_START (R420). -/
  | bootStart (lanes : List (LinkId × Fin 512))
  /-- BOOT_POLL_MET (R419). -/
  | bootPollMet (t : Nat)
  /-- BOOT_POLL_TIMEOUT (R420). -/
  | bootPollTimeout (t : Nat)
  /-- FLIT_SEND (R17). -/
  | flitSend (n : LinkId) (k : Dir) (ty : Fin 16) (payload : Bytes)
  /-- FLIT_RECEIVE (R18). -/
  | flitReceive (n : LinkId) (k : Dir) (raw : Bytes) (lane : Option Lane)
  /-- LINK_RETRAIN (R19). -/
  | linkRetrain (n : LinkId)
  /-- LINK_RETRAIN_DONE (R19). -/
  | linkRetrainDone (n : LinkId) (failed : Fin 512)
  /-- LANE_FAILURE (R22). -/
  | laneFailure (n : LinkId) (lane : Lane) (lost : Bool)
  /-- SPARE_CHECK_FAIL (R23). -/
  | spareCheckFail (n : LinkId)
  /-- CLOCK_DOMAIN_FAULT (R28). -/
  | clockDomainFault (c : ClkDom) (die : Fin 8) (t : Nat)
  /-- XO_FAILURE (R28). -/
  | xoFailure (t : Nat)
  /-- TEMP_SENSOR_READING (R15). -/
  | tempSensorReading (sensor : SensorId) (v : Int) (t : Nat)
  /-- CLK_NT_SEC_HI_READ (R40). -/
  | clkNtSecHiRead
  /-- CLK_SLOT_READ (R40). -/
  | clkSlotRead
  /-- CLK_SNAPSHOT_TIMEOUT (R40). -/
  | clkSnapshotTimeout (t : Nat)
  /-- SLOT_START (R41). -/
  | slotStart (a : Nat) (rx : List (RadioId × Int)) (ecc : List StoreErr)
  /-- SUPERFRAME_BOUNDARY (R41). -/
  | superframeBoundary (sf : Nat)
  /-- PPS_EDGE (R47). -/
  | ppsEdge (t : Nat)
  /-- PTP_MESSAGE (R45). -/
  | ptpMessage (m : PtpMsg) (t : Nat)
  /-- REF10M_MEASUREMENT (R47). -/
  | ref10mMeasurement (ppb : Int) (t : Nat)
  /-- STEP_APPLY_MS (R55). -/
  | stepApplyMs (t : Nat)
  /-- STEP_APPLY_QUIET (R55). -/
  | stepApplyQuiet (t : Nat)
  /-- REFERENCE_TIMEOUT (R48). -/
  | referenceTimeout (k : RefId) (t : Nat)
  /-- CLK_TOD_LOAD (R49). -/
  | clkTodLoad
  /-- PPS_OUT_RISE (R53). -/
  | ppsOutRise (t : Nat)
  /-- PPS_OUT_FALL (R53). -/
  | ppsOutFall (t : Nat)
  /-- ACTION_ARM (R58). -/
  | actionArm (ecc : List StoreErr)
  /-- ACTION_CANCEL (R65). -/
  | actionCancel (a : ActId)
  /-- RAD_TX_START (R118). -/
  | radTxStart (i : ActId) (t : Nat)
  /-- RAD_STATE (R116). -/
  | radState (i : ActId) (t : Nat)
  /-- CLS_GEN_SWITCH (R315). -/
  | clsGenSwitch (i : ActId) (t : Nat)
  /-- SHP_GATE_TAKEOVER (R337). -/
  | shpGateTakeover (i : ActId) (t : Nat)
  /-- CFG_STAGE_TAKEOVER (R436). -/
  | cfgStageTakeover (i : ActId) (t : Nat)
  /-- CAL_QUIET (R408). -/
  | calQuiet (i : ActId) (t : Nat)
  /-- GPIO_LEVEL (R505). -/
  | gpioLevel (i : ActId) (t : Nat)
  /-- RAD_FC_WRITE (R109). -/
  | radFcWrite (r : RadioId) (fc : Word)
  /-- VCO_CAL_REQUEST (R113). -/
  | vcoCalRequest (r : RadioId)
  /-- RADIO_TRANSITION_DONE (R115). -/
  | radioTransitionDone (r : RadioId) (t : Nat)
  /-- VCO_CALIBRATION_DONE (R409). -/
  | vcoCalibrationDone (r : RadioId) (band : Option (Fin 128)) (t : Nat)
  /-- SYNTH_UNLOCK (R114). -/
  | synthUnlock (r : RadioId) (t : Nat)
  /-- SYNTH_RELOCK (R114). -/
  | synthRelock (r : RadioId) (t : Nat)
  /-- TX_LEAVE_START (R118). -/
  | txLeaveStart (r : RadioId) (t : Nat)
  /-- TX_DEFERRED_START (R121). -/
  | txDeferredStart (r : RadioId) (t : Nat)
  /-- TX_GUARD_EXPIRE (R122). -/
  | txGuardExpire (r : RadioId) (t : Nat)
  /-- LAST_CARRIER_END (R120). -/
  | lastCarrierEnd (r : RadioId) (k0 : Fin 1536) (rl : Int) (t : Nat)
  /-- RETURN_LOSS_ABORT (R135). -/
  | returnLossAbort (r : RadioId) (port : Fin 2) (t : Nat)
  /-- XAMP_STEP (R133). -/
  | xampStep (r : RadioId) (t : Nat)
  /-- XAMP_FAULT (R134). -/
  | xampFault (r : RadioId) (t : Nat)
  /-- XAMP_HOLD_EXPIRE (R134). -/
  | xampHoldExpire (r : RadioId) (seen : FltSeen)
  /-- DUTY_METER_TICK (R130). -/
  | dutyMeterTick (r : RadioId) (t : Nat)
  /-- RAD_RP_PROG_GO (R128). -/
  | radRpProgGo (r : RadioId)
  /-- RP_FUSE_BLOW_DONE (R128). -/
  | rpFuseBlowDone (r : RadioId) (failed : Word)
  /-- DIVERSITY_BLOCK (R143). -/
  | diversityBlock (r : RadioId) (ms : Nat) (x0 x1 : List IQ) (t : Nat)
  /-- RING_FRAME_COMPLETE (R145). -/
  | ringFrameComplete (r : RadioId) (a t : Nat) (ecc : List StoreErr)
  /-- OCC_MAP_CLOSE (R153). -/
  | occMapClose (r : RadioId) (a : Nat) (x0 x1 : List IQ) (t : Nat)
  /-- DETECTOR_EVALUATION (R151). -/
  | detectorEvaluation (r : RadioId) (k : Fin 1536) (gain : Nat) (t : Nat)
  /-- CAPTURE_COMPLETE (R151). -/
  | captureComplete (r : RadioId) (c : Fin 256) (xs : List (IQ × IQ)) (t : Nat)
  /-- OVERLOAD_INTERVAL (R161). -/
  | overloadInterval (r : RadioId) (c0 c1 : Nat) (t : Nat)
  /-- MASK_CHECK (R160). -/
  | maskCheck (r : RadioId) (bins : List (Nat × Int)) (t : Nat)
  /-- TX_BUFFER_FETCH (R155). -/
  | txBufferFetch (r : RadioId) (handle : Fin 1024) (t : Nat)
  /-- SCH_SLOT_OVERRUN (R228). -/
  | schSlotOverrun (t : Nat)
  /-- DOWNLINK_TASK_CREATE (R223). -/
  | downlinkTaskCreate (i : Fin 65536) (t : Nat)
  /-- TASK_DEADLINE (R239). -/
  | taskDeadline (i : Fin 8192) (t : Nat)
  /-- TASK_RELEASE (R253). -/
  | taskRelease (i : Fin 8192) (ecc : List StoreErr) (t : Nat)
  /-- CYCLE_BUDGET_EXCEEDED (R246). -/
  | cycleBudgetExceeded (c : CoreId)
  /-- CORE_FAULT_TAKE (R246). -/
  | coreFaultTake (c : CoreId) (ecc : Bool)
  /-- SELF_TEST_DONE (R249). -/
  | selfTestDone (c : CoreId) (pass : Bool)
  /-- CORE_RETIRE (R252). -/
  | coreRetire (c : CoreId)
  /-- CORE_RETURN (R252). -/
  | coreReturn (c : CoreId)
  /-- PUP_PEEK_IDX_WRITE (R232). -/
  | pupPeekIdxWrite (i : Fin 8192)
  /-- NOP (R283). -/
  | nop (c : CoreId)
  /-- LDW (R288). -/
  | ldw (l : CoreLoad)
  /-- LDH (R288). -/
  | ldh (l : CoreLoad)
  /-- STW (R288). -/
  | stw (c : CoreId)
  /-- STH (R288). -/
  | sth (c : CoreId)
  /-- LDP (R288). -/
  | ldp (l : CoreLoad)
  /-- STP (R288). -/
  | stp (c : CoreId)
  /-- MOV (R290). -/
  | mov (c : CoreId)
  /-- MVA (R291). -/
  | mva (c : CoreId)
  /-- MTA (R291). -/
  | mta (c : CoreId)
  /-- MODP (R288). -/
  | modp (c : CoreId)
  /-- LDIM (R292). -/
  | ldim (c : CoreId)
  /-- ADD2 (R294). -/
  | add2 (c : CoreId)
  /-- SUB2 (R294). -/
  | sub2 (c : CoreId)
  /-- ADDW (R294). -/
  | addw (c : CoreId)
  /-- SUBW (R294). -/
  | subw (c : CoreId)
  /-- AND (R294). -/
  | and (c : CoreId)
  /-- OR (R294). -/
  | or (c : CoreId)
  /-- XOR (R294). -/
  | xor (c : CoreId)
  /-- SHIFT (R294). -/
  | shift (c : CoreId)
  /-- CMP (R294). -/
  | cmp (c : CoreId)
  /-- LDI (R294). -/
  | ldi (c : CoreId)
  /-- LDIP (R298). -/
  | ldip (c : CoreId)
  /-- MAC (R295). -/
  | mac (c : CoreId)
  /-- MAC2 (R295). -/
  | mac2 (c : CoreId)
  /-- CMAC (R295). -/
  | cmac (c : CoreId)
  /-- CMUL (R296). -/
  | cmul (c : CoreId)
  /-- ACCOP (R297). -/
  | accop (c : CoreId)
  /-- NORM (R269). -/
  | norm (c : CoreId)
  /-- EXP (R268). -/
  | exp (c : CoreId)
  /-- ACS (R299). -/
  | acs (c : CoreId)
  /-- BR (R300). -/
  | br (c : CoreId)
  /-- CALL (R300). -/
  | call (c : CoreId)
  /-- JR (R300). -/
  | jr (c : CoreId)
  /-- RETI (R275). -/
  | reti (c : CoreId)
  /-- REP (R270). -/
  | rep (c : CoreId)
  /-- TRAP (R300). -/
  | trap (c : CoreId)
  /-- INTERRUPT_TAKE (R274). -/
  | interruptTake (c : CoreId)
  /-- CORE_TIMER_ZERO (R273). -/
  | coreTimerZero (c : CoreId)
  /-- BUDGET_WARN (R273). -/
  | budgetWarn (c : CoreId)
  /-- CORE_TRU_CTRL_WRITE (R277). -/
  | coreTruCtrlWrite (c : CoreId) (w : Word)
  /-- TRANSFER_COMPLETE (R277). -/
  | transferComplete (c : CoreId)
  /-- CORE_DOORBELL_WRITE (R273). -/
  | coreDoorbellWrite (c : CoreId) (target : Fin 32)
  /-- CORE_IRQ_SET_WRITE (R273). -/
  | coreIrqSetWrite (c : CoreId) (w : Word)
  /-- CORE_DONE_WRITE (R281). -/
  | coreDoneWrite (c : CoreId) (v : Word) (obs : Option FwObs) (t : Nat)
  /-- OUTPUT_ACCEPT (R281). -/
  | outputAccept (c : CoreId) (t : Nat)
  /-- MAC_FRAME_RECEIVE (R346). -/
  | macFrameReceive (n : MacId) (w : WireRx) (t : Nat)
  /-- PAUSE_TIMER_EXPIRE (R351). -/
  | pauseTimerExpire (n : MacId) (t : Nat)
  /-- PAUSE_REFRESH (R349). -/
  | pauseRefresh (n : MacId) (t : Nat)
  /-- LINK_UP (R345). -/
  | linkUp (n : MacId) (an : Option (Bool × Bool)) (t : Nat)
  /-- LINK_DOWN (R345). -/
  | linkDown (n : MacId) (t : Nat)
  /-- VERIFY_TIMER (R353). -/
  | verifyTimer (n : MacId) (t : Nat)
  /-- MAC_CNT_CLR (R364). -/
  | macCntClr (n : MacId)
  /-- MAC_CNT_HI_READ (R362). -/
  | macCntHiRead (n : MacId) (c : Fin 64)
  /-- MAC_CNT_LO_READ (R362). -/
  | macCntLoRead (n : MacId) (c : Fin 64)
  /-- MAC_PTP_TX_SEC_HI_READ (R360). -/
  | macPtpTxSecHiRead (n : MacId)
  /-- MAC_PTP_TX_ID_READ (R360). -/
  | macPtpTxIdRead (n : MacId)
  /-- CLASSIFY_FRAME (R308). -/
  | classifyFrame (n : MacId) (errs : List ClsErr) (t : Nat)
  /-- FRAGMENT_WAIT_EXPIRE (R321). -/
  | fragmentWaitExpire (t : Nat)
  /-- FRAGMENT_ENTRY_EXPIRE (R321). -/
  | fragmentEntryExpire (t : Nat)
  /-- TCAM_SCRUB (R322). -/
  | tcamScrub (errs : List TcamErr)
  /-- POLICER_WRITE (R330). -/
  | policerWrite (p : Fin 1024) (word : Fin 4) (w : Word)
  /-- EGRESS_FRAME_START (R333). -/
  | egressFrameStart (n : MacId) (e : QErr) (t : Nat)
  /-- EGRESS_FRAME_END (R348). -/
  | egressFrameEnd (n : MacId) (t : Nat)
  /-- GATE_STATE_CHANGE (R336). -/
  | gateStateChange (n : MacId) (t : Nat)
  /-- SHP_VT_HI_READ (R333). -/
  | shpVtHiRead (n : MacId)
  /-- KEY_LOAD (R368). -/
  | keyLoad (slot : Nat) (cls : Fin 4) (big : Bool)
  /-- KEY_CLEAR (R368). -/
  | keyClear (slot : Nat)
  /-- ROOT_KEY_BLOW (R367). -/
  | rootKeyBlow
  /-- ROOT_KEY_BLOW_DONE (R475). -/
  | rootKeyBlowDone (failed : Nat)
  /-- CLASS_LIMIT_WRITE (R371). -/
  | classLimitWrite (c : Fin 4) (w : Word)
  /-- CJ_SUBMIT (R376). -/
  | cjSubmit (c : CoreId) (ecc : List StoreErr)
  /-- CIPHER_JOB_START (R376). -/
  | cipherJobStart
  /-- CIPHER_JOB_COMPLETE (R376). -/
  | cipherJobComplete (c : CoreId)
  /-- CJ_RESULT_READ (R376). -/
  | cjResultRead (c : CoreId)
  /-- STR_OWNER_WRITE (R379). -/
  | strOwnerWrite (who : Fin 65) (v : Word)
  /-- STR_START (R379). -/
  | strStart (who : Fin 65) (w : Word)
  /-- STR_ABORT (R379). -/
  | strAbort (who : Fin 65)
  /-- STR_DIN_WRITE (R379). -/
  | strDinWrite (who : Fin 65) (w : Word)
  /-- STR_DOUT_READ (R379). -/
  | strDoutRead (who : Fin 65)
  /-- STREAM_JOB_END (R379). -/
  | streamJobEnd
  /-- CIP_SLOT_IDX_WRITE (R365). -/
  | cipSlotIdxWrite (n : Nat)
  /-- DRAM_REQUEST_ARRIVE (R386). -/
  | dramRequestArrive (port : Fin 8) (write : Bool) (burst : Fin 67108864) (mask : BitVec 64) (data : Bytes) (t : Nat)
  /-- DRAM_REQUEST_ISSUE (R389). -/
  | dramRequestIssue (ch : ChanId) (errs : List DramErr) (t : Nat)
  /-- REFRESH_DUE (R390). -/
  | refreshDue (ch : ChanId) (bank : BankId) (t : Nat)
  /-- IDLE_REFRESH (R390). -/
  | idleRefresh (ch : ChanId) (bank : BankId) (t : Nat)
  /-- MR4_READ (R392). -/
  | mr4Read (r0 r1 : Fin 3) (t : Nat)
  /-- DERATE_WINDOW_CLOSE (R393). -/
  | derateWindowClose (t : Nat)
  /-- PATROL_SCRUB_READ (R398). -/
  | patrolScrubRead (errs : List DramErr) (t : Nat)
  /-- CAL_TICK (R401). -/
  | calTick (t : Nat)
  /-- CAL_LIVE_STEP (R405). -/
  | calLiveStep (u : CalUnit) (fig : Int) (t : Nat)
  /-- CAL_SHADOW_STEP (R406). -/
  | calShadowStep (u : CalUnit) (e : CalEye) (t : Nat)
  /-- CAL_RETRY_EXPIRE (R402). -/
  | calRetryExpire (u : CalUnit) (t : Nat)
  /-- CAL_RUN (R403). -/
  | calRun (u : CalUnit)
  /-- CAL_STOP (R404). -/
  | calStop (u : CalUnit)
  /-- CAL_DRAM_IDX_WRITE (R412). -/
  | calDramIdxWrite (ch : ChanId) (bit : Fin 32)
  /-- I2C_WRITE_TRANSACTION (R430). -/
  | i2cWriteTransaction (bytes : Bytes) (ecc : List StoreErr)
  /-- I2C_READ_TRANSACTION (R430). -/
  | i2cReadTransaction (n : Nat)
  /-- I2C_TIMEOUT (R477). -/
  | i2cTimeout
  /-- MGMT_FRAME_AUTH (R431). -/
  | mgmtFrameAuth
  /-- REPLAY_LOG_DONE (R474). -/
  | replayLogDone
  /-- READ (R423). -/
  | read (words : Nat)
  /-- WRITE (R509). -/
  | write (words : Nat)
  /-- WRITE_MASKED (R425). -/
  | writeMasked
  /-- TABLE_WRITE (R424). -/
  | tableWrite (words : Nat)
  /-- STAGE (R435). -/
  | stage
  /-- ARM (R64). -/
  | arm
  /-- NVM_WRITE_OPEN (R434). -/
  | nvmWriteOpen
  /-- NVM_WRITE_DATA (R434). -/
  | nvmWriteData
  /-- NVM_WRITE_CLOSE (R434). -/
  | nvmWriteClose
  /-- NVM_PHASE_DONE (R434). -/
  | nvmPhaseDone (ok : Bool)
  /-- POWER_ENTER_VIGIL (R442). -/
  | powerEnterVigil (t : Nat)
  /-- POWER_ENTER_DORMANT (R443). -/
  | powerEnterDormant (t : Nat)
  /-- POWER_DOMAIN_OFF (R439). -/
  | powerDomainOff (t : Nat)
  /-- POWER_DOMAIN_ON (R440). -/
  | powerDomainOn (t : Nat)
  /-- ABORT (R428). -/
  | abort
  /-- STATUS (R426). -/
  | status
  /-- DRAIN_END (R439). -/
  | drainEnd (dom : Fin 9) (unfinished : Bool) (t : Nat)
  /-- DOMAIN_POWER_UP_DONE (R440). -/
  | domainPowerUpDone (dom : Fin 9) (t : Nat)
  /-- JACK_WRITE_MATCH (R445). -/
  | jackWriteMatch
  /-- JACK_READ (R445). -/
  | jackRead
  /-- WAKE_STAGE_READY (R448). -/
  | wakeStageReady (t : Nat)
  /-- WAKE_STAGE_TIMEOUT (R448). -/
  | wakeStageTimeout (t : Nat)
  /-- AO_FAIL_CLEAR (R447). -/
  | aoFailClear
  /-- GPIO_INPUT_CHANGE (R505). -/
  | gpioInputChange (k : Fin 24) (v : Option Bool)
  /-- RTC_SECOND_TICK (R451). -/
  | rtcSecondTick (t : Nat)
  /-- RTC_FIELD_STAGE (R452). -/
  | rtcFieldStage (f : RtcField) (v : Nat)
  /-- RTC_SEC_WRITE (R452). -/
  | rtcSecWrite (v : Nat)
  /-- RTC_SEC_READ (R454). -/
  | rtcSecRead
  /-- RTC_YEAR_READ (R454). -/
  | rtcYearRead
  /-- RTC_SNAPSHOT_TIMEOUT (R454). -/
  | rtcSnapshotTimeout (t : Nat)
  /-- RTC_NT_SET (R455). -/
  | rtcNtSet
  /-- RTC_NT_SET_COMMIT (R455). -/
  | rtcNtSetCommit (t : Nat)
  /-- RTC_LEAP_WRITE (R457). -/
  | rtcLeapWrite (w : Word)
  /-- RTC_ALARM_WRITE (R460). -/
  | rtcAlarmWrite (a : Fin 2) (g : AlarmReg) (w : Word)
  /-- RTC_TRIM_DONE (R459). -/
  | rtcTrimDone (c : Nat) (t : Nat)
  /-- EVT_LOG_REC_0_READ (R487). -/
  | evtLogRec0Read (ecc : List StoreErr)
  /-- EVT_LOG_REC_3_READ (R487). -/
  | evtLogRec3Read
  /-- NOTIFY_FRAME_SEND (R483). -/
  | notifyFrameSend
  /-- MON_WINDOW_END (R490). -/
  | monWindowEnd (n : Fin 32) (t : Nat)
  /-- MON_CFG_WRITE (R490). -/
  | monCfgWrite (n : Fin 32) (win : Bool) (w : Word)
  /-- MON_STATUS_READ (R493). -/
  | monStatusRead (n : Fin 32)
  /-- MON_HIST_31_READ (R493). -/
  | monHist31Read (n : Fin 32)
  /-- MON_LATCH_TIMEOUT (R493). -/
  | monLatchTimeout (n : Fin 32) (t : Nat)
  /-- PROVISION (R205). -/
  | provision
  /-- REGISTRY_READ (R205). -/
  | registryRead
  /-- DELETE (R205). -/
  | delete
  /-- RELEASE (R230). -/
  | release
  /-- PILOT_HOLD (R230). -/
  | pilotHold (hold : Bool)
  /-- REVOKE (R230). -/
  | revoke
  /-- REPLACE (R230). -/
  | replace (mode : Fin 8) (periodLog2 : Fin 16)
  /-- REGISTER_WRITE (R10). -/
  | registerWrite (a w : Word)
  /-- RESET_N_RELEASE (R422). -/
  | resetNRelease
  /-- AO_HOLD_LOSS (R480). -/
  | aoHoldLoss
  /-- PCS_LOCK_CHANGE (R345). -/
  | pcsLockChange (n : MacId) (pcs fec : Bool) (t : Nat)
  /-- CAGE_OVERCURRENT (R500). -/
  | cageOvercurrent (n : MacId)
  /-- FOLD_BACK_RETRY (R500). -/
  | foldBackRetry (n : MacId)
  /-- CARRIER_END (R135). -/
  | carrierEnd (r : RadioId) (k0 : Fin 1536) (rl : Int) (t : Nat)
  /-- SUPPLY_SAMPLE (R489). -/
  | supplySample (mv : Nat)
deriving DecidableEq, Repr

end Sys2Proof
end

