-- ==== Sys2Proof/Config.lean ====
section
/-! DEFINITION. The free values: what the spec leaves open while the machine goes on. Each is an opaque constant applied to a counter of State,
so nothing in Lean can say what it is (log entry 3). -/

namespace Sys2Proof

/-- A free bit: the k-th value the spec leaves open (log entry 3). -/
opaque Config.freeBit : Nat → Bool

/-- A free word: the k-th value the spec leaves open (log entry 3). -/
opaque Config.freeWord : Nat → Word

/-- The ppb by which the temperature correction of R51 moves XO when a HUB sensor goes from one reading to another, in 1/16 degree (log entry 204). -/
opaque Config.xoDrift : Int → Int → Word

/-- The prototype of a bin-merge unit of n streams, tap by tap in units of 2^-17 (R144; log entry 227). -/
opaque Config.mergeTap : Nat → Nat → BitVec 18

/-- The network sync word W, which the operator chooses (R73; log entry 235). -/
opaque Config.syncWord : BitVec 24

/-- The IPv4 and IPv6 addresses from which Clockwork sends on a MAC (log entry 83). -/
opaque Config.ptpSource4 : Nat → BitVec 32
opaque Config.ptpSource6 : Nat → BitVec 128

end Sys2Proof
end

