-- ==== Sys2Proof/Machine/Bits.lean ====
section
/-! DEFINITION. Bit fields, sign extension, saturation and byte order. -/

namespace Sys2Proof.Machine

/-- The value of the low w bits of n read as a two's complement number. -/
def sext (w n : Nat) : Int :=
  let m := n % 2 ^ w
  if 2 ^ (w - 1) ≤ m then (m : Int) - 2 ^ w else m

/-- The low w bits of an integer, as a natural number. -/
def wrapNat (w : Nat) (x : Int) : Nat := (x % (2 ^ w : Nat)).toNat

/-- The integer limited to [lo, hi]. -/
def clampInt (lo hi x : Int) : Int := if x < lo then lo else if hi < x then hi else x

/-- The integer limited to the range of a signed w-bit number. -/
def satS (w : Nat) (x : Int) : Int := clampInt (-(2 ^ (w - 1) : Nat)) ((2 ^ (w - 1) : Nat) - 1) x

/-- Bits [hi:lo] of a natural number. -/
def bitsOf (hi lo n : Nat) : Nat := n / 2 ^ lo % 2 ^ (hi - lo + 1)

/-- A Boolean as a bit. -/
def bitOf (b : Bool) : Nat := if b then 1 else 0

/-- The low n bytes of v, least significant first. -/
def toLE : Nat → Nat → Bytes
  | 0, _ => []
  | n + 1, v => BitVec.ofNat 8 v :: toLE n (v / 256)

/-- The value of a byte string, least significant byte first. -/
def ofLE : Bytes → Nat
  | [] => 0
  | b :: rest => b.toNat + 256 * ofLE rest

/-- The low n bytes of v, most significant first. -/
def toBE (n v : Nat) : Bytes := (toLE n v).reverse

/-- A rational rounded to the nearest integer, ties away from zero. -/
def roundAway (q : Rat) : Int :=
  if q < 0 then -((-q + 1 / 2).floor) else (q + 1 / 2).floor

/-- The value of a byte string, most significant byte first. -/
def ofBE (bs : Bytes) : Nat := ofLE bs.reverse

/-- n bytes from offset off. -/
def sliceB (bs : Bytes) (off n : Nat) : Bytes := (bs.drop off).take n

/-- The big-endian number in n bytes from offset off. -/
def beAt (bs : Bytes) (off n : Nat) : Nat := ofBE (sliceB bs off n)

/-- The little-endian number in n bytes from offset off. -/
def leAt (bs : Bytes) (off n : Nat) : Nat := ofLE (sliceB bs off n)

/-- The byte at an offset; 0 past the end. -/
def byteAt (bs : Bytes) (off : Nat) : Nat := ((bs.drop off).headD 0).toNat

/-- The string padded with zero bytes, or cut, to n bytes. -/
def padTo (n : Nat) (bs : Bytes) : Bytes := bs.take n ++ List.replicate (n - bs.length) 0

/-- The bytes of the string replaced from offset off by another string. -/
def spliceB (bs : Bytes) (off : Nat) (new : Bytes) : Bytes := bs.take off ++ new ++ bs.drop (off + new.length)

/-- The bytes cut into pieces of n. The fuel is the length. -/
def chunksAux (n : Nat) : Nat → List α → List (List α)
  | 0, _ => []
  | fuel + 1, xs => match xs with
    | [] => []
    | _ => xs.take n :: chunksAux n fuel (xs.drop n)

/-- A list cut into pieces of n elements, the last as long as it comes. -/
def chunksOf (n : Nat) (xs : List α) : List (List α) := chunksAux n xs.length xs

/-- The number of one bits among the low n bits of v. -/
def popCount (n v : Nat) : Nat := ((List.range n).filter (fun i => v.testBit i)).length

/-- The lowest set bit below n of v. -/
def lowestBit (n v : Nat) : Option Nat := (List.range n).find? (fun i => v.testBit i)

/-- v with bit i set to b. -/
def setBit (v i : Nat) (b : Bool) : Nat :=
  if v.testBit i = b then v else if b then v + 2 ^ i else v - 2 ^ i

/-- The quotient of two naturals rounded up. -/
def ceilDiv (a b : Nat) : Nat := (a + b - 1) / b

/-- The element of a list at an index, or a default. -/
def nthD (xs : List α) (i : Nat) (dflt : α) : α := xs.getD i dflt

/-- The list with the element at index i changed by f. -/
def modifyNth (xs : List α) (i : Nat) (f : α → α) : List α := xs.modify i f

end Sys2Proof.Machine
end

