-- ==== Sys2Proof/Machine/RegMap.lean ====
section
/-! DEFINITION. The register map: every register of every block map of the spec, its address (R29 to R31 and each chapter's block map), its
fields with their access code (R10) and their reset value, as the chapter's field tables give them. A field the tables show as reserved is
listed nowhere here: reserved bits read 0 and discard writes (R11). -/

namespace Sys2Proof.Machine

/-- The access codes of R10 (spec/00_scope.md). -/
inductive Acc where
  | ro | rw | wo | w1c | w1s | rwsc
deriving DecidableEq, Repr

/-- The place of a field in its register, bits [hi:lo]. -/
structure Fld where
  hi : Nat
  lo : Nat
deriving DecidableEq, Repr

/-- A field of a register map row: its bits, its access code and its reset value. -/
structure FieldRow where
  hi : Nat
  lo : Nat
  acc : Acc
  reset : Nat
deriving DecidableEq, Repr

/-- A row of a block map: a register, or an array of registers with (count, stride in bytes) for each index, outermost first. -/
structure RegRow where
  name : String
  base : Nat
  dims : List (Nat × Nat)
  fields : List FieldRow
deriving DecidableEq, Repr

/-- LNK_CTRL (spec/01_architecture.md). -/
def R.LNK_CTRL : Nat := 0x00005000
def F.LNK_CTRL_retire_count : Fld := ⟨15, 8⟩
def F.LNK_CTRL_retire_window : Fld := ⟨7, 0⟩
/-- ID_DEVICE (spec/01_architecture.md). -/
def R.ID_DEVICE : Nat := 0x00000000
def F.ID_DEVICE_vendor : Fld := ⟨31, 20⟩
def F.ID_DEVICE_part : Fld := ⟨15, 0⟩
/-- ID_REVISION (spec/01_architecture.md). -/
def R.ID_REVISION : Nat := 0x00000004
def F.ID_REVISION_nvm_step : Fld := ⟨31, 28⟩
def F.ID_REVISION_mem_step : Fld := ⟨27, 24⟩
def F.ID_REVISION_bb1_step : Fld := ⟨23, 20⟩
def F.ID_REVISION_bb0_step : Fld := ⟨19, 16⟩
def F.ID_REVISION_radh_step : Fld := ⟨15, 12⟩
def F.ID_REVISION_radm_step : Fld := ⟨11, 8⟩
def F.ID_REVISION_radl_step : Fld := ⟨7, 4⟩
def F.ID_REVISION_hub_step : Fld := ⟨3, 0⟩
/-- ID_DIES (spec/01_architecture.md). -/
def R.ID_DIES : Nat := 0x00000008
def F.ID_DIES_present : Fld := ⟨7, 0⟩
/-- ID_DIE_STATE (spec/01_architecture.md). -/
def R.ID_DIE_STATE : Nat := 0x0000000C
def F.ID_DIE_STATE_nvm : Fld := ⟨15, 14⟩
def F.ID_DIE_STATE_mem : Fld := ⟨13, 12⟩
def F.ID_DIE_STATE_bb1 : Fld := ⟨11, 10⟩
def F.ID_DIE_STATE_bb0 : Fld := ⟨9, 8⟩
def F.ID_DIE_STATE_radh : Fld := ⟨7, 6⟩
def F.ID_DIE_STATE_radm : Fld := ⟨5, 4⟩
def F.ID_DIE_STATE_radl : Fld := ⟨3, 2⟩
def F.ID_DIE_STATE_hub : Fld := ⟨1, 0⟩
/-- ID_SERIAL_LO (spec/01_architecture.md). -/
def R.ID_SERIAL_LO : Nat := 0x00000010
def F.ID_SERIAL_LO_serial : Fld := ⟨31, 0⟩
/-- ID_SERIAL_HI (spec/01_architecture.md). -/
def R.ID_SERIAL_HI : Nat := 0x00000014
def F.ID_SERIAL_HI_serial : Fld := ⟨31, 0⟩
/-- LNK_STATUS (spec/01_architecture.md), n < 7. -/
def R.LNK_STATUS (n : Nat) : Nat := 0x00005010 + 0x10 * n
def F.LNK_STATUS_good_lanes : Fld := ⟨11, 8⟩
def F.LNK_STATUS_width : Fld := ⟨6, 4⟩
def F.LNK_STATUS_spare_used : Fld := ⟨3, 3⟩
def F.LNK_STATUS_retraining : Fld := ⟨2, 2⟩
def F.LNK_STATUS_replaying : Fld := ⟨1, 1⟩
def F.LNK_STATUS_up : Fld := ⟨0, 0⟩
/-- LNK_LANES (spec/01_architecture.md), n < 7. -/
def R.LNK_LANES (n : Nat) : Nat := 0x00005014 + 0x10 * n
def F.LNK_LANES_retired : Fld := ⟨17, 9⟩
def F.LNK_LANES_in_service : Fld := ⟨8, 0⟩
/-- LNK_ERRORS (spec/01_architecture.md), n < 7. -/
def R.LNK_ERRORS (n : Nat) : Nat := 0x00005018 + 0x10 * n
def F.LNK_ERRORS_replays : Fld := ⟨31, 16⟩
def F.LNK_ERRORS_crc_errors : Fld := ⟨15, 0⟩
/-- CLK_CTRL (spec/02_clockwork.md). -/
def R.CLK_CTRL : Nat := 0x00010000
def F.CLK_CTRL_tai_utc : Fld := ⟨23, 16⟩
def F.CLK_CTRL_quiet_slot : Fld := ⟨15, 8⟩
def F.CLK_CTRL_ref10m_en : Fld := ⟨2, 2⟩
def F.CLK_CTRL_pps_en : Fld := ⟨1, 1⟩
def F.CLK_CTRL_ptp_en : Fld := ⟨0, 0⟩
/-- CLK_STATUS (spec/02_clockwork.md). -/
def R.CLK_STATUS : Nat := 0x00010004
def F.CLK_STATUS_last_fault : Fld := ⟨15, 12⟩
def F.CLK_STATUS_step_pending : Fld := ⟨11, 11⟩
def F.CLK_STATUS_ref10m_valid : Fld := ⟨10, 10⟩
def F.CLK_STATUS_pps_valid : Fld := ⟨9, 9⟩
def F.CLK_STATUS_ptp_valid : Fld := ⟨8, 8⟩
def F.CLK_STATUS_source : Fld := ⟨5, 4⟩
def F.CLK_STATUS_state : Fld := ⟨1, 0⟩
/-- CLK_NT_SEC_HI (spec/02_clockwork.md). -/
def R.CLK_NT_SEC_HI : Nat := 0x00010008
def F.CLK_NT_SEC_HI_sec_hi : Fld := ⟨15, 0⟩
/-- CLK_NT_SEC_LO (spec/02_clockwork.md). -/
def R.CLK_NT_SEC_LO : Nat := 0x0001000C
def F.CLK_NT_SEC_LO_sec_lo : Fld := ⟨31, 0⟩
/-- CLK_NT_NS (spec/02_clockwork.md). -/
def R.CLK_NT_NS : Nat := 0x00010010
def F.CLK_NT_NS_ns : Fld := ⟨29, 0⟩
/-- CLK_SF (spec/02_clockwork.md). -/
def R.CLK_SF : Nat := 0x00010014
def F.CLK_SF_superframe : Fld := ⟨31, 0⟩
/-- CLK_SLOT (spec/02_clockwork.md). -/
def R.CLK_SLOT : Nat := 0x00010018
def F.CLK_SLOT_slot : Fld := ⟨7, 0⟩
/-- CLK_PPS_CTRL (spec/02_clockwork.md). -/
def R.CLK_PPS_CTRL : Nat := 0x00010020
def F.CLK_PPS_CTRL_out_width : Fld := ⟨31, 24⟩
def F.CLK_PPS_CTRL_in_filter : Fld := ⟨23, 16⟩
def F.CLK_PPS_CTRL_in_delay : Fld := ⟨15, 4⟩
def F.CLK_PPS_CTRL_out_en : Fld := ⟨1, 1⟩
def F.CLK_PPS_CTRL_in_falling : Fld := ⟨0, 0⟩
/-- CLK_PTP_CTRL (spec/02_clockwork.md). -/
def R.CLK_PTP_CTRL : Nat := 0x00010024
def F.CLK_PTP_CTRL_domain : Fld := ⟨31, 24⟩
def F.CLK_PTP_CTRL_port : Fld := ⟨19, 16⟩
def F.CLK_PTP_CTRL_gate : Fld := ⟨15, 8⟩
def F.CLK_PTP_CTRL_transport : Fld := ⟨1, 0⟩
/-- CLK_SLEW (spec/02_clockwork.md). -/
def R.CLK_SLEW : Nat := 0x00010028
def F.CLK_SLEW_slew_max : Fld := ⟨31, 16⟩
def F.CLK_SLEW_slew_rate : Fld := ⟨7, 0⟩
/-- CLK_OFFSET (spec/02_clockwork.md). -/
def R.CLK_OFFSET : Nat := 0x0001002C
def F.CLK_OFFSET_offset : Fld := ⟨31, 0⟩
/-- CLK_LAST_STEP (spec/02_clockwork.md). -/
def R.CLK_LAST_STEP : Nat := 0x00010030
def F.CLK_LAST_STEP_step : Fld := ⟨31, 0⟩
/-- CLK_TOD_SEC_HI (spec/02_clockwork.md). -/
def R.CLK_TOD_SEC_HI : Nat := 0x00010034
def F.CLK_TOD_SEC_HI_sec_hi : Fld := ⟨15, 0⟩
/-- CLK_TOD_SEC_LO (spec/02_clockwork.md). -/
def R.CLK_TOD_SEC_LO : Nat := 0x00010038
def F.CLK_TOD_SEC_LO_sec_lo : Fld := ⟨31, 0⟩
/-- CLK_TOD_CTRL (spec/02_clockwork.md). -/
def R.CLK_TOD_CTRL : Nat := 0x0001003C
def F.CLK_TOD_CTRL_load : Fld := ⟨0, 0⟩
/-- CLK_HOLD (spec/02_clockwork.md). -/
def R.CLK_HOLD : Nat := 0x00010040
def F.CLK_HOLD_weight : Fld := ⟨31, 24⟩
def F.CLK_HOLD_min_bursts : Fld := ⟨15, 0⟩
/-- CLK_TRIM (spec/02_clockwork.md). -/
def R.CLK_TRIM : Nat := 0x00010044
def F.CLK_TRIM_trim : Fld := ⟨31, 0⟩
/-- CLK_REJECTS (spec/02_clockwork.md). -/
def R.CLK_REJECTS : Nat := 0x00010048
def F.CLK_REJECTS_ptp : Fld := ⟨31, 16⟩
def F.CLK_REJECTS_pps : Fld := ⟨15, 0⟩
/-- CLK_REJECTS_REF (spec/02_clockwork.md). -/
def R.CLK_REJECTS_REF : Nat := 0x0001004C
def F.CLK_REJECTS_REF_ref10m : Fld := ⟨15, 0⟩
/-- CLK_ACT_TIME_HI (spec/02_clockwork.md). -/
def R.CLK_ACT_TIME_HI : Nat := 0x00010080
def F.CLK_ACT_TIME_HI_sec_hi : Fld := ⟨15, 0⟩
/-- CLK_ACT_TIME_LO (spec/02_clockwork.md). -/
def R.CLK_ACT_TIME_LO : Nat := 0x00010084
def F.CLK_ACT_TIME_LO_sec_lo : Fld := ⟨31, 0⟩
/-- CLK_ACT_TIME_NS (spec/02_clockwork.md). -/
def R.CLK_ACT_TIME_NS : Nat := 0x00010088
def F.CLK_ACT_TIME_NS_ns : Fld := ⟨29, 0⟩
/-- CLK_ACT_SPEC (spec/02_clockwork.md). -/
def R.CLK_ACT_SPEC : Nat := 0x0001008C
def F.CLK_ACT_SPEC_arg : Fld := ⟨31, 16⟩
def F.CLK_ACT_SPEC_target : Fld := ⟨15, 8⟩
def F.CLK_ACT_SPEC_type : Fld := ⟨3, 0⟩
/-- CLK_ACT_CTRL (spec/02_clockwork.md). -/
def R.CLK_ACT_CTRL : Nat := 0x00010090
def F.CLK_ACT_CTRL_index : Fld := ⟨25, 16⟩
def F.CLK_ACT_CTRL_cancel : Fld := ⟨1, 1⟩
def F.CLK_ACT_CTRL_arm : Fld := ⟨0, 0⟩
/-- CLK_ACT_RESULT (spec/02_clockwork.md). -/
def R.CLK_ACT_RESULT : Nat := 0x00010094
def F.CLK_ACT_RESULT_outcome : Fld := ⟨31, 28⟩
def F.CLK_ACT_RESULT_index : Fld := ⟨9, 0⟩
/-- CLK_ACT_STATUS (spec/02_clockwork.md). -/
def R.CLK_ACT_STATUS : Nat := 0x00010098
def F.CLK_ACT_STATUS_in_use : Fld := ⟨26, 16⟩
def F.CLK_ACT_STATUS_refused : Fld := ⟨15, 0⟩
/-- CLK_ACT_LATE (spec/02_clockwork.md). -/
def R.CLK_ACT_LATE : Nat := 0x0001009C
def F.CLK_ACT_LATE_late_skipped : Fld := ⟨31, 16⟩
def F.CLK_ACT_LATE_late_other : Fld := ⟨15, 0⟩
/-- SCH_SEE_CTRL (spec/07_seesaw.md). -/
def R.SCH_SEE_CTRL : Nat := 0x00080100
def F.SCH_SEE_CTRL_see_floor : Fld := ⟨23, 16⟩
def F.SCH_SEE_CTRL_pair_margin : Fld := ⟨7, 2⟩
def F.SCH_SEE_CTRL_pair_en : Fld := ⟨0, 0⟩
/-- SCH_SEE_STAT (spec/07_seesaw.md). -/
def R.SCH_SEE_STAT : Nat := 0x00080104
def F.SCH_SEE_STAT_single : Fld := ⟨31, 16⟩
def F.SCH_SEE_STAT_combined : Fld := ⟨15, 0⟩
/-- SCH_SEE_DROP (spec/07_seesaw.md). -/
def R.SCH_SEE_DROP : Nat := 0x00080108
def F.SCH_SEE_DROP_expired : Fld := ⟨31, 16⟩
def F.SCH_SEE_DROP_excluded : Fld := ⟨15, 0⟩
/-- SCH_CTRL (spec/08_access_scheduler.md). -/
def R.SCH_CTRL : Nat := 0x00080000
def F.SCH_CTRL_en : Fld := ⟨8, 8⟩
def F.SCH_CTRL_join_open : Fld := ⟨2, 0⟩
/-- SCH_STATUS (spec/08_access_scheduler.md). -/
def R.SCH_STATUS : Nat := 0x00080004
def F.SCH_STATUS_ctx_in_use : Fld := ⟨16, 0⟩
/-- SCH_GRID (spec/08_access_scheduler.md). -/
def R.SCH_GRID : Nat := 0x00080008
def F.SCH_GRID_revoke_hold : Fld := ⟨31, 24⟩
def F.SCH_GRID_p_min_log2 : Fld := ⟨23, 20⟩
def F.SCH_GRID_dl_period_log2 : Fld := ⟨19, 16⟩
def F.SCH_GRID_dl_pilot : Fld := ⟨8, 8⟩
def F.SCH_GRID_duty_margin : Fld := ⟨7, 0⟩
/-- SCH_TASK (spec/08_access_scheduler.md). -/
def R.SCH_TASK : Nat := 0x0008000C
def F.SCH_TASK_dl_lead : Fld := ⟨15, 8⟩
def F.SCH_TASK_ul_margin : Fld := ⟨7, 0⟩
/-- SCH_MODE_THR_LO (spec/08_access_scheduler.md). -/
def R.SCH_MODE_THR_LO : Nat := 0x00080010
def F.SCH_MODE_THR_LO_thr4 : Fld := ⟨31, 24⟩
def F.SCH_MODE_THR_LO_thr3 : Fld := ⟨23, 16⟩
def F.SCH_MODE_THR_LO_thr2 : Fld := ⟨15, 8⟩
def F.SCH_MODE_THR_LO_thr1 : Fld := ⟨7, 0⟩
/-- SCH_MODE_THR_HI (spec/08_access_scheduler.md). -/
def R.SCH_MODE_THR_HI : Nat := 0x00080014
def F.SCH_MODE_THR_HI_margin : Fld := ⟨31, 24⟩
def F.SCH_MODE_THR_HI_thr7 : Fld := ⟨23, 16⟩
def F.SCH_MODE_THR_HI_thr6 : Fld := ⟨15, 8⟩
def F.SCH_MODE_THR_HI_thr5 : Fld := ⟨7, 0⟩
/-- SCH_DLQ (spec/08_access_scheduler.md). -/
def R.SCH_DLQ : Nat := 0x00080018
def F.SCH_DLQ_ttl : Fld := ⟨23, 16⟩
def F.SCH_DLQ_q_max : Fld := ⟨3, 0⟩
/-- SCH_BCN_CTRL (spec/08_access_scheduler.md). -/
def R.SCH_BCN_CTRL : Nat := 0x0008001C
def F.SCH_BCN_CTRL_gw_id : Fld := ⟨31, 16⟩
def F.SCH_BCN_CTRL_lm7 : Fld := ⟨12, 12⟩
def F.SCH_BCN_CTRL_key : Fld := ⟨11, 0⟩
/-- SCH_BCN_GRP (spec/08_access_scheduler.md), r < 3. -/
def R.SCH_BCN_GRP (r : Nat) : Nat := 0x00080020 + 0x4 * r
def F.SCH_BCN_GRP_en1 : Fld := ⟨31, 31⟩
def F.SCH_BCN_GRP_ch1 : Fld := ⟨26, 16⟩
def F.SCH_BCN_GRP_en0 : Fld := ⟨15, 15⟩
def F.SCH_BCN_GRP_ch0 : Fld := ⟨10, 0⟩
/-- SCH_JOIN (spec/08_access_scheduler.md), r < 3. -/
def R.SCH_JOIN (r : Nat) : Nat := 0x00080030 + 0x4 * r
def F.SCH_JOIN_en1 : Fld := ⟨31, 31⟩
def F.SCH_JOIN_ch1 : Fld := ⟨26, 16⟩
def F.SCH_JOIN_en0 : Fld := ⟨15, 15⟩
def F.SCH_JOIN_ch0 : Fld := ⟨10, 0⟩
/-- SCH_REG_BASE (spec/08_access_scheduler.md). -/
def R.SCH_REG_BASE : Nat := 0x00080040
def F.SCH_REG_BASE_base : Fld := ⟨31, 12⟩
/-- SCH_DLQ_BASE (spec/08_access_scheduler.md). -/
def R.SCH_DLQ_BASE : Nat := 0x00080044
def F.SCH_DLQ_BASE_base : Fld := ⟨31, 12⟩
/-- SCH_REG_CMD (spec/08_access_scheduler.md). -/
def R.SCH_REG_CMD : Nat := 0x00080048
def F.SCH_REG_CMD_result : Fld := ⟨31, 28⟩
def F.SCH_REG_CMD_op : Fld := ⟨3, 1⟩
def F.SCH_REG_CMD_go : Fld := ⟨0, 0⟩
/-- SCH_REG_STATUS (spec/08_access_scheduler.md). -/
def R.SCH_REG_STATUS : Nat := 0x0008004C
def F.SCH_REG_STATUS_used : Fld := ⟨21, 0⟩
/-- SCH_NODE_CMD (spec/08_access_scheduler.md). -/
def R.SCH_NODE_CMD : Nat := 0x00080050
def F.SCH_NODE_CMD_result : Fld := ⟨31, 28⟩
def F.SCH_NODE_CMD_period_log2 : Fld := ⟨19, 16⟩
def F.SCH_NODE_CMD_hold : Fld := ⟨15, 15⟩
def F.SCH_NODE_CMD_mode : Fld := ⟨14, 12⟩
def F.SCH_NODE_CMD_op : Fld := ⟨3, 1⟩
def F.SCH_NODE_CMD_go : Fld := ⟨0, 0⟩
/-- SCH_NODE_ADDR (spec/08_access_scheduler.md). -/
def R.SCH_NODE_ADDR : Nat := 0x00080054
def F.SCH_NODE_ADDR_address : Fld := ⟨31, 0⟩
/-- SCH_JOIN_STAT (spec/08_access_scheduler.md). -/
def R.SCH_JOIN_STAT : Nat := 0x00080060
def F.SCH_JOIN_STAT_last_cause : Fld := ⟨31, 28⟩
def F.SCH_JOIN_STAT_refused : Fld := ⟨27, 16⟩
def F.SCH_JOIN_STAT_admitted : Fld := ⟨15, 0⟩
/-- SCH_CTX_STAT (spec/08_access_scheduler.md). -/
def R.SCH_CTX_STAT : Nat := 0x00080064
def F.SCH_CTX_STAT_ctx_full : Fld := ⟨31, 16⟩
def F.SCH_CTX_STAT_evictions : Fld := ⟨15, 0⟩
/-- SCH_DL_STAT (spec/08_access_scheduler.md). -/
def R.SCH_DL_STAT : Nat := 0x00080068
def F.SCH_DL_STAT_late : Fld := ⟨31, 16⟩
def F.SCH_DL_STAT_duty_blocked : Fld := ⟨15, 0⟩
/-- SCH_DL_DROP (spec/08_access_scheduler.md). -/
def R.SCH_DL_DROP : Nat := 0x0008006C
def F.SCH_DL_DROP_unknown : Fld := ⟨31, 24⟩
def F.SCH_DL_DROP_too_long : Fld := ⟨23, 16⟩
def F.SCH_DL_DROP_q_full : Fld := ⟨15, 8⟩
def F.SCH_DL_DROP_expired : Fld := ⟨7, 0⟩
/-- SCH_SLOT_STAT (spec/08_access_scheduler.md). -/
def R.SCH_SLOT_STAT : Nat := 0x00080070
def F.SCH_SLOT_STAT_refused : Fld := ⟨31, 16⟩
def F.SCH_SLOT_STAT_overruns : Fld := ⟨15, 0⟩
/-- SCH_DIR (spec/08_access_scheduler.md), r < 3, w < 8. -/
def R.SCH_DIR (r w : Nat) : Nat := 0x00080200 + 0x20 * r + 0x4 * w
def F.SCH_DIR_word : Fld := ⟨31, 0⟩
/-- SCH_DIR_ACT (spec/08_access_scheduler.md), r < 3, w < 8. -/
def R.SCH_DIR_ACT (r w : Nat) : Nat := 0x00080300 + 0x20 * r + 0x4 * w
def F.SCH_DIR_ACT_word : Fld := ⟨31, 0⟩
/-- SCH_REG_BUF (spec/08_access_scheduler.md), w < 64. -/
def R.SCH_REG_BUF (w : Nat) : Nat := 0x00080400 + 0x4 * w
def F.SCH_REG_BUF_word : Fld := ⟨31, 0⟩
/-- PUP_CTRL (spec/09_puppeteer.md). -/
def R.PUP_CTRL : Nat := 0x00070000
def F.PUP_CTRL_understudies : Fld := ⟨3, 0⟩
/-- PUP_STATUS (spec/09_puppeteer.md). -/
def R.PUP_STATUS : Nat := 0x00070004
def F.PUP_STATUS_fired : Fld := ⟨29, 16⟩
def F.PUP_STATUS_occupancy : Fld := ⟨13, 0⟩
/-- PUP_WATER (spec/09_puppeteer.md). -/
def R.PUP_WATER : Nat := 0x00070008
def F.PUP_WATER_high : Fld := ⟨29, 16⟩
def F.PUP_WATER_low : Fld := ⟨13, 0⟩
/-- PUP_CORES (spec/09_puppeteer.md). -/
def R.PUP_CORES : Nat := 0x0007000C
def F.PUP_CORES_active : Fld := ⟨22, 16⟩
def F.PUP_CORES_understudies_left : Fld := ⟨11, 8⟩
def F.PUP_CORES_retired : Fld := ⟨6, 0⟩
/-- PUP_CREATED (spec/09_puppeteer.md). -/
def R.PUP_CREATED : Nat := 0x00070010
def F.PUP_CREATED_created : Fld := ⟨31, 0⟩
/-- PUP_LOSS (spec/09_puppeteer.md). -/
def R.PUP_LOSS : Nat := 0x00070014
def F.PUP_LOSS_stale : Fld := ⟨31, 22⟩
def F.PUP_LOSS_refused : Fld := ⟨21, 11⟩
def F.PUP_LOSS_expired : Fld := ⟨10, 0⟩
/-- PUP_FAULT_STAT (spec/09_puppeteer.md). -/
def R.PUP_FAULT_STAT : Nat := 0x00070018
def F.PUP_FAULT_STAT_faults : Fld := ⟨31, 16⟩
def F.PUP_FAULT_STAT_abandoned : Fld := ⟨15, 0⟩
/-- PUP_FAULT_LAST (spec/09_puppeteer.md). -/
def R.PUP_FAULT_LAST : Nat := 0x0007001C
def F.PUP_FAULT_LAST_cause : Fld := ⟨31, 28⟩
def F.PUP_FAULT_LAST_kind : Fld := ⟨18, 16⟩
def F.PUP_FAULT_LAST_attempt : Fld := ⟨7, 7⟩
def F.PUP_FAULT_LAST_core : Fld := ⟨5, 0⟩
/-- PUP_DISP_AFF (spec/09_puppeteer.md). -/
def R.PUP_DISP_AFF : Nat := 0x00070020
def F.PUP_DISP_AFF_affinity : Fld := ⟨31, 0⟩
/-- PUP_DISP_MOVE (spec/09_puppeteer.md). -/
def R.PUP_DISP_MOVE : Nat := 0x00070024
def F.PUP_DISP_MOVE_other_die : Fld := ⟨31, 16⟩
def F.PUP_DISP_MOVE_same_die : Fld := ⟨15, 0⟩
/-- PUP_CORE_CMD (spec/09_puppeteer.md). -/
def R.PUP_CORE_CMD : Nat := 0x00070030
def F.PUP_CORE_CMD_result : Fld := ⟨31, 28⟩
def F.PUP_CORE_CMD_core : Fld := ⟨13, 8⟩
def F.PUP_CORE_CMD_op : Fld := ⟨2, 1⟩
def F.PUP_CORE_CMD_go : Fld := ⟨0, 0⟩
/-- PUP_ENTRY (spec/09_puppeteer.md), k < 5. -/
def R.PUP_ENTRY (k : Nat) : Nat := 0x00070040 + 0x4 * k
def F.PUP_ENTRY_entry : Fld := ⟨12, 0⟩
/-- PUP_BUDGET (spec/09_puppeteer.md), k < 5. -/
def R.PUP_BUDGET (k : Nat) : Nat := 0x00070060 + 0x4 * k
def F.PUP_BUDGET_budget : Fld := ⟨15, 0⟩
/-- PUP_CORE_STATE (spec/09_puppeteer.md), w < 4. -/
def R.PUP_CORE_STATE (w : Nat) : Nat := 0x00070080 + 0x4 * w
def F.PUP_CORE_STATE_cores : Fld := ⟨31, 0⟩
/-- PUP_PEEK_IDX (spec/09_puppeteer.md). -/
def R.PUP_PEEK_IDX : Nat := 0x000700A0
def F.PUP_PEEK_IDX_index : Fld := ⟨12, 0⟩
/-- PUP_PEEK (spec/09_puppeteer.md), w < 16. -/
def R.PUP_PEEK (w : Nat) : Nat := 0x000700C0 + 0x4 * w
def F.PUP_PEEK_word : Fld := ⟨31, 0⟩
/-- CLS_GEN (spec/12_classifier.md). -/
def R.CLS_GEN : Nat := 0x00030000
def F.CLS_GEN_drained : Fld := ⟨2, 2⟩
def F.CLS_GEN_active : Fld := ⟨0, 0⟩
/-- CLS_GEN_FLIGHT (spec/12_classifier.md). -/
def R.CLS_GEN_FLIGHT : Nat := 0x00030004
def F.CLS_GEN_FLIGHT_flight1 : Fld := ⟨31, 16⟩
def F.CLS_GEN_FLIGHT_flight0 : Fld := ⟨15, 0⟩
/-- CLS_PARSE (spec/12_classifier.md). -/
def R.CLS_PARSE : Nat := 0x00030008
def F.CLS_PARSE_zil_port : Fld := ⟨31, 16⟩
def F.CLS_PARSE_vxlan_port : Fld := ⟨15, 0⟩
/-- CLS_EM_CTRL (spec/12_classifier.md). -/
def R.CLS_EM_CTRL : Nat := 0x0003000C
def F.CLS_EM_CTRL_dl_shift : Fld := ⟨12, 8⟩
def F.CLS_EM_CTRL_ul_shift : Fld := ⟨4, 0⟩
/-- CLS_UL_DEFAULT (spec/12_classifier.md). -/
def R.CLS_UL_DEFAULT : Nat := 0x00030010
def F.CLS_UL_DEFAULT_action : Fld := ⟨31, 0⟩
/-- CLS_MISS (spec/12_classifier.md), n < 8. -/
def R.CLS_MISS (n : Nat) : Nat := 0x00030020 + 0x4 * n
def F.CLS_MISS_action : Fld := ⟨31, 0⟩
/-- CLS_DROP (spec/12_classifier.md). -/
def R.CLS_DROP : Nat := 0x00030040
def F.CLS_DROP_action_drop : Fld := ⟨31, 0⟩
/-- CLS_DROP_X (spec/12_classifier.md). -/
def R.CLS_DROP_X : Nat := 0x00030044
def F.CLS_DROP_X_ttl_expired : Fld := ⟨31, 24⟩
def F.CLS_DROP_X_pass_limit : Fld := ⟨23, 16⟩
def F.CLS_DROP_X_decap_bad : Fld := ⟨15, 8⟩
/-- CLS_EM_DROP (spec/12_classifier.md). -/
def R.CLS_EM_DROP : Nat := 0x00030048
def F.CLS_EM_DROP_mgmt_miss : Fld := ⟨31, 16⟩
def F.CLS_EM_DROP_dl_short : Fld := ⟨15, 8⟩
def F.CLS_EM_DROP_dl_miss : Fld := ⟨7, 0⟩
/-- CLS_FRAG_STAT (spec/12_classifier.md). -/
def R.CLS_FRAG_STAT : Nat := 0x0003004C
def F.CLS_FRAG_STAT_in_use : Fld := ⟨27, 16⟩
def F.CLS_FRAG_STAT_pending : Fld := ⟨6, 0⟩
/-- CLS_FRAG_DROP (spec/12_classifier.md). -/
def R.CLS_FRAG_DROP : Nat := 0x00030050
def F.CLS_FRAG_DROP_expired : Fld := ⟨31, 16⟩
def F.CLS_FRAG_DROP_pending_full : Fld := ⟨15, 8⟩
def F.CLS_FRAG_DROP_table_full : Fld := ⟨7, 0⟩
/-- CLS_SCRUB (spec/12_classifier.md). -/
def R.CLS_SCRUB : Nat := 0x00030054
def F.CLS_SCRUB_restored : Fld := ⟨15, 0⟩
/-- SHP_BUF_BASE (spec/13_traffic_manager.md). -/
def R.SHP_BUF_BASE : Nat := 0x00040000
def F.SHP_BUF_BASE_base : Fld := ⟨31, 12⟩
def F.SHP_BUF_BASE_dram_en : Fld := ⟨0, 0⟩
/-- SHP_SRAM_USE (spec/13_traffic_manager.md). -/
def R.SHP_SRAM_USE : Nat := 0x00040004
def F.SHP_SRAM_USE_cells : Fld := ⟨16, 0⟩
/-- SHP_DRAM_USE (spec/13_traffic_manager.md). -/
def R.SHP_DRAM_USE : Nat := 0x00040008
def F.SHP_DRAM_USE_cells : Fld := ⟨21, 0⟩
/-- SHP_ECC (spec/13_traffic_manager.md). -/
def R.SHP_ECC : Nat := 0x0004000C
def F.SHP_ECC_uncorrected : Fld := ⟨31, 16⟩
def F.SHP_ECC_corrected : Fld := ⟨15, 0⟩
/-- SHP_POL_DROP (spec/13_traffic_manager.md). -/
def R.SHP_POL_DROP : Nat := 0x00040010
def F.SHP_POL_DROP_drops : Fld := ⟨31, 0⟩
/-- SHP_RECOVER (spec/13_traffic_manager.md). -/
def R.SHP_RECOVER : Nat := 0x00040014
def F.SHP_RECOVER_restored : Fld := ⟨15, 0⟩
/-- SHP_Q_CFG (spec/13_traffic_manager.md), g < 64. -/
def R.SHP_Q_CFG (g : Nat) : Nat := 0x00041000 + 0x10 * g
def F.SHP_Q_CFG_weight : Fld := ⟨31, 24⟩
def F.SHP_Q_CFG_sram_max : Fld := ⟨23, 14⟩
def F.SHP_Q_CFG_q_max : Fld := ⟨13, 0⟩
/-- SHP_Q_DEPTH (spec/13_traffic_manager.md), g < 64. -/
def R.SHP_Q_DEPTH (g : Nat) : Nat := 0x00041004 + 0x10 * g
def F.SHP_Q_DEPTH_bytes : Fld := ⟨31, 0⟩
/-- SHP_Q_DROP (spec/13_traffic_manager.md), g < 64. -/
def R.SHP_Q_DROP (g : Nat) : Nat := 0x00041008 + 0x10 * g
def F.SHP_Q_DROP_admit : Fld := ⟨31, 16⟩
def F.SHP_Q_DROP_oversize : Fld := ⟨15, 8⟩
def F.SHP_Q_DROP_ecc : Fld := ⟨7, 0⟩
/-- SHP_Q_SOJ (spec/13_traffic_manager.md), g < 64. -/
def R.SHP_Q_SOJ (g : Nat) : Nat := 0x0004100C + 0x10 * g
def F.SHP_Q_SOJ_ns : Fld := ⟨31, 0⟩
/-- SHP_PORT_CTRL (spec/13_traffic_manager.md), n < 8. -/
def R.SHP_PORT_CTRL (n : Nat) : Nat := 0x00042000 + 0x40 * n
def F.SHP_PORT_CTRL_has_list : Fld := ⟨5, 5⟩
def F.SHP_PORT_CTRL_bank : Fld := ⟨4, 4⟩
def F.SHP_PORT_CTRL_gate_en : Fld := ⟨0, 0⟩
/-- SHP_PORT_GSTAT (spec/13_traffic_manager.md), n < 8. -/
def R.SHP_PORT_GSTAT (n : Nat) : Nat := 0x00042004 + 0x40 * n
def F.SHP_PORT_GSTAT_entry : Fld := ⟨15, 8⟩
def F.SHP_PORT_GSTAT_states : Fld := ⟨7, 0⟩
/-- SHP_PORT_CYC0 (spec/13_traffic_manager.md), n < 8. -/
def R.SHP_PORT_CYC0 (n : Nat) : Nat := 0x00042008 + 0x40 * n
def F.SHP_PORT_CYC0_cycle : Fld := ⟨31, 0⟩
/-- SHP_PORT_CYC1 (spec/13_traffic_manager.md), n < 8. -/
def R.SHP_PORT_CYC1 (n : Nat) : Nat := 0x0004200C + 0x40 * n
def F.SHP_PORT_CYC1_cycle : Fld := ⟨31, 0⟩
/-- SHP_PORT_LEN (spec/13_traffic_manager.md), n < 8. -/
def R.SHP_PORT_LEN (n : Nat) : Nat := 0x00042010 + 0x40 * n
def F.SHP_PORT_LEN_len1 : Fld := ⟨15, 8⟩
def F.SHP_PORT_LEN_len0 : Fld := ⟨7, 0⟩
/-- SHP_PORT_T0_HI (spec/13_traffic_manager.md), n < 8. -/
def R.SHP_PORT_T0_HI (n : Nat) : Nat := 0x00042014 + 0x40 * n
def F.SHP_PORT_T0_HI_sec_hi : Fld := ⟨15, 0⟩
/-- SHP_PORT_T0_LO (spec/13_traffic_manager.md), n < 8. -/
def R.SHP_PORT_T0_LO (n : Nat) : Nat := 0x00042018 + 0x40 * n
def F.SHP_PORT_T0_LO_sec_lo : Fld := ⟨31, 0⟩
/-- SHP_PORT_T0_NS (spec/13_traffic_manager.md), n < 8. -/
def R.SHP_PORT_T0_NS (n : Nat) : Nat := 0x0004201C + 0x40 * n
def F.SHP_PORT_T0_NS_ns : Fld := ⟨29, 0⟩
/-- SHP_PORT_VT_HI (spec/13_traffic_manager.md), n < 8. -/
def R.SHP_PORT_VT_HI (n : Nat) : Nat := 0x00042020 + 0x40 * n
def F.SHP_PORT_VT_HI_vt_hi : Fld := ⟨15, 0⟩
/-- SHP_PORT_VT_LO (spec/13_traffic_manager.md), n < 8. -/
def R.SHP_PORT_VT_LO (n : Nat) : Nat := 0x00042024 + 0x40 * n
def F.SHP_PORT_VT_LO_vt_lo : Fld := ⟨31, 0⟩
/-- SHP_PORT_STAT (spec/13_traffic_manager.md), n < 8. -/
def R.SHP_PORT_STAT (n : Nat) : Nat := 0x00042028 + 0x40 * n
def F.SHP_PORT_STAT_takeovers : Fld := ⟨15, 0⟩
/-- CIP_CTRL (spec/15_cipher_engine.md). -/
def R.CIP_CTRL : Nat := 0x00050000
def F.CIP_CTRL_node_class : Fld := ⟨1, 0⟩
/-- CIP_STATUS (spec/15_cipher_engine.md). -/
def R.CIP_STATUS : Nat := 0x00050004
def F.CIP_STATUS_busy : Fld := ⟨20, 16⟩
def F.CIP_STATUS_queued : Fld := ⟨15, 0⟩
/-- CIP_JOBS (spec/15_cipher_engine.md). -/
def R.CIP_JOBS : Nat := 0x00050008
def F.CIP_JOBS_accepted : Fld := ⟨31, 0⟩
/-- CIP_ERRS (spec/15_cipher_engine.md). -/
def R.CIP_ERRS : Nat := 0x0005000C
def F.CIP_ERRS_tag_fail : Fld := ⟨31, 16⟩
def F.CIP_ERRS_refused : Fld := ⟨15, 0⟩
/-- CIP_CLASS (spec/15_cipher_engine.md), c < 4. -/
def R.CIP_CLASS (c : Nat) : Nat := 0x00050010 + 0x4 * c
def F.CIP_CLASS_dummy : Fld := ⟨31, 31⟩
def F.CIP_CLASS_shuffle : Fld := ⟨30, 30⟩
def F.CIP_CLASS_limit : Fld := ⟨23, 0⟩
/-- CIP_KEY_CMD (spec/15_cipher_engine.md). -/
def R.CIP_KEY_CMD : Nat := 0x00050020
def F.CIP_KEY_CMD_result : Fld := ⟨31, 28⟩
def F.CIP_KEY_CMD_class : Fld := ⟨27, 26⟩
def F.CIP_KEY_CMD_size : Fld := ⟨25, 25⟩
def F.CIP_KEY_CMD_slot : Fld := ⟨15, 8⟩
def F.CIP_KEY_CMD_op : Fld := ⟨2, 1⟩
def F.CIP_KEY_CMD_go : Fld := ⟨0, 0⟩
/-- CIP_KEY_STAT (spec/15_cipher_engine.md). -/
def R.CIP_KEY_STAT : Nat := 0x00050024
def F.CIP_KEY_STAT_load_refused : Fld := ⟨31, 16⟩
def F.CIP_KEY_STAT_unwrap_fail : Fld := ⟨15, 0⟩
/-- CIP_NODE_SLOTS (spec/15_cipher_engine.md). -/
def R.CIP_NODE_SLOTS : Nat := 0x00050028
def F.CIP_NODE_SLOTS_locked : Fld := ⟨27, 16⟩
def F.CIP_NODE_SLOTS_in_use : Fld := ⟨11, 0⟩
/-- CIP_LOCKED (spec/15_cipher_engine.md). -/
def R.CIP_LOCKED : Nat := 0x0005002C
def F.CIP_LOCKED_locks : Fld := ⟨31, 16⟩
def F.CIP_LOCKED_last : Fld := ⟨11, 0⟩
/-- CIP_SLOT_IDX (spec/15_cipher_engine.md). -/
def R.CIP_SLOT_IDX : Nat := 0x00050030
def F.CIP_SLOT_IDX_slot : Fld := ⟨11, 0⟩
/-- CIP_SLOT_INFO (spec/15_cipher_engine.md). -/
def R.CIP_SLOT_INFO : Nat := 0x00050034
def F.CIP_SLOT_INFO_valid : Fld := ⟨31, 31⟩
def F.CIP_SLOT_INFO_locked : Fld := ⟨30, 30⟩
def F.CIP_SLOT_INFO_class : Fld := ⟨29, 28⟩
def F.CIP_SLOT_INFO_size : Fld := ⟨27, 27⟩
def F.CIP_SLOT_INFO_uses : Fld := ⟨24, 0⟩
/-- CIP_SLOT_OWNER (spec/15_cipher_engine.md). -/
def R.CIP_SLOT_OWNER : Nat := 0x00050038
def F.CIP_SLOT_OWNER_owner : Fld := ⟨31, 0⟩
/-- CIP_ROOT_CTRL (spec/15_cipher_engine.md). -/
def R.CIP_ROOT_CTRL : Nat := 0x00050040
def F.CIP_ROOT_CTRL_result : Fld := ⟨31, 30⟩
def F.CIP_ROOT_CTRL_blow : Fld := ⟨0, 0⟩
/-- CIP_ROOT_STATUS (spec/15_cipher_engine.md). -/
def R.CIP_ROOT_STATUS : Nat := 0x00050044
def F.CIP_ROOT_STATUS_programmed : Fld := ⟨31, 31⟩
def F.CIP_ROOT_STATUS_kcv : Fld := ⟨23, 0⟩
/-- CIP_ROOT_KEY (spec/15_cipher_engine.md), w < 8. -/
def R.CIP_ROOT_KEY (w : Nat) : Nat := 0x00050060 + 0x4 * w
def F.CIP_ROOT_KEY_key : Fld := ⟨31, 0⟩
/-- CIP_KEY_BUF (spec/15_cipher_engine.md), w < 10. -/
def R.CIP_KEY_BUF (w : Nat) : Nat := 0x00050100 + 0x4 * w
def F.CIP_KEY_BUF_wrapped : Fld := ⟨31, 0⟩
/-- DRC_CTRL (spec/16_dram_controller.md). -/
def R.DRC_CTRL : Nat := 0x00060000
def F.DRC_CTRL_derate_force : Fld := ⟨3, 3⟩
def F.DRC_CTRL_map : Fld := ⟨2, 1⟩
def F.DRC_CTRL_en : Fld := ⟨0, 0⟩
/-- DRC_STATUS (spec/16_dram_controller.md). -/
def R.DRC_STATUS : Nat := 0x00060004
def F.DRC_STATUS_mult : Fld := ⟨10, 8⟩
def F.DRC_STATUS_window : Fld := ⟨7, 7⟩
def F.DRC_STATUS_ch1_ready : Fld := ⟨1, 1⟩
def F.DRC_STATUS_ch0_ready : Fld := ⟨0, 0⟩
/-- DRC_REF_STAT (spec/16_dram_controller.md). -/
def R.DRC_REF_STAT : Nat := 0x00060008
def F.DRC_REF_STAT_derate_forced : Fld := ⟨31, 16⟩
def F.DRC_REF_STAT_cap_forced : Fld := ⟨15, 0⟩
/-- DRC_REF_DEBT (spec/16_dram_controller.md). -/
def R.DRC_REF_DEBT : Nat := 0x0006000C
def F.DRC_REF_DEBT_ch1_max : Fld := ⟨13, 8⟩
def F.DRC_REF_DEBT_ch0_max : Fld := ⟨5, 0⟩
/-- DRC_ECC_CTRL (spec/16_dram_controller.md). -/
def R.DRC_ECC_CTRL : Nat := 0x00060010
def F.DRC_ECC_CTRL_corr_thr : Fld := ⟨15, 0⟩
/-- DRC_ECC_CORR (spec/16_dram_controller.md). -/
def R.DRC_ECC_CORR : Nat := 0x00060014
def F.DRC_ECC_CORR_corrected : Fld := ⟨31, 0⟩
/-- DRC_ECC_UNCORR (spec/16_dram_controller.md). -/
def R.DRC_ECC_UNCORR : Nat := 0x00060018
def F.DRC_ECC_UNCORR_uncorrected : Fld := ⟨15, 0⟩
/-- DRC_ECC_ADDR (spec/16_dram_controller.md). -/
def R.DRC_ECC_ADDR : Nat := 0x0006001C
def F.DRC_ECC_ADDR_addr : Fld := ⟨31, 6⟩
/-- DRC_SCRUB (spec/16_dram_controller.md). -/
def R.DRC_SCRUB : Nat := 0x00060020
def F.DRC_SCRUB_period : Fld := ⟨15, 8⟩
def F.DRC_SCRUB_en : Fld := ⟨0, 0⟩
/-- DRC_SCRUB_POS (spec/16_dram_controller.md). -/
def R.DRC_SCRUB_POS : Nat := 0x00060024
def F.DRC_SCRUB_POS_pos : Fld := ⟨31, 6⟩
/-- DRC_PORT_CFG (spec/16_dram_controller.md), p < 8. -/
def R.DRC_PORT_CFG (p : Nat) : Nat := 0x00060100 + 0x8 * p
def F.DRC_PORT_CFG_target : Fld := ⟨19, 0⟩
/-- DRC_PORT_STAT (spec/16_dram_controller.md), p < 8. -/
def R.DRC_PORT_STAT (p : Nat) : Nat := 0x00060104 + 0x8 * p
def F.DRC_PORT_STAT_late : Fld := ⟨31, 16⟩
def F.DRC_PORT_STAT_urgent : Fld := ⟨15, 0⟩
/-- CAL_CTRL (spec/17_calibration.md). -/
def R.CAL_CTRL : Nat := 0x00090000
def F.CAL_CTRL_cal_dt : Fld := ⟨28, 24⟩
def F.CAL_CTRL_retry : Fld := ⟨23, 16⟩
def F.CAL_CTRL_auto_vco : Fld := ⟨3, 3⟩
def F.CAL_CTRL_dram_en : Fld := ⟨2, 2⟩
def F.CAL_CTRL_ser_en : Fld := ⟨1, 1⟩
def F.CAL_CTRL_rad_en : Fld := ⟨0, 0⟩
/-- CAL_STATUS (spec/17_calibration.md). -/
def R.CAL_STATUS : Nat := 0x00090004
def F.CAL_STATUS_running : Fld := ⟨7, 0⟩
/-- CAL_CMD (spec/17_calibration.md). -/
def R.CAL_CMD : Nat := 0x00090008
def F.CAL_CMD_result : Fld := ⟨31, 28⟩
def F.CAL_CMD_unit : Fld := ⟨15, 8⟩
def F.CAL_CMD_op : Fld := ⟨2, 1⟩
def F.CAL_CMD_go : Fld := ⟨0, 0⟩
/-- CAL_THR_RAD (spec/17_calibration.md). -/
def R.CAL_THR_RAD : Nat := 0x0009000C
def F.CAL_THR_RAD_img_max : Fld := ⟨31, 24⟩
def F.CAL_THR_RAD_dc_max : Fld := ⟨23, 16⟩
def F.CAL_THR_RAD_bw_max : Fld := ⟨7, 0⟩
/-- CAL_THR_SER (spec/17_calibration.md). -/
def R.CAL_THR_SER : Nat := 0x00090010
def F.CAL_THR_SER_height_min : Fld := ⟨25, 16⟩
def F.CAL_THR_SER_width_min : Fld := ⟨6, 0⟩
/-- CAL_THR_DRAM (spec/17_calibration.md). -/
def R.CAL_THR_DRAM : Nat := 0x00090014
def F.CAL_THR_DRAM_eye_min : Fld := ⟨7, 0⟩
/-- CAL_STAT (spec/17_calibration.md). -/
def R.CAL_STAT : Nat := 0x00090018
def F.CAL_STAT_runs : Fld := ⟨31, 16⟩
def F.CAL_STAT_reverted : Fld := ⟨15, 8⟩
def F.CAL_STAT_quality_low : Fld := ⟨7, 0⟩
/-- CAL_LAST (spec/17_calibration.md). -/
def R.CAL_LAST : Nat := 0x0009001C
def F.CAL_LAST_outcome : Fld := ⟨31, 28⟩
def F.CAL_LAST_below : Fld := ⟨27, 27⟩
def F.CAL_LAST_unit : Fld := ⟨7, 0⟩
/-- CAL_TEMP (spec/17_calibration.md), s < 16. -/
def R.CAL_TEMP (s : Nat) : Nat := 0x00090040 + 0x4 * s
def F.CAL_TEMP_valid : Fld := ⟨31, 31⟩
def F.CAL_TEMP_temp : Fld := ⟨15, 0⟩
/-- CAL_RAD_FIG (spec/17_calibration.md), r < 3, p < 2. -/
def R.CAL_RAD_FIG (r p : Nat) : Nat := 0x00090100 + 0x20 * r + 0x10 * p
def F.CAL_RAD_FIG_image : Fld := ⟨31, 24⟩
def F.CAL_RAD_FIG_dc : Fld := ⟨23, 16⟩
def F.CAL_RAD_FIG_bw_err : Fld := ⟨15, 8⟩
/-- CAL_RAD_CODE0 (spec/17_calibration.md), r < 3, p < 2. -/
def R.CAL_RAD_CODE0 (r p : Nat) : Nat := 0x00090104 + 0x20 * r + 0x10 * p
def F.CAL_RAD_CODE0_dc_i : Fld := ⟨15, 8⟩
def F.CAL_RAD_CODE0_dc_q : Fld := ⟨7, 0⟩
/-- CAL_RAD_CODE1 (spec/17_calibration.md), r < 3, p < 2. -/
def R.CAL_RAD_CODE1 (r p : Nat) : Nat := 0x00090108 + 0x20 * r + 0x10 * p
def F.CAL_RAD_CODE1_img_gain : Fld := ⟨31, 24⟩
def F.CAL_RAD_CODE1_img_phase : Fld := ⟨23, 16⟩
def F.CAL_RAD_CODE1_bw : Fld := ⟨5, 0⟩
/-- CAL_RAD_VCO (spec/17_calibration.md), r < 3. -/
def R.CAL_RAD_VCO (r : Nat) : Nat := 0x00090160 + 0x4 * r
def F.CAL_RAD_VCO_result : Fld := ⟨31, 28⟩
def F.CAL_RAD_VCO_band : Fld := ⟨6, 0⟩
/-- CAL_SER_FIG (spec/17_calibration.md), n < 8. -/
def R.CAL_SER_FIG (n : Nat) : Nat := 0x00090200 + 0x8 * n
def F.CAL_SER_FIG_height : Fld := ⟨25, 16⟩
def F.CAL_SER_FIG_width : Fld := ⟨6, 0⟩
/-- CAL_SER_TAPS (spec/17_calibration.md), n < 8. -/
def R.CAL_SER_TAPS (n : Nat) : Nat := 0x00090204 + 0x8 * n
def F.CAL_SER_TAPS_taps : Fld := ⟨29, 0⟩
/-- CAL_DRAM_FIG (spec/17_calibration.md), c < 2. -/
def R.CAL_DRAM_FIG (c : Nat) : Nat := 0x00090300 + 0x4 * c
def F.CAL_DRAM_FIG_wr_min : Fld := ⟨31, 24⟩
def F.CAL_DRAM_FIG_wr_bit : Fld := ⟨20, 16⟩
def F.CAL_DRAM_FIG_rd_min : Fld := ⟨15, 8⟩
def F.CAL_DRAM_FIG_rd_bit : Fld := ⟨4, 0⟩
/-- CAL_DRAM_IDX (spec/17_calibration.md). -/
def R.CAL_DRAM_IDX : Nat := 0x00090310
def F.CAL_DRAM_IDX_ch : Fld := ⟨5, 5⟩
def F.CAL_DRAM_IDX_bit : Fld := ⟨4, 0⟩
/-- CAL_DRAM_BIT (spec/17_calibration.md). -/
def R.CAL_DRAM_BIT : Nat := 0x00090314
def F.CAL_DRAM_BIT_wr_width : Fld := ⟨31, 24⟩
def F.CAL_DRAM_BIT_wr_tap : Fld := ⟨23, 16⟩
def F.CAL_DRAM_BIT_rd_width : Fld := ⟨15, 8⟩
def F.CAL_DRAM_BIT_rd_tap : Fld := ⟨7, 0⟩
/-- PWR_STATE (spec/19_power_and_wake.md). -/
def R.PWR_STATE : Nat := 0x00002000
def F.PWR_STATE_last_from : Fld := ⟨5, 4⟩
def F.PWR_STATE_state : Fld := ⟨1, 0⟩
/-- PWR_DOMAIN (spec/19_power_and_wake.md). -/
def R.PWR_DOMAIN : Nat := 0x00002004
def F.PWR_DOMAIN_doms : Fld := ⟨17, 0⟩
/-- PWR_CTRL (spec/19_power_and_wake.md). -/
def R.PWR_CTRL : Nat := 0x00002008
def F.PWR_CTRL_mgmt_mac : Fld := ⟨2, 0⟩
/-- PWR_AO_STATUS (spec/19_power_and_wake.md). -/
def R.PWR_AO_STATUS : Nat := 0x0000200C
def F.PWR_AO_STATUS_fail_seen : Fld := ⟨8, 8⟩
def F.PWR_AO_STATUS_status : Fld := ⟨7, 0⟩
/-- PWR_STAT (spec/19_power_and_wake.md). -/
def R.PWR_STAT : Nat := 0x00002010
def F.PWR_STAT_wakes : Fld := ⟨31, 16⟩
def F.PWR_STAT_retries : Fld := ⟨15, 8⟩
def F.PWR_STAT_drain_timeouts : Fld := ⟨7, 0⟩
/-- RTC_CTRL (spec/20_rtc.md). -/
def R.RTC_CTRL : Nat := 0x00018000
def F.RTC_CTRL_nt_set : Fld := ⟨0, 0⟩
/-- RTC_STATUS (spec/20_rtc.md). -/
def R.RTC_STATUS : Nat := 0x00018004
def F.RTC_STATUS_wrapped : Fld := ⟨2, 2⟩
def F.RTC_STATUS_set_err : Fld := ⟨1, 1⟩
def F.RTC_STATUS_snap : Fld := ⟨0, 0⟩
/-- RTC_SEC (spec/20_rtc.md). -/
def R.RTC_SEC : Nat := 0x00018010
def F.RTC_SEC_ticks : Fld := ⟨31, 16⟩
def F.RTC_SEC_second : Fld := ⟨5, 0⟩
/-- RTC_MIN (spec/20_rtc.md). -/
def R.RTC_MIN : Nat := 0x00018014
def F.RTC_MIN_minute : Fld := ⟨5, 0⟩
/-- RTC_HOUR (spec/20_rtc.md). -/
def R.RTC_HOUR : Nat := 0x00018018
def F.RTC_HOUR_hour : Fld := ⟨4, 0⟩
/-- RTC_DAY (spec/20_rtc.md). -/
def R.RTC_DAY : Nat := 0x0001801C
def F.RTC_DAY_day : Fld := ⟨4, 0⟩
/-- RTC_MONTH (spec/20_rtc.md). -/
def R.RTC_MONTH : Nat := 0x00018020
def F.RTC_MONTH_month : Fld := ⟨3, 0⟩
/-- RTC_WDAY (spec/20_rtc.md). -/
def R.RTC_WDAY : Nat := 0x00018024
def F.RTC_WDAY_weekday : Fld := ⟨2, 0⟩
/-- RTC_YEAR (spec/20_rtc.md). -/
def R.RTC_YEAR : Nat := 0x00018028
def F.RTC_YEAR_year : Fld := ⟨7, 0⟩
/-- RTC_LEAP (spec/20_rtc.md). -/
def R.RTC_LEAP : Nat := 0x00018030
def F.RTC_LEAP_armed : Fld := ⟨31, 31⟩
def F.RTC_LEAP_delete : Fld := ⟨30, 30⟩
def F.RTC_LEAP_year : Fld := ⟨23, 16⟩
def F.RTC_LEAP_month : Fld := ⟨11, 8⟩
def F.RTC_LEAP_day : Fld := ⟨4, 0⟩
/-- RTC_TAI (spec/20_rtc.md). -/
def R.RTC_TAI : Nat := 0x00018034
def F.RTC_TAI_tai_utc : Fld := ⟨7, 0⟩
/-- RTC_TRIM (spec/20_rtc.md). -/
def R.RTC_TRIM : Nat := 0x00018040
def F.RTC_TRIM_trim : Fld := ⟨15, 0⟩
/-- RTC_TRIM_CTRL (spec/20_rtc.md). -/
def R.RTC_TRIM_CTRL : Nat := 0x00018044
def F.RTC_TRIM_CTRL_window : Fld := ⟨31, 16⟩
def F.RTC_TRIM_CTRL_auto : Fld := ⟨1, 1⟩
def F.RTC_TRIM_CTRL_meas_en : Fld := ⟨0, 0⟩
/-- RTC_TRIM_MEAS (spec/20_rtc.md). -/
def R.RTC_TRIM_MEAS : Nat := 0x00018048
def F.RTC_TRIM_MEAS_valid : Fld := ⟨31, 31⟩
def F.RTC_TRIM_MEAS_meas : Fld := ⟨15, 0⟩
/-- RTC_ALM_TIME (spec/20_rtc.md), a < 2. -/
def R.RTC_ALM_TIME (a : Nat) : Nat := 0x00018050 + 0x10 * a
def F.RTC_ALM_TIME_weekday : Fld := ⟨26, 24⟩
def F.RTC_ALM_TIME_hour : Fld := ⟨20, 16⟩
def F.RTC_ALM_TIME_minute : Fld := ⟨13, 8⟩
def F.RTC_ALM_TIME_second : Fld := ⟨5, 0⟩
/-- RTC_ALM_DATE (spec/20_rtc.md), a < 2. -/
def R.RTC_ALM_DATE (a : Nat) : Nat := 0x00018054 + 0x10 * a
def F.RTC_ALM_DATE_year : Fld := ⟨23, 16⟩
def F.RTC_ALM_DATE_month : Fld := ⟨11, 8⟩
def F.RTC_ALM_DATE_day : Fld := ⟨4, 0⟩
/-- RTC_ALM_CTRL (spec/20_rtc.md), a < 2. -/
def R.RTC_ALM_CTRL (a : Nat) : Nat := 0x00018058 + 0x10 * a
def F.RTC_ALM_CTRL_en : Fld := ⟨15, 15⟩
def F.RTC_ALM_CTRL_mask : Fld := ⟨14, 8⟩
def F.RTC_ALM_CTRL_pin_en : Fld := ⟨2, 2⟩
def F.RTC_ALM_CTRL_skipped : Fld := ⟨1, 1⟩
def F.RTC_ALM_CTRL_fired : Fld := ⟨0, 0⟩
/-- EVT_RST_CAUSE (spec/21_reliability_and_ordering.md). -/
def R.EVT_RST_CAUSE : Nat := 0x00001800
def F.EVT_RST_CAUSE_resets : Fld := ⟨31, 16⟩
def F.EVT_RST_CAUSE_cause : Fld := ⟨3, 0⟩
/-- EVT_RECOVERY (spec/21_reliability_and_ordering.md). -/
def R.EVT_RECOVERY : Nat := 0x00001804
def F.EVT_RECOVERY_last_kind : Fld := ⟨31, 28⟩
def F.EVT_RECOVERY_actions : Fld := ⟨27, 16⟩
def F.EVT_RECOVERY_corrected : Fld := ⟨15, 0⟩
/-- EVT_FATAL (spec/21_reliability_and_ordering.md). -/
def R.EVT_FATAL : Nat := 0x00001808
def F.EVT_FATAL_kind : Fld := ⟨27, 24⟩
def F.EVT_FATAL_unit : Fld := ⟨23, 16⟩
def F.EVT_FATAL_count : Fld := ⟨15, 0⟩
/-- GPIO_DIR (spec/23_electrical_and_package.md). -/
def R.GPIO_DIR : Nat := 0x00002400
def F.GPIO_DIR_out_en : Fld := ⟨23, 0⟩
/-- GPIO_OUT (spec/23_electrical_and_package.md). -/
def R.GPIO_OUT : Nat := 0x00002404
def F.GPIO_OUT_level : Fld := ⟨23, 0⟩
/-- GPIO_IN (spec/23_electrical_and_package.md). -/
def R.GPIO_IN : Nat := 0x00002408
def F.GPIO_IN_level : Fld := ⟨23, 0⟩
/-- GPIO_PULL (spec/23_electrical_and_package.md). -/
def R.GPIO_PULL : Nat := 0x0000240C
def F.GPIO_PULL_pd_en : Fld := ⟨23, 0⟩
/-- GPIO_FILT (spec/23_electrical_and_package.md), w < 6. -/
def R.GPIO_FILT (w : Nat) : Nat := 0x00002410 + 0x4 * w
def F.GPIO_FILT_filt0 : Fld := ⟨7, 0⟩
def F.GPIO_FILT_filt1 : Fld := ⟨15, 8⟩
def F.GPIO_FILT_filt2 : Fld := ⟨23, 16⟩
def F.GPIO_FILT_filt3 : Fld := ⟨31, 24⟩
/-- RAD_CTRL (spec/04_radios.md), r < 3. -/
def R.RAD_CTRL (r : Nat) : Nat := 0x02000000 + 0x100000 * r
def F.RAD_CTRL_vco_cal_due : Fld := ⟨7, 7⟩
def F.RAD_CTRL_vco_cal_req : Fld := ⟨6, 6⟩
def F.RAD_CTRL_tx_return : Fld := ⟨5, 4⟩
/-- RAD_STATE (spec/04_radios.md), r < 3. -/
def R.RAD_STATE (r : Nat) : Nat := 0x02000004 + 0x100000 * r
def F.RAD_STATE_locked : Fld := ⟨8, 8⟩
def F.RAD_STATE_target : Fld := ⟨7, 4⟩
def F.RAD_STATE_state : Fld := ⟨3, 0⟩
/-- RAD_FC (spec/04_radios.md), r < 3. -/
def R.RAD_FC (r : Nat) : Nat := 0x02000008 + 0x100000 * r
def F.RAD_FC_fc : Fld := ⟨31, 0⟩
/-- RAD_SYN (spec/04_radios.md), r < 3. -/
def R.RAD_SYN (r : Nat) : Nat := 0x0200000C + 0x100000 * r
def F.RAD_SYN_div_log2 : Fld := ⟨10, 8⟩
def F.RAD_SYN_n_int : Fld := ⟨6, 0⟩
/-- RAD_SYN_FRAC (spec/04_radios.md), r < 3. -/
def R.RAD_SYN_FRAC (r : Nat) : Nat := 0x02000010 + 0x100000 * r
def F.RAD_SYN_FRAC_n_frac : Fld := ⟨23, 0⟩
/-- RAD_TRIM (spec/04_radios.md), r < 3. -/
def R.RAD_TRIM (r : Nat) : Nat := 0x02000014 + 0x100000 * r
def F.RAD_TRIM_trim : Fld := ⟨31, 0⟩
/-- RAD_TX_POWER (spec/04_radios.md), r < 3. -/
def R.RAD_TX_POWER (r : Nat) : Nat := 0x02000018 + 0x100000 * r
def F.RAD_TX_POWER_pa_backoff : Fld := ⟨31, 24⟩
def F.RAD_TX_POWER_share : Fld := ⟨22, 16⟩
def F.RAD_TX_POWER_total : Fld := ⟨7, 0⟩
/-- RAD_TX_GUARD (spec/04_radios.md), r < 3. -/
def R.RAD_TX_GUARD (r : Nat) : Nat := 0x0200001C + 0x100000 * r
def F.RAD_TX_GUARD_tx_guard : Fld := ⟨6, 0⟩
/-- RAD_ANT (spec/04_radios.md), r < 3. -/
def R.RAD_ANT (r : Nat) : Nat := 0x02000020 + 0x100000 * r
def F.RAD_ANT_rx_fault : Fld := ⟨31, 24⟩
def F.RAD_ANT_tx_rl : Fld := ⟨23, 16⟩
def F.RAD_ANT_tx_port : Fld := ⟨9, 8⟩
def F.RAD_ANT_p1_rx_fault : Fld := ⟨7, 7⟩
def F.RAD_ANT_p1_tx_fault : Fld := ⟨6, 6⟩
def F.RAD_ANT_p0_rx_fault : Fld := ⟨5, 5⟩
def F.RAD_ANT_p0_tx_fault : Fld := ⟨4, 4⟩
def F.RAD_ANT_tx_prefer_p1 : Fld := ⟨0, 0⟩
/-- RAD_XAMP_CTRL (spec/04_radios.md), r < 3. -/
def R.RAD_XAMP_CTRL (r : Nat) : Nat := 0x02000024 + 0x100000 * r
def F.RAD_XAMP_CTRL_flt_hold : Fld := ⟨31, 16⟩
def F.RAD_XAMP_CTRL_flt_filter : Fld := ⟨15, 8⟩
def F.RAD_XAMP_CTRL_flt_latch : Fld := ⟨7, 7⟩
def F.RAD_XAMP_CTRL_flt_seen : Fld := ⟨6, 6⟩
def F.RAD_XAMP_CTRL_pol_flt : Fld := ⟨5, 5⟩
def F.RAD_XAMP_CTRL_pol_en : Fld := ⟨4, 4⟩
def F.RAD_XAMP_CTRL_pol_trsw : Fld := ⟨3, 3⟩
def F.RAD_XAMP_CTRL_pol_bias : Fld := ⟨2, 2⟩
def F.RAD_XAMP_CTRL_enable : Fld := ⟨0, 0⟩
/-- RAD_XAMP_TIME (spec/04_radios.md), r < 3. -/
def R.RAD_XAMP_TIME (r : Nat) : Nat := 0x02000028 + 0x100000 * r
def F.RAD_XAMP_TIME_t_bs : Fld := ⟨31, 24⟩
def F.RAD_XAMP_TIME_t_se : Fld := ⟨23, 16⟩
def F.RAD_XAMP_TIME_t_lead : Fld := ⟨15, 8⟩
def F.RAD_XAMP_TIME_t_lag : Fld := ⟨7, 0⟩
/-- RAD_DUTY_CTRL (spec/04_radios.md), r < 3. -/
def R.RAD_DUTY_CTRL (r : Nat) : Nat := 0x0200002C + 0x100000 * r
def F.RAD_DUTY_CTRL_entry : Fld := ⟨12, 8⟩
def F.RAD_DUTY_CTRL_warn : Fld := ⟨7, 0⟩
/-- RAD_DUTY_METER (spec/04_radios.md), r < 3. -/
def R.RAD_DUTY_METER (r : Nat) : Nat := 0x02000030 + 0x100000 * r
def F.RAD_DUTY_METER_used_ms : Fld := ⟨21, 0⟩
/-- RAD_TX_STATS (spec/04_radios.md), r < 3. -/
def R.RAD_TX_STATS (r : Nat) : Nat := 0x02000034 + 0x100000 * r
def F.RAD_TX_STATS_deferred : Fld := ⟨31, 16⟩
def F.RAD_TX_STATS_sent : Fld := ⟨15, 0⟩
/-- RAD_TX_CANCEL (spec/04_radios.md), r < 3. -/
def R.RAD_TX_CANCEL (r : Nat) : Nat := 0x02000038 + 0x100000 * r
def F.RAD_TX_CANCEL_last_cause : Fld := ⟨31, 28⟩
def F.RAD_TX_CANCEL_count : Fld := ⟨15, 0⟩
/-- RAD_REG_REFUSE (spec/04_radios.md), r < 3. -/
def R.RAD_REG_REFUSE (r : Nat) : Nat := 0x0200003C + 0x100000 * r
def F.RAD_REG_REFUSE_last_cause : Fld := ⟨31, 28⟩
def F.RAD_REG_REFUSE_last_entry : Fld := ⟨20, 16⟩
def F.RAD_REG_REFUSE_count : Fld := ⟨15, 0⟩
/-- RAD_RP_PROG (spec/04_radios.md), r < 3. -/
def R.RAD_RP_PROG (r : Nat) : Nat := 0x02000040 + 0x100000 * r
def F.RAD_RP_PROG_result : Fld := ⟨31, 30⟩
def F.RAD_RP_PROG_go : Fld := ⟨16, 16⟩
def F.RAD_RP_PROG_entry : Fld := ⟨12, 8⟩
def F.RAD_RP_PROG_word : Fld := ⟨1, 0⟩
/-- RAD_RP_BITS (spec/04_radios.md), r < 3. -/
def R.RAD_RP_BITS (r : Nat) : Nat := 0x02000044 + 0x100000 * r
def F.RAD_RP_BITS_bits : Fld := ⟨31, 0⟩
/-- RAD_RP_E (spec/04_radios.md), r < 3, e < 32, w < 3. -/
def R.RAD_RP_E (r e w : Nat) : Nat := 0x02010000 + 0x100000 * r + 0x10 * e + 0x4 * w
def F.RAD_RP_E_word : Fld := ⟨31, 0⟩
/-- RAD_RP_HDR (spec/04_radios.md), r < 3. -/
def R.RAD_RP_HDR (r : Nat) : Nat := 0x02010200 + 0x100000 * r
def F.RAD_RP_HDR_word : Fld := ⟨31, 0⟩
/-- KAL_CTRL (spec/05_kaleidoscope.md), r < 3. -/
def R.KAL_CTRL (r : Nat) : Nat := 0x02040000 + 0x100000 * r
def F.KAL_CTRL_coef_active : Fld := ⟨17, 17⟩
def F.KAL_CTRL_coef_stage : Fld := ⟨16, 16⟩
def F.KAL_CTRL_out_shift : Fld := ⟨15, 12⟩
def F.KAL_CTRL_div_avg : Fld := ⟨11, 8⟩
def F.KAL_CTRL_dc_shift : Fld := ⟨7, 3⟩
def F.KAL_CTRL_div_mode : Fld := ⟨1, 0⟩
/-- KAL_LEVEL (spec/05_kaleidoscope.md), r < 3. -/
def R.KAL_LEVEL (r : Nat) : Nat := 0x02040004 + 0x100000 * r
def F.KAL_LEVEL_ref_dbm : Fld := ⟨15, 0⟩
/-- KAL_OVL (spec/05_kaleidoscope.md), r < 3. -/
def R.KAL_OVL (r : Nat) : Nat := 0x02040008 + 0x100000 * r
def F.KAL_OVL_last_cause : Fld := ⟨31, 28⟩
def F.KAL_OVL_ovl_thr : Fld := ⟨15, 8⟩
def F.KAL_OVL_ovl_ms : Fld := ⟨7, 0⟩
/-- KAL_RING_BASE (spec/05_kaleidoscope.md), r < 3. -/
def R.KAL_RING_BASE (r : Nat) : Nat := 0x0204000C + 0x100000 * r
def F.KAL_RING_BASE_base : Fld := ⟨31, 12⟩
def F.KAL_RING_BASE_ring_en : Fld := ⟨0, 0⟩
/-- KAL_CAP_BASE (spec/05_kaleidoscope.md), r < 3. -/
def R.KAL_CAP_BASE (r : Nat) : Nat := 0x02040010 + 0x100000 * r
def F.KAL_CAP_BASE_base : Fld := ⟨31, 12⟩
/-- KAL_CAP_CTRL (spec/05_kaleidoscope.md), r < 3. -/
def R.KAL_CAP_CTRL (r : Nat) : Nat := 0x02040014 + 0x100000 * r
def F.KAL_CAP_CTRL_in_use : Fld := ⟨24, 16⟩
def F.KAL_CAP_CTRL_count : Fld := ⟨8, 0⟩
/-- KAL_DET_CTRL (spec/05_kaleidoscope.md), r < 3. -/
def R.KAL_DET_CTRL (r : Nat) : Nat := 0x02040018 + 0x100000 * r
def F.KAL_DET_CTRL_cap_len : Fld := ⟨31, 16⟩
def F.KAL_DET_CTRL_cnt_rate : Fld := ⟨10, 8⟩
def F.KAL_DET_CTRL_thr : Fld := ⟨7, 0⟩
/-- KAL_DET_STAT (spec/05_kaleidoscope.md), r < 3. -/
def R.KAL_DET_STAT (r : Nat) : Nat := 0x0204001C + 0x100000 * r
def F.KAL_DET_STAT_dropped : Fld := ⟨31, 16⟩
def F.KAL_DET_STAT_detections : Fld := ⟨15, 0⟩
/-- KAL_OCC_STAT (spec/05_kaleidoscope.md), r < 3. -/
def R.KAL_OCC_STAT (r : Nat) : Nat := 0x02040020 + 0x100000 * r
def F.KAL_OCC_STAT_latest : Fld := ⟨1, 0⟩
/-- KAL_MASK_CTRL (spec/05_kaleidoscope.md), r < 3. -/
def R.KAL_MASK_CTRL (r : Nat) : Nat := 0x02040024 + 0x100000 * r
def F.KAL_MASK_CTRL_floor : Fld := ⟨12, 8⟩
def F.KAL_MASK_CTRL_mask_en : Fld := ⟨0, 0⟩
/-- KAL_MASK_STAT (spec/05_kaleidoscope.md), r < 3. -/
def R.KAL_MASK_STAT (r : Nat) : Nat := 0x02040028 + 0x100000 * r
def F.KAL_MASK_STAT_atten : Fld := ⟨23, 16⟩
def F.KAL_MASK_STAT_aborts : Fld := ⟨15, 8⟩
def F.KAL_MASK_STAT_reductions : Fld := ⟨7, 0⟩
/-- KAL_TX_STATUS (spec/05_kaleidoscope.md), r < 3. -/
def R.KAL_TX_STATUS (r : Nat) : Nat := 0x0204002C + 0x100000 * r
def F.KAL_TX_STATUS_bad_desc : Fld := ⟨31, 16⟩
def F.KAL_TX_STATUS_in_service : Fld := ⟨6, 0⟩
/-- KAL_DET_MAP (spec/05_kaleidoscope.md), r < 3, w < 96. -/
def R.KAL_DET_MAP (r w : Nat) : Nat := 0x02041000 + 0x100000 * r + 0x4 * w
def F.KAL_DET_MAP_word : Fld := ⟨31, 0⟩
/-- KAL_BOND (spec/05_kaleidoscope.md), r < 3, w < 48. -/
def R.KAL_BOND (r w : Nat) : Nat := 0x02042000 + 0x100000 * r + 0x4 * w
def F.KAL_BOND_word : Fld := ⟨31, 0⟩
/-- DEM_ACQ_0 (spec/06_demodulation.md), d < 2. -/
def R.DEM_ACQ_0 (d : Nat) : Nat := 0x102000000 + 0x400000 * d
def F.DEM_ACQ_0_sync_err : Fld := ⟨31, 24⟩
def F.DEM_ACQ_0_lqf_min : Fld := ⟨23, 16⟩
def F.DEM_ACQ_0_est_shift : Fld := ⟨15, 8⟩
def F.DEM_ACQ_0_exit_n : Fld := ⟨7, 0⟩
/-- DEM_TOL_0 (spec/06_demodulation.md), d < 2. -/
def R.DEM_TOL_0 (d : Nat) : Nat := 0x102000004 + 0x400000 * d
def F.DEM_TOL_0_enter_tol : Fld := ⟨31, 16⟩
def F.DEM_TOL_0_exit_tol : Fld := ⟨15, 0⟩
/-- DEM_WARN_0 (spec/06_demodulation.md), d < 2. -/
def R.DEM_WARN_0 (d : Nat) : Nat := 0x102000008 + 0x400000 * d
def F.DEM_WARN_0_miss_n : Fld := ⟨31, 24⟩
def F.DEM_WARN_0_lqf_warn : Fld := ⟨23, 16⟩
def F.DEM_WARN_0_fev_warn : Fld := ⟨15, 0⟩
/-- DEM_ACQ_1 (spec/06_demodulation.md), d < 2. -/
def R.DEM_ACQ_1 (d : Nat) : Nat := 0x102000020 + 0x400000 * d
def F.DEM_ACQ_1_sync_err : Fld := ⟨31, 24⟩
def F.DEM_ACQ_1_lqf_min : Fld := ⟨23, 16⟩
def F.DEM_ACQ_1_est_shift : Fld := ⟨15, 8⟩
def F.DEM_ACQ_1_exit_n : Fld := ⟨7, 0⟩
/-- DEM_TOL_1 (spec/06_demodulation.md), d < 2. -/
def R.DEM_TOL_1 (d : Nat) : Nat := 0x102000024 + 0x400000 * d
def F.DEM_TOL_1_enter_tol : Fld := ⟨31, 16⟩
def F.DEM_TOL_1_exit_tol : Fld := ⟨15, 0⟩
/-- DEM_WARN_1 (spec/06_demodulation.md), d < 2. -/
def R.DEM_WARN_1 (d : Nat) : Nat := 0x102000028 + 0x400000 * d
def F.DEM_WARN_1_miss_n : Fld := ⟨31, 24⟩
def F.DEM_WARN_1_lqf_warn : Fld := ⟨23, 16⟩
def F.DEM_WARN_1_fev_warn : Fld := ⟨15, 0⟩
/-- DEM_ACTIVE (spec/06_demodulation.md), d < 2. -/
def R.DEM_ACTIVE (d : Nat) : Nat := 0x102000040 + 0x400000 * d
def F.DEM_ACTIVE_set : Fld := ⟨0, 0⟩
/-- CORE_DONE (spec/10_marionette_model.md), core < 64. -/
def R.CORE_DONE (core : Nat) : Nat := 0x104000000 + 0x1000 * core
def F.CORE_DONE_code : Fld := ⟨31, 28⟩
def F.CORE_DONE_handle : Fld := ⟨9, 0⟩
/-- CORE_ID (spec/10_marionette_model.md), core < 64. -/
def R.CORE_ID (core : Nat) : Nat := 0x104000004 + 0x1000 * core
def F.CORE_ID_core : Fld := ⟨5, 0⟩
/-- CORE_SEG (spec/10_marionette_model.md), core < 64. -/
def R.CORE_SEG (core : Nat) : Nat := 0x104000008 + 0x1000 * core
def F.CORE_SEG_seg : Fld := ⟨2, 0⟩
/-- CORE_CYCLES (spec/10_marionette_model.md), core < 64. -/
def R.CORE_CYCLES (core : Nat) : Nat := 0x10400000C + 0x1000 * core
def F.CORE_CYCLES_cycles : Fld := ⟨31, 0⟩
/-- CORE_IRQ_PEND (spec/10_marionette_model.md), core < 64. -/
def R.CORE_IRQ_PEND (core : Nat) : Nat := 0x104000010 + 0x1000 * core
def F.CORE_IRQ_PEND_pend : Fld := ⟨7, 0⟩
/-- CORE_IRQ_EN (spec/10_marionette_model.md), core < 64. -/
def R.CORE_IRQ_EN (core : Nat) : Nat := 0x104000014 + 0x1000 * core
def F.CORE_IRQ_EN_en : Fld := ⟨7, 0⟩
/-- CORE_IRQ_SET (spec/10_marionette_model.md), core < 64. -/
def R.CORE_IRQ_SET (core : Nat) : Nat := 0x104000018 + 0x1000 * core
def F.CORE_IRQ_SET_sw : Fld := ⟨7, 7⟩
/-- CORE_TIMER (spec/10_marionette_model.md), core < 64. -/
def R.CORE_TIMER (core : Nat) : Nat := 0x10400001C + 0x1000 * core
def F.CORE_TIMER_count : Fld := ⟨31, 0⟩
/-- CORE_IRQ_VEC (spec/10_marionette_model.md), core < 64, s < 8. -/
def R.CORE_IRQ_VEC (core s : Nat) : Nat := 0x104000020 + 0x1000 * core + 0x4 * s
def F.CORE_IRQ_VEC_vec : Fld := ⟨12, 0⟩
/-- CORE_TRU_EXT (spec/10_marionette_model.md), core < 64. -/
def R.CORE_TRU_EXT (core : Nat) : Nat := 0x104000040 + 0x1000 * core
def F.CORE_TRU_EXT_ext : Fld := ⟨31, 0⟩
/-- CORE_TRU_LOC (spec/10_marionette_model.md), core < 64. -/
def R.CORE_TRU_LOC (core : Nat) : Nat := 0x104000044 + 0x1000 * core
def F.CORE_TRU_LOC_loc : Fld := ⟨19, 0⟩
/-- CORE_TRU_CTRL (spec/10_marionette_model.md), core < 64. -/
def R.CORE_TRU_CTRL (core : Nat) : Nat := 0x104000048 + 0x1000 * core
def F.CORE_TRU_CTRL_dir : Fld := ⟨31, 31⟩
def F.CORE_TRU_CTRL_space : Fld := ⟨30, 29⟩
def F.CORE_TRU_CTRL_length : Fld := ⟨16, 0⟩
/-- CORE_TRU_STATUS (spec/10_marionette_model.md), core < 64. -/
def R.CORE_TRU_STATUS (core : Nat) : Nat := 0x10400004C + 0x1000 * core
def F.CORE_TRU_STATUS_queued : Fld := ⟨31, 28⟩
def F.CORE_TRU_STATUS_last_err : Fld := ⟨11, 8⟩
def F.CORE_TRU_STATUS_done : Fld := ⟨7, 0⟩
/-- CORE_DOORBELL (spec/10_marionette_model.md), core < 64. -/
def R.CORE_DOORBELL (core : Nat) : Nat := 0x104000050 + 0x1000 * core
def F.CORE_DOORBELL_target : Fld := ⟨4, 0⟩
/-- MAR_CTRL (spec/10_marionette_model.md), d < 2, n < 32. -/
def R.MAR_CTRL (d n : Nat) : Nat := 0x01400000 + 0x800000 * d + 0x10 * n
def F.MAR_CTRL_dpage : Fld := ⟨0, 0⟩
/-- MAR_STATUS (spec/10_marionette_model.md), d < 2, n < 32. -/
def R.MAR_STATUS (d n : Nat) : Nat := 0x01400004 + 0x800000 * d + 0x10 * n
def F.MAR_STATUS_run : Fld := ⟨31, 30⟩
def F.MAR_STATUS_pc : Fld := ⟨12, 0⟩
/-- MAR_TRAP (spec/10_marionette_model.md), d < 2, n < 32. -/
def R.MAR_TRAP (d n : Nat) : Nat := 0x01400008 + 0x800000 * d + 0x10 * n
def F.MAR_TRAP_cause : Fld := ⟨31, 28⟩
def F.MAR_TRAP_pc : Fld := ⟨12, 0⟩
/-- MAR_ECC (spec/10_marionette_model.md), d < 2, n < 32. -/
def R.MAR_ECC (d n : Nat) : Nat := 0x0140000C + 0x800000 * d + 0x10 * n
def F.MAR_ECC_uncorrected : Fld := ⟨31, 16⟩
def F.MAR_ECC_corrected : Fld := ⟨15, 0⟩
/-- MAR_SHARED (spec/10_marionette_model.md), d < 2. -/
def R.MAR_SHARED (d : Nat) : Nat := 0x01400400 + 0x800000 * d
def F.MAR_SHARED_spage : Fld := ⟨0, 0⟩
/-- MAC_CTRL (spec/14_ethernet_macs.md), n < 8. -/
def R.MAC_CTRL (n : Nat) : Nat := 0x00020000 + 0x1000 * n
def F.MAC_CTRL_max_len : Fld := ⟨31, 18⟩
def F.MAC_CTRL_fec : Fld := ⟨11, 10⟩
def F.MAC_CTRL_mode : Fld := ⟨9, 8⟩
def F.MAC_CTRL_an_en : Fld := ⟨4, 4⟩
def F.MAC_CTRL_tx_pause_en : Fld := ⟨3, 3⟩
def F.MAC_CTRL_rx_pause_en : Fld := ⟨2, 2⟩
def F.MAC_CTRL_enable : Fld := ⟨0, 0⟩
/-- MAC_STATUS (spec/14_ethernet_macs.md), n < 8. -/
def R.MAC_STATUS (n : Nat) : Nat := 0x00020004 + 0x1000 * n
def F.MAC_STATUS_pe_active : Fld := ⟨8, 8⟩
def F.MAC_STATUS_pe_verify_failed : Fld := ⟨7, 7⟩
def F.MAC_STATUS_pause_rx : Fld := ⟨6, 6⟩
def F.MAC_STATUS_pause_tx : Fld := ⟨5, 5⟩
def F.MAC_STATUS_fec_lock : Fld := ⟨2, 2⟩
def F.MAC_STATUS_pcs_lock : Fld := ⟨1, 1⟩
def F.MAC_STATUS_link : Fld := ⟨0, 0⟩
/-- MAC_ADDR_LO (spec/14_ethernet_macs.md), n < 8. -/
def R.MAC_ADDR_LO (n : Nat) : Nat := 0x00020008 + 0x1000 * n
def F.MAC_ADDR_LO_addr_lo : Fld := ⟨31, 0⟩
/-- MAC_ADDR_HI (spec/14_ethernet_macs.md), n < 8. -/
def R.MAC_ADDR_HI (n : Nat) : Nat := 0x0002000C + 0x1000 * n
def F.MAC_ADDR_HI_addr_hi : Fld := ⟨15, 0⟩
/-- MAC_LINK (spec/14_ethernet_macs.md), n < 8. -/
def R.MAC_LINK (n : Nat) : Nat := 0x00020010 + 0x1000 * n
def F.MAC_LINK_up_hold : Fld := ⟨31, 16⟩
def F.MAC_LINK_down_hold : Fld := ⟨15, 0⟩
/-- MAC_PAUSE (spec/14_ethernet_macs.md), n < 8. -/
def R.MAC_PAUSE (n : Nat) : Nat := 0x00020014 + 0x1000 * n
def F.MAC_PAUSE_quanta : Fld := ⟨31, 16⟩
def F.MAC_PAUSE_refresh : Fld := ⟨15, 0⟩
/-- MAC_WM (spec/14_ethernet_macs.md), n < 8. -/
def R.MAC_WM (n : Nat) : Nat := 0x00020018 + 0x1000 * n
def F.MAC_WM_hi_wm : Fld := ⟨31, 16⟩
def F.MAC_WM_lo_wm : Fld := ⟨15, 0⟩
/-- MAC_RXBUF (spec/14_ethernet_macs.md), n < 8. -/
def R.MAC_RXBUF (n : Nat) : Nat := 0x0002001C + 0x1000 * n
def F.MAC_RXBUF_size : Fld := ⟨31, 16⟩
def F.MAC_RXBUF_used : Fld := ⟨15, 0⟩
/-- MAC_PE_CTRL (spec/14_ethernet_macs.md), n < 8. -/
def R.MAC_PE_CTRL (n : Nat) : Nat := 0x00020020 + 0x1000 * n
def F.MAC_PE_CTRL_express : Fld := ⟨23, 16⟩
def F.MAC_PE_CTRL_verify_time : Fld := ⟨15, 8⟩
def F.MAC_PE_CTRL_add_frag : Fld := ⟨3, 2⟩
def F.MAC_PE_CTRL_verify_dis : Fld := ⟨1, 1⟩
def F.MAC_PE_CTRL_pe_en : Fld := ⟨0, 0⟩
/-- MAC_PTP_LAT (spec/14_ethernet_macs.md), n < 8. -/
def R.MAC_PTP_LAT (n : Nat) : Nat := 0x00020024 + 0x1000 * n
def F.MAC_PTP_LAT_tx_lat : Fld := ⟨31, 16⟩
def F.MAC_PTP_LAT_rx_lat : Fld := ⟨15, 0⟩
/-- MAC_PTP_TX_SEC_HI (spec/14_ethernet_macs.md), n < 8. -/
def R.MAC_PTP_TX_SEC_HI (n : Nat) : Nat := 0x00020028 + 0x1000 * n
def F.MAC_PTP_TX_SEC_HI_sec_hi : Fld := ⟨15, 0⟩
/-- MAC_PTP_TX_SEC_LO (spec/14_ethernet_macs.md), n < 8. -/
def R.MAC_PTP_TX_SEC_LO (n : Nat) : Nat := 0x0002002C + 0x1000 * n
def F.MAC_PTP_TX_SEC_LO_sec_lo : Fld := ⟨31, 0⟩
/-- MAC_PTP_TX_NS (spec/14_ethernet_macs.md), n < 8. -/
def R.MAC_PTP_TX_NS (n : Nat) : Nat := 0x00020030 + 0x1000 * n
def F.MAC_PTP_TX_NS_ns : Fld := ⟨29, 0⟩
/-- MAC_PTP_TX_ID (spec/14_ethernet_macs.md), n < 8. -/
def R.MAC_PTP_TX_ID (n : Nat) : Nat := 0x00020034 + 0x1000 * n
def F.MAC_PTP_TX_ID_valid : Fld := ⟨31, 31⟩
def F.MAC_PTP_TX_ID_msg_type : Fld := ⟨19, 16⟩
def F.MAC_PTP_TX_ID_seq_id : Fld := ⟨15, 0⟩
/-- MAC_CNT_HALF_LO (spec/14_ethernet_macs.md), n < 8. -/
def R.MAC_CNT_HALF_LO (n : Nat) : Nat := 0x00020100 + 0x1000 * n
def F.MAC_CNT_HALF_LO_half : Fld := ⟨31, 0⟩
/-- MAC_CNT_HALF_HI (spec/14_ethernet_macs.md), n < 8. -/
def R.MAC_CNT_HALF_HI (n : Nat) : Nat := 0x00020104 + 0x1000 * n
def F.MAC_CNT_HALF_HI_half : Fld := ⟨31, 0⟩
/-- MAC_CNT_CLR (spec/14_ethernet_macs.md), n < 8. -/
def R.MAC_CNT_CLR (n : Nat) : Nat := 0x00020108 + 0x1000 * n
def F.MAC_CNT_CLR_clear : Fld := ⟨0, 0⟩
/-- MAC_CNT_LO (spec/14_ethernet_macs.md), n < 8, c < 64. -/
def R.MAC_CNT_LO (n c : Nat) : Nat := 0x00020400 + 0x1000 * n + 0x8 * c
def F.MAC_CNT_LO_count_lo : Fld := ⟨31, 0⟩
/-- MAC_CNT_HI (spec/14_ethernet_macs.md), n < 8, c < 64. -/
def R.MAC_CNT_HI (n c : Nat) : Nat := 0x00020404 + 0x1000 * n + 0x8 * c
def F.MAC_CNT_HI_count_hi : Fld := ⟨15, 0⟩
/-- STR_OWNER (spec/15_cipher_engine.md). -/
def R.STR_OWNER : Nat := 0x00050800
def F.STR_OWNER_owner : Fld := ⟨6, 0⟩
/-- STR_CTRL (spec/15_cipher_engine.md). -/
def R.STR_CTRL : Nat := 0x00050804
def F.STR_CTRL_mode : Fld := ⟨31, 28⟩
def F.STR_CTRL_dir : Fld := ⟨27, 27⟩
def F.STR_CTRL_tag_len : Fld := ⟨23, 20⟩
def F.STR_CTRL_n_len : Fld := ⟨19, 16⟩
def F.STR_CTRL_slot : Fld := ⟨15, 8⟩
def F.STR_CTRL_abort : Fld := ⟨1, 1⟩
def F.STR_CTRL_start : Fld := ⟨0, 0⟩
/-- STR_STATUS (spec/15_cipher_engine.md). -/
def R.STR_STATUS : Nat := 0x00050808
def F.STR_STATUS_result : Fld := ⟨31, 28⟩
def F.STR_STATUS_busy : Fld := ⟨27, 27⟩
def F.STR_STATUS_dout_avail : Fld := ⟨15, 8⟩
def F.STR_STATUS_din_free : Fld := ⟨7, 0⟩
/-- STR_LEN (spec/15_cipher_engine.md). -/
def R.STR_LEN : Nat := 0x0005080C
def F.STR_LEN_aad_len : Fld := ⟨31, 16⟩
def F.STR_LEN_len : Fld := ⟨15, 0⟩
/-- STR_IV (spec/15_cipher_engine.md), w < 4. -/
def R.STR_IV (w : Nat) : Nat := 0x00050810 + 0x4 * w
def F.STR_IV_iv : Fld := ⟨31, 0⟩
/-- STR_DIN (spec/15_cipher_engine.md). -/
def R.STR_DIN : Nat := 0x00050820
def F.STR_DIN_din : Fld := ⟨31, 0⟩
/-- STR_DOUT (spec/15_cipher_engine.md). -/
def R.STR_DOUT : Nat := 0x00050824
def F.STR_DOUT_dout : Fld := ⟨31, 0⟩
/-- STR_OUTLEN (spec/15_cipher_engine.md). -/
def R.STR_OUTLEN : Nat := 0x00050828
def F.STR_OUTLEN_out_len : Fld := ⟨16, 0⟩
/-- STR_TAG (spec/15_cipher_engine.md), w < 4. -/
def R.STR_TAG (w : Nat) : Nat := 0x00050830 + 0x4 * w
def F.STR_TAG_tag : Fld := ⟨31, 0⟩
/-- CFG_BOOT (spec/18_configuration_and_commands.md). -/
def R.CFG_BOOT : Nat := 0x00003000
def F.CFG_BOOT_cause_a : Fld := ⟨31, 28⟩
def F.CFG_BOOT_cause_b : Fld := ⟨27, 24⟩
def F.CFG_BOOT_fallback : Fld := ⟨8, 8⟩
def F.CFG_BOOT_copy : Fld := ⟨1, 0⟩
/-- CFG_SEQ_A (spec/18_configuration_and_commands.md). -/
def R.CFG_SEQ_A : Nat := 0x00003004
def F.CFG_SEQ_A_seq : Fld := ⟨31, 0⟩
/-- CFG_SEQ_B (spec/18_configuration_and_commands.md). -/
def R.CFG_SEQ_B : Nat := 0x00003008
def F.CFG_SEQ_B_seq : Fld := ⟨31, 0⟩
/-- CFG_FLAGS (spec/18_configuration_and_commands.md). -/
def R.CFG_FLAGS : Nat := 0x0000300C
def F.CFG_FLAGS_free_run : Fld := ⟨0, 0⟩
/-- CFG_STAGE_STAT (spec/18_configuration_and_commands.md). -/
def R.CFG_STAGE_STAT : Nat := 0x00003010
def F.CFG_STAGE_STAT_applied : Fld := ⟨31, 24⟩
def F.CFG_STAGE_STAT_failed : Fld := ⟨23, 16⟩
def F.CFG_STAGE_STAT_armed : Fld := ⟨7, 0⟩
/-- CFG_NVM (spec/18_configuration_and_commands.md). -/
def R.CFG_NVM : Nat := 0x00003014
def F.CFG_NVM_result : Fld := ⟨31, 28⟩
def F.CFG_NVM_phase : Fld := ⟨1, 0⟩
/-- CMD_MGMT (spec/18_configuration_and_commands.md). -/
def R.CMD_MGMT : Nat := 0x00004000
def F.CMD_MGMT_tmpl : Fld := ⟨31, 24⟩
def F.CMD_MGMT_key_slot : Fld := ⟨23, 16⟩
def F.CMD_MGMT_mgmt_en : Fld := ⟨0, 0⟩
/-- CMD_STATUS (spec/18_configuration_and_commands.md). -/
def R.CMD_STATUS : Nat := 0x00004004
def F.CMD_STATUS_strap : Fld := ⟨26, 24⟩
def F.CMD_STATUS_queued : Fld := ⟨21, 16⟩
def F.CMD_STATUS_i2c_waiting : Fld := ⟨13, 8⟩
def F.CMD_STATUS_state : Fld := ⟨1, 0⟩
/-- CMD_STAT (spec/18_configuration_and_commands.md). -/
def R.CMD_STAT : Nat := 0x00004008
def F.CMD_STAT_done : Fld := ⟨31, 16⟩
def F.CMD_STAT_errors : Fld := ⟨15, 0⟩
/-- CMD_AUTH (spec/18_configuration_and_commands.md). -/
def R.CMD_AUTH : Nat := 0x0000400C
def F.CMD_AUTH_tag_fail : Fld := ⟨31, 16⟩
def F.CMD_AUTH_replay : Fld := ⟨15, 0⟩
/-- CMD_REPLAY_LO (spec/18_configuration_and_commands.md). -/
def R.CMD_REPLAY_LO : Nat := 0x00004010
def F.CMD_REPLAY_LO_ctr_lo : Fld := ⟨31, 0⟩
/-- CMD_REPLAY_HI (spec/18_configuration_and_commands.md). -/
def R.CMD_REPLAY_HI : Nat := 0x00004014
def F.CMD_REPLAY_HI_ctr_hi : Fld := ⟨31, 0⟩
/-- CMD_DROP (spec/18_configuration_and_commands.md). -/
def R.CMD_DROP : Nat := 0x00004018
def F.CMD_DROP_q_full : Fld := ⟨15, 0⟩
/-- EVT_STATUS_LO (spec/22_events_and_monitors.md). -/
def R.EVT_STATUS_LO : Nat := 0x00001000
def F.EVT_STATUS_LO_status : Fld := ⟨31, 0⟩
/-- EVT_STATUS_HI (spec/22_events_and_monitors.md). -/
def R.EVT_STATUS_HI : Nat := 0x00001004
def F.EVT_STATUS_HI_status : Fld := ⟨31, 0⟩
/-- EVT_ENABLE_LO (spec/22_events_and_monitors.md). -/
def R.EVT_ENABLE_LO : Nat := 0x00001008
def F.EVT_ENABLE_LO_enable : Fld := ⟨31, 0⟩
/-- EVT_ENABLE_HI (spec/22_events_and_monitors.md). -/
def R.EVT_ENABLE_HI : Nat := 0x0000100C
def F.EVT_ENABLE_HI_enable : Fld := ⟨31, 0⟩
/-- EVT_ROUTE (spec/22_events_and_monitors.md), w < 4. -/
def R.EVT_ROUTE (w : Nat) : Nat := 0x00001010 + 0x4 * w
def F.EVT_ROUTE_routes : Fld := ⟨31, 0⟩
/-- EVT_LOG_STAT (spec/22_events_and_monitors.md). -/
def R.EVT_LOG_STAT : Nat := 0x00001020
def F.EVT_LOG_STAT_in_use : Fld := ⟨26, 16⟩
def F.EVT_LOG_STAT_lost : Fld := ⟨15, 0⟩
/-- EVT_NOTIFY (spec/22_events_and_monitors.md). -/
def R.EVT_NOTIFY : Nat := 0x00001024
def F.EVT_NOTIFY_tmpl : Fld := ⟨31, 24⟩
def F.EVT_NOTIFY_mgmt_dropped : Fld := ⟨15, 8⟩
def F.EVT_NOTIFY_i2c_dropped : Fld := ⟨7, 0⟩
/-- EVT_LOG_REC (spec/22_events_and_monitors.md), w < 4. -/
def R.EVT_LOG_REC (w : Nat) : Nat := 0x00001030 + 0x4 * w
def F.EVT_LOG_REC_word : Fld := ⟨31, 0⟩
/-- MON_CFG (spec/22_events_and_monitors.md), n < 32. -/
def R.MON_CFG (n : Nat) : Nat := 0x000A0000 + 0x100 * n
def F.MON_CFG_class : Fld := ⟨31, 28⟩
def F.MON_CFG_log2 : Fld := ⟨16, 16⟩
def F.MON_CFG_index : Fld := ⟨12, 0⟩
/-- MON_WIN (spec/22_events_and_monitors.md), n < 32. -/
def R.MON_WIN (n : Nat) : Nat := 0x000A0004 + 0x100 * n
def F.MON_WIN_sf : Fld := ⟨31, 31⟩
def F.MON_WIN_width : Fld := ⟨30, 16⟩
def F.MON_WIN_length : Fld := ⟨15, 0⟩
/-- MON_BASE (spec/22_events_and_monitors.md), n < 32. -/
def R.MON_BASE (n : Nat) : Nat := 0x000A0008 + 0x100 * n
def F.MON_BASE_base : Fld := ⟨31, 0⟩
/-- MON_THR_CFG (spec/22_events_and_monitors.md), n < 32. -/
def R.MON_THR_CFG (n : Nat) : Nat := 0x000A000C + 0x100 * n
def F.MON_THR_CFG_below : Fld := ⟨3, 3⟩
def F.MON_THR_CFG_stat : Fld := ⟨2, 0⟩
/-- MON_THR (spec/22_events_and_monitors.md), n < 32. -/
def R.MON_THR (n : Nat) : Nat := 0x000A0010 + 0x100 * n
def F.MON_THR_value : Fld := ⟨31, 0⟩
/-- MON_STATUS (spec/22_events_and_monitors.md), n < 32. -/
def R.MON_STATUS (n : Nat) : Nat := 0x000A0020 + 0x100 * n
def F.MON_STATUS_stepped : Fld := ⟨16, 16⟩
def F.MON_STATUS_win_seq : Fld := ⟨15, 0⟩
/-- MON_MIN (spec/22_events_and_monitors.md), n < 32. -/
def R.MON_MIN (n : Nat) : Nat := 0x000A0024 + 0x100 * n
def F.MON_MIN_value : Fld := ⟨31, 0⟩
/-- MON_MAX (spec/22_events_and_monitors.md), n < 32. -/
def R.MON_MAX (n : Nat) : Nat := 0x000A0028 + 0x100 * n
def F.MON_MAX_value : Fld := ⟨31, 0⟩
/-- MON_COUNT (spec/22_events_and_monitors.md), n < 32. -/
def R.MON_COUNT (n : Nat) : Nat := 0x000A002C + 0x100 * n
def F.MON_COUNT_count : Fld := ⟨31, 0⟩
/-- MON_SUM_LO (spec/22_events_and_monitors.md), n < 32. -/
def R.MON_SUM_LO (n : Nat) : Nat := 0x000A0030 + 0x100 * n
def F.MON_SUM_LO_sum_lo : Fld := ⟨31, 0⟩
/-- MON_SUM_HI (spec/22_events_and_monitors.md), n < 32. -/
def R.MON_SUM_HI (n : Nat) : Nat := 0x000A0034 + 0x100 * n
def F.MON_SUM_HI_sum_hi : Fld := ⟨15, 0⟩
/-- MON_HIST (spec/22_events_and_monitors.md), n < 32, i < 32. -/
def R.MON_HIST (n i : Nat) : Nat := 0x000A0080 + 0x100 * n + 0x4 * i
def F.MON_HIST_count : Fld := ⟨31, 0⟩
/-- CJ_RESULT (spec/15_cipher_engine.md), core < 64. -/
def R.CJ_RESULT (core : Nat) : Nat := 0x105000044 + 0x1000 * core
def F.CJ_RESULT_result : Fld := ⟨31, 28⟩
def F.CJ_RESULT_valid : Fld := ⟨27, 27⟩
def F.CJ_RESULT_out_len : Fld := ⟨16, 0⟩
/-- CJ_SUBMIT (spec/15_cipher_engine.md), core < 64. -/
def R.CJ_SUBMIT (core : Nat) : Nat := 0x105000040 + 0x1000 * core
def F.CJ_SUBMIT_submit : Fld := ⟨31, 0⟩
/-- CLS_TCAM: a memory, table or range of spec/12_classifier.md; the indices run below 262144. -/
def R.CLS_TCAM (i : Nat) : Nat := 0x00400000 + 0x4 * i
/-- CLS_HASH: a memory, table or range of spec/12_classifier.md; the indices run below 262144. -/
def R.CLS_HASH (i : Nat) : Nat := 0x00600000 + 0x4 * i
/-- CLS_TMPL: a memory, table or range of spec/12_classifier.md; the indices run below 4096. -/
def R.CLS_TMPL (i : Nat) : Nat := 0x00038000 + 0x4 * i
/-- SHP_GATE_LIST: a memory, table or range of spec/13_traffic_manager.md; the indices run below 8192. -/
def R.SHP_GATE_LIST (i : Nat) : Nat := 0x00044000 + 0x4 * i
/-- SHP_POL_RATE: a memory, table or range of spec/13_traffic_manager.md; the indices run below 1024. -/
def R.SHP_POL_RATE (i : Nat) : Nat := 0x0004C000 + 0x10 * i
/-- SHP_POL_CBS: a memory, table or range of spec/13_traffic_manager.md; the indices run below 1024. -/
def R.SHP_POL_CBS (i : Nat) : Nat := 0x0004C004 + 0x10 * i
/-- SHP_POL_TOKENS: a memory, table or range of spec/13_traffic_manager.md; the indices run below 1024. -/
def R.SHP_POL_TOKENS (i : Nat) : Nat := 0x0004C008 + 0x10 * i
/-- SHP_POL_DROPS: a memory, table or range of spec/13_traffic_manager.md; the indices run below 1024. -/
def R.SHP_POL_DROPS (i : Nat) : Nat := 0x0004C00C + 0x10 * i
/-- SCH_CTX_WINDOW: a memory, table or range of spec/08_access_scheduler.md; the indices run below 2097152. -/
def R.SCH_CTX_WINDOW (i : Nat) : Nat := 0x00800000 + 0x4 * i
/-- KAL_SHAPING: a memory, table or range of spec/05_kaleidoscope.md; the indices run below 3, 5, 48. -/
def R.KAL_SHAPING (i j k : Nat) : Nat := 0x02044000 + 0x100000 * i + 0x100 * j + 0x4 * k
/-- KAL_TXDESC: a memory, table or range of spec/05_kaleidoscope.md; the indices run below 3, 8192. -/
def R.KAL_TXDESC (i j : Nat) : Nat := 0x02048000 + 0x100000 * i + 0x4 * j
/-- KAL_OCC_MAP: a memory, table or range of spec/05_kaleidoscope.md; the indices run below 3, 4, 1540. -/
def R.KAL_OCC_MAP (i j k : Nat) : Nat := 0x02050000 + 0x100000 * i + 0x2000 * j + 0x4 * k
/-- KAL_MASK_BP: a memory, table or range of spec/05_kaleidoscope.md; the indices run below 3, 2048. -/
def R.KAL_MASK_BP (i j : Nat) : Nat := 0x02058000 + 0x100000 * i + 0x4 * j
/-- KAL_COEF: a memory, table or range of spec/05_kaleidoscope.md; the indices run below 3, 2, 32768. -/
def R.KAL_COEF (i j k : Nat) : Nat := 0x02060000 + 0x100000 * i + 0x20000 * j + 0x4 * k
/-- BB_IMEM: a memory, table or range of spec/10_marionette_model.md; the indices run below 2, 32, 16384. -/
def R.BB_IMEM (i j k : Nat) : Nat := 0x01000000 + 0x800000 * i + 0x20000 * j + 0x4 * k
/-- BB_DMEM: a memory, table or range of spec/10_marionette_model.md; the indices run below 2, 32, 16384. -/
def R.BB_DMEM (i j k : Nat) : Nat := 0x01010000 + 0x800000 * i + 0x20000 * j + 0x4 * k
/-- BB_SHARED: a memory, table or range of spec/10_marionette_model.md; the indices run below 2, 524288. -/
def R.BB_SHARED (i j : Nat) : Nat := 0x01600000 + 0x800000 * i + 0x4 * j

/-- The rows of spec/01_architecture.md. -/
def rows01 : List RegRow := [
  ⟨"LNK_CTRL", 0x00005000, [], [⟨15, 8, .rw, 16⟩, ⟨7, 0, .rw, 10⟩]⟩,
  ⟨"ID_DEVICE", 0x00000000, [], [⟨31, 20, .ro, 1443⟩, ⟨15, 0, .ro, 0⟩]⟩,
  ⟨"ID_REVISION", 0x00000004, [], [⟨31, 28, .ro, 0⟩, ⟨27, 24, .ro, 0⟩, ⟨23, 20, .ro, 0⟩, ⟨19, 16, .ro, 0⟩, ⟨15, 12, .ro, 0⟩, ⟨11, 8, .ro, 0⟩, ⟨7, 4, .ro, 0⟩, ⟨3, 0, .ro, 0⟩]⟩,
  ⟨"ID_DIES", 0x00000008, [], [⟨7, 0, .ro, 0⟩]⟩,
  ⟨"ID_DIE_STATE", 0x0000000C, [], [⟨15, 14, .ro, 0⟩, ⟨13, 12, .ro, 0⟩, ⟨11, 10, .ro, 0⟩, ⟨9, 8, .ro, 0⟩, ⟨7, 6, .ro, 0⟩, ⟨5, 4, .ro, 0⟩, ⟨3, 2, .ro, 0⟩, ⟨1, 0, .ro, 1⟩]⟩,
  ⟨"ID_SERIAL_LO", 0x00000010, [], [⟨31, 0, .ro, 0⟩]⟩,
  ⟨"ID_SERIAL_HI", 0x00000014, [], [⟨31, 0, .ro, 0⟩]⟩,
  ⟨"LNK_STATUS", 0x00005010, [(7, 0x10)], [⟨11, 8, .ro, 0⟩, ⟨6, 4, .ro, 5⟩, ⟨3, 3, .ro, 0⟩, ⟨2, 2, .ro, 0⟩, ⟨1, 1, .ro, 0⟩, ⟨0, 0, .ro, 0⟩]⟩,
  ⟨"LNK_LANES", 0x00005014, [(7, 0x10)], [⟨17, 9, .ro, 0⟩, ⟨8, 0, .ro, 0⟩]⟩,
  ⟨"LNK_ERRORS", 0x00005018, [(7, 0x10)], [⟨31, 16, .rw, 0⟩, ⟨15, 0, .rw, 0⟩]⟩]

/-- The rows of spec/02_clockwork.md. -/
def rows02 : List RegRow := [
  ⟨"CLK_CTRL", 0x00010000, [], [⟨23, 16, .rw, 37⟩, ⟨15, 8, .rw, 255⟩, ⟨2, 2, .rw, 1⟩, ⟨1, 1, .rw, 1⟩, ⟨0, 0, .rw, 1⟩]⟩,
  ⟨"CLK_STATUS", 0x00010004, [], [⟨15, 12, .ro, 0⟩, ⟨11, 11, .ro, 0⟩, ⟨10, 10, .ro, 0⟩, ⟨9, 9, .ro, 0⟩, ⟨8, 8, .ro, 0⟩, ⟨5, 4, .ro, 0⟩, ⟨1, 0, .ro, 0⟩]⟩,
  ⟨"CLK_NT_SEC_HI", 0x00010008, [], [⟨15, 0, .ro, 0⟩]⟩,
  ⟨"CLK_NT_SEC_LO", 0x0001000C, [], [⟨31, 0, .ro, 0⟩]⟩,
  ⟨"CLK_NT_NS", 0x00010010, [], [⟨29, 0, .ro, 0⟩]⟩,
  ⟨"CLK_SF", 0x00010014, [], [⟨31, 0, .ro, 0⟩]⟩,
  ⟨"CLK_SLOT", 0x00010018, [], [⟨7, 0, .ro, 0⟩]⟩,
  ⟨"CLK_PPS_CTRL", 0x00010020, [], [⟨31, 24, .rw, 10⟩, ⟨23, 16, .rw, 4⟩, ⟨15, 4, .rw, 0⟩, ⟨1, 1, .rw, 1⟩, ⟨0, 0, .rw, 0⟩]⟩,
  ⟨"CLK_PTP_CTRL", 0x00010024, [], [⟨31, 24, .rw, 0⟩, ⟨19, 16, .rw, 0⟩, ⟨15, 8, .rw, 10⟩, ⟨1, 0, .rw, 3⟩]⟩,
  ⟨"CLK_SLEW", 0x00010028, [], [⟨31, 16, .rw, 50⟩, ⟨7, 0, .rw, 50⟩]⟩,
  ⟨"CLK_OFFSET", 0x0001002C, [], [⟨31, 0, .ro, 0⟩]⟩,
  ⟨"CLK_LAST_STEP", 0x00010030, [], [⟨31, 0, .ro, 0⟩]⟩,
  ⟨"CLK_TOD_SEC_HI", 0x00010034, [], [⟨15, 0, .rw, 0⟩]⟩,
  ⟨"CLK_TOD_SEC_LO", 0x00010038, [], [⟨31, 0, .rw, 0⟩]⟩,
  ⟨"CLK_TOD_CTRL", 0x0001003C, [], [⟨0, 0, .rwsc, 0⟩]⟩,
  ⟨"CLK_HOLD", 0x00010040, [], [⟨31, 24, .rw, 32⟩, ⟨15, 0, .rw, 64⟩]⟩,
  ⟨"CLK_TRIM", 0x00010044, [], [⟨31, 0, .ro, 0⟩]⟩,
  ⟨"CLK_REJECTS", 0x00010048, [], [⟨31, 16, .rw, 0⟩, ⟨15, 0, .rw, 0⟩]⟩,
  ⟨"CLK_REJECTS_REF", 0x0001004C, [], [⟨15, 0, .rw, 0⟩]⟩,
  ⟨"CLK_ACT_TIME_HI", 0x00010080, [], [⟨15, 0, .rw, 0⟩]⟩,
  ⟨"CLK_ACT_TIME_LO", 0x00010084, [], [⟨31, 0, .rw, 0⟩]⟩,
  ⟨"CLK_ACT_TIME_NS", 0x00010088, [], [⟨29, 0, .rw, 0⟩]⟩,
  ⟨"CLK_ACT_SPEC", 0x0001008C, [], [⟨31, 16, .rw, 0⟩, ⟨15, 8, .rw, 0⟩, ⟨3, 0, .rw, 0⟩]⟩,
  ⟨"CLK_ACT_CTRL", 0x00010090, [], [⟨25, 16, .rw, 0⟩, ⟨1, 1, .rwsc, 0⟩, ⟨0, 0, .rwsc, 0⟩]⟩,
  ⟨"CLK_ACT_RESULT", 0x00010094, [], [⟨31, 28, .ro, 0⟩, ⟨9, 0, .ro, 0⟩]⟩,
  ⟨"CLK_ACT_STATUS", 0x00010098, [], [⟨26, 16, .ro, 0⟩, ⟨15, 0, .rw, 0⟩]⟩,
  ⟨"CLK_ACT_LATE", 0x0001009C, [], [⟨31, 16, .rw, 0⟩, ⟨15, 0, .rw, 0⟩]⟩]

/-- The rows of spec/04_radios.md. -/
def rows04 : List RegRow := [
  ⟨"RAD_CTRL", 0x02000000, [(3, 0x100000)], [⟨7, 7, .ro, 1⟩, ⟨6, 6, .w1s, 0⟩, ⟨5, 4, .rw, 3⟩]⟩,
  ⟨"RAD_STATE", 0x02000004, [(3, 0x100000)], [⟨8, 8, .ro, 0⟩, ⟨7, 4, .ro, 0⟩, ⟨3, 0, .ro, 0⟩]⟩,
  ⟨"RAD_FC", 0x02000008, [(1, 0x100000)], [⟨31, 0, .rw, 331000000⟩]⟩,
  ⟨"RAD_FC", 0x02100008, [(1, 0x100000)], [⟨31, 0, .rw, 860000000⟩]⟩,
  ⟨"RAD_FC", 0x02200008, [(1, 0x100000)], [⟨31, 0, .rw, 2441750000⟩]⟩,
  ⟨"RAD_SYN", 0x0200000C, [(3, 0x100000)], [⟨10, 8, .ro, 0⟩, ⟨6, 0, .ro, 0⟩]⟩,
  ⟨"RAD_SYN_FRAC", 0x02000010, [(3, 0x100000)], [⟨23, 0, .ro, 0⟩]⟩,
  ⟨"RAD_TRIM", 0x02000014, [(3, 0x100000)], [⟨31, 0, .ro, 0⟩]⟩,
  ⟨"RAD_TX_POWER", 0x02000018, [(3, 0x100000)], [⟨31, 24, .rw, 24⟩, ⟨22, 16, .rw, 16⟩, ⟨7, 0, .rw, 80⟩]⟩,
  ⟨"RAD_TX_GUARD", 0x0200001C, [(3, 0x100000)], [⟨6, 0, .rw, 40⟩]⟩,
  ⟨"RAD_ANT", 0x02000020, [(3, 0x100000)], [⟨31, 24, .rw, 10⟩, ⟨23, 16, .rw, 6⟩, ⟨9, 8, .ro, 0⟩, ⟨7, 7, .w1c, 0⟩, ⟨6, 6, .w1c, 0⟩, ⟨5, 5, .w1c, 0⟩, ⟨4, 4, .w1c, 0⟩, ⟨0, 0, .rw, 0⟩]⟩,
  ⟨"RAD_XAMP_CTRL", 0x02000024, [(3, 0x100000)], [⟨31, 16, .rw, 1000⟩, ⟨15, 8, .rw, 8⟩, ⟨7, 7, .rw, 0⟩, ⟨6, 6, .w1c, 0⟩, ⟨5, 5, .rw, 1⟩, ⟨4, 4, .rw, 0⟩, ⟨3, 3, .rw, 0⟩, ⟨2, 2, .rw, 0⟩, ⟨0, 0, .rw, 0⟩]⟩,
  ⟨"RAD_XAMP_TIME", 0x02000028, [(3, 0x100000)], [⟨31, 24, .rw, 20⟩, ⟨23, 16, .rw, 5⟩, ⟨15, 8, .rw, 2⟩, ⟨7, 0, .rw, 2⟩]⟩,
  ⟨"RAD_DUTY_CTRL", 0x0200002C, [(3, 0x100000)], [⟨12, 8, .rw, 0⟩, ⟨7, 0, .rw, 90⟩]⟩,
  ⟨"RAD_DUTY_METER", 0x02000030, [(3, 0x100000)], [⟨21, 0, .ro, 0⟩]⟩,
  ⟨"RAD_TX_STATS", 0x02000034, [(3, 0x100000)], [⟨31, 16, .rw, 0⟩, ⟨15, 0, .rw, 0⟩]⟩,
  ⟨"RAD_TX_CANCEL", 0x02000038, [(3, 0x100000)], [⟨31, 28, .ro, 0⟩, ⟨15, 0, .rw, 0⟩]⟩,
  ⟨"RAD_REG_REFUSE", 0x0200003C, [(3, 0x100000)], [⟨31, 28, .ro, 0⟩, ⟨20, 16, .ro, 0⟩, ⟨15, 0, .rw, 0⟩]⟩,
  ⟨"RAD_RP_PROG", 0x02000040, [(3, 0x100000)], [⟨31, 30, .ro, 0⟩, ⟨16, 16, .rwsc, 0⟩, ⟨12, 8, .rw, 0⟩, ⟨1, 0, .rw, 0⟩]⟩,
  ⟨"RAD_RP_BITS", 0x02000044, [(3, 0x100000)], [⟨31, 0, .rw, 0⟩]⟩,
  ⟨"RAD_RP_E", 0x02010000, [(3, 0x100000), (32, 0x10), (3, 0x4)], [⟨31, 0, .ro, 0⟩]⟩,
  ⟨"RAD_RP_HDR", 0x02010200, [(3, 0x100000)], [⟨31, 0, .ro, 0⟩]⟩]

/-- The rows of spec/05_kaleidoscope.md. -/
def rows05 : List RegRow := [
  ⟨"KAL_CTRL", 0x02040000, [(3, 0x100000)], [⟨17, 17, .ro, 0⟩, ⟨16, 16, .ro, 0⟩, ⟨15, 12, .rw, 8⟩, ⟨11, 8, .rw, 3⟩, ⟨7, 3, .rw, 16⟩, ⟨1, 0, .rw, 0⟩]⟩,
  ⟨"KAL_LEVEL", 0x02040004, [(3, 0x100000)], [⟨15, 0, .ro, 0⟩]⟩,
  ⟨"KAL_OVL", 0x02040008, [(3, 0x100000)], [⟨31, 28, .ro, 0⟩, ⟨15, 8, .rw, 16⟩, ⟨7, 0, .rw, 0⟩]⟩,
  ⟨"KAL_RING_BASE", 0x0204000C, [(3, 0x100000)], [⟨31, 12, .rw, 0⟩, ⟨0, 0, .rw, 0⟩]⟩,
  ⟨"KAL_CAP_BASE", 0x02040010, [(3, 0x100000)], [⟨31, 12, .rw, 0⟩]⟩,
  ⟨"KAL_CAP_CTRL", 0x02040014, [(3, 0x100000)], [⟨24, 16, .ro, 0⟩, ⟨8, 0, .rw, 0⟩]⟩,
  ⟨"KAL_DET_CTRL", 0x02040018, [(3, 0x100000)], [⟨31, 16, .rw, 1460⟩, ⟨10, 8, .rw, 0⟩, ⟨7, 0, .rw, 160⟩]⟩,
  ⟨"KAL_DET_STAT", 0x0204001C, [(3, 0x100000)], [⟨31, 16, .rw, 0⟩, ⟨15, 0, .rw, 0⟩]⟩,
  ⟨"KAL_OCC_STAT", 0x02040020, [(3, 0x100000)], [⟨1, 0, .ro, 0⟩]⟩,
  ⟨"KAL_MASK_CTRL", 0x02040024, [(3, 0x100000)], [⟨12, 8, .rw, 6⟩, ⟨0, 0, .rw, 1⟩]⟩,
  ⟨"KAL_MASK_STAT", 0x02040028, [(3, 0x100000)], [⟨23, 16, .ro, 0⟩, ⟨15, 8, .rw, 0⟩, ⟨7, 0, .rw, 0⟩]⟩,
  ⟨"KAL_TX_STATUS", 0x0204002C, [(3, 0x100000)], [⟨31, 16, .rw, 0⟩, ⟨6, 0, .ro, 0⟩]⟩,
  ⟨"KAL_DET_MAP", 0x02041000, [(3, 0x100000), (96, 0x4)], [⟨31, 0, .rw, 0⟩]⟩,
  ⟨"KAL_BOND", 0x02042000, [(3, 0x100000), (48, 0x4)], [⟨31, 0, .ro, 0⟩]⟩,
  ⟨"KAL_SHAPING", 0x02044000, [(3, 0x100000), (5, 0x100), (48, 0x4)], [⟨31, 0, .rw, 0⟩]⟩,
  ⟨"KAL_SHAPING_REST", 0x020440C0, [(3, 0x100000), (5, 0x100), (16, 0x4)], []⟩,
  ⟨"KAL_TXDESC", 0x02048000, [(3, 0x100000), (8192, 0x4)], [⟨31, 0, .rw, 0⟩]⟩,
  ⟨"KAL_OCC_MAP", 0x02050000, [(3, 0x100000), (4, 0x2000), (1540, 0x4)], [⟨31, 0, .ro, 0⟩]⟩,
  ⟨"KAL_OCC_MAP_REST", 0x02051810, [(3, 0x100000), (4, 0x2000), (508, 0x4)], []⟩,
  ⟨"KAL_MASK_BP", 0x02058000, [(3, 0x100000), (2048, 0x4)], [⟨31, 31, .rw, 0⟩, ⟨29, 0, .rw, 0⟩]⟩,
  ⟨"KAL_COEF", 0x02060000, [(3, 0x100000), (2, 0x20000), (32768, 0x4)], [⟨17, 0, .rw, 0⟩]⟩]

/-- The rows of spec/06_demodulation.md. -/
def rows06 : List RegRow := [
  ⟨"DEM_ACQ_0", 0x102000000, [(2, 0x400000)], [⟨31, 24, .rw, 3⟩, ⟨23, 16, .rw, 40⟩, ⟨15, 8, .rw, 2⟩, ⟨7, 0, .rw, 3⟩]⟩,
  ⟨"DEM_TOL_0", 0x102000004, [(2, 0x400000)], [⟨31, 16, .rw, 1000⟩, ⟨15, 0, .rw, 200⟩]⟩,
  ⟨"DEM_WARN_0", 0x102000008, [(2, 0x400000)], [⟨31, 24, .rw, 3⟩, ⟨23, 16, .rw, 20⟩, ⟨15, 0, .rw, 300⟩]⟩,
  ⟨"DEM_ACQ_1", 0x102000020, [(2, 0x400000)], [⟨31, 24, .rw, 3⟩, ⟨23, 16, .rw, 40⟩, ⟨15, 8, .rw, 2⟩, ⟨7, 0, .rw, 3⟩]⟩,
  ⟨"DEM_TOL_1", 0x102000024, [(2, 0x400000)], [⟨31, 16, .rw, 1000⟩, ⟨15, 0, .rw, 200⟩]⟩,
  ⟨"DEM_WARN_1", 0x102000028, [(2, 0x400000)], [⟨31, 24, .rw, 3⟩, ⟨23, 16, .rw, 20⟩, ⟨15, 0, .rw, 300⟩]⟩,
  ⟨"DEM_ACTIVE", 0x102000040, [(2, 0x400000)], [⟨0, 0, .ro, 0⟩]⟩]

/-- The rows of spec/07_seesaw.md. -/
def rows07 : List RegRow := [
  ⟨"SCH_SEE_CTRL", 0x00080100, [], [⟨23, 16, .rw, 8⟩, ⟨7, 2, .rw, 10⟩, ⟨0, 0, .rw, 1⟩]⟩,
  ⟨"SCH_SEE_STAT", 0x00080104, [], [⟨31, 16, .rw, 0⟩, ⟨15, 0, .rw, 0⟩]⟩,
  ⟨"SCH_SEE_DROP", 0x00080108, [], [⟨31, 16, .rw, 0⟩, ⟨15, 0, .rw, 0⟩]⟩]

/-- The rows of spec/08_access_scheduler.md. -/
def rows08 : List RegRow := [
  ⟨"SCH_CTRL", 0x00080000, [], [⟨8, 8, .rw, 0⟩, ⟨2, 0, .rw, 0⟩]⟩,
  ⟨"SCH_STATUS", 0x00080004, [], [⟨16, 0, .ro, 0⟩]⟩,
  ⟨"SCH_GRID", 0x00080008, [], [⟨31, 24, .rw, 16⟩, ⟨23, 20, .rw, 0⟩, ⟨19, 16, .rw, 4⟩, ⟨8, 8, .rw, 0⟩, ⟨7, 0, .rw, 90⟩]⟩,
  ⟨"SCH_TASK", 0x0008000C, [], [⟨15, 8, .rw, 20⟩, ⟨7, 0, .rw, 10⟩]⟩,
  ⟨"SCH_MODE_THR_LO", 0x00080010, [], [⟨31, 24, .rw, 96⟩, ⟨23, 16, .rw, 84⟩, ⟨15, 8, .rw, 64⟩, ⟨7, 0, .rw, 52⟩]⟩,
  ⟨"SCH_MODE_THR_HI", 0x00080014, [], [⟨31, 24, .rw, 12⟩, ⟨23, 16, .rw, 132⟩, ⟨15, 8, .rw, 120⟩, ⟨7, 0, .rw, 108⟩]⟩,
  ⟨"SCH_DLQ", 0x00080018, [], [⟨23, 16, .rw, 8⟩, ⟨3, 0, .rw, 4⟩]⟩,
  ⟨"SCH_BCN_CTRL", 0x0008001C, [], [⟨31, 16, .rw, 0⟩, ⟨12, 12, .rw, 0⟩, ⟨11, 0, .rw, 0⟩]⟩,
  ⟨"SCH_BCN_GRP", 0x00080020, [(3, 0x4)], [⟨31, 31, .rw, 0⟩, ⟨26, 16, .rw, 0⟩, ⟨15, 15, .rw, 0⟩, ⟨10, 0, .rw, 0⟩]⟩,
  ⟨"SCH_JOIN", 0x00080030, [(3, 0x4)], [⟨31, 31, .rw, 0⟩, ⟨26, 16, .rw, 0⟩, ⟨15, 15, .rw, 0⟩, ⟨10, 0, .rw, 0⟩]⟩,
  ⟨"SCH_REG_BASE", 0x00080040, [], [⟨31, 12, .rw, 0⟩]⟩,
  ⟨"SCH_DLQ_BASE", 0x00080044, [], [⟨31, 12, .rw, 0⟩]⟩,
  ⟨"SCH_REG_CMD", 0x00080048, [], [⟨31, 28, .ro, 0⟩, ⟨3, 1, .rw, 0⟩, ⟨0, 0, .rwsc, 0⟩]⟩,
  ⟨"SCH_REG_STATUS", 0x0008004C, [], [⟨21, 0, .ro, 0⟩]⟩,
  ⟨"SCH_NODE_CMD", 0x00080050, [], [⟨31, 28, .ro, 0⟩, ⟨19, 16, .rw, 0⟩, ⟨15, 15, .rw, 0⟩, ⟨14, 12, .rw, 0⟩, ⟨3, 1, .rw, 0⟩, ⟨0, 0, .rwsc, 0⟩]⟩,
  ⟨"SCH_NODE_ADDR", 0x00080054, [], [⟨31, 0, .rw, 0⟩]⟩,
  ⟨"SCH_JOIN_STAT", 0x00080060, [], [⟨31, 28, .ro, 0⟩, ⟨27, 16, .rw, 0⟩, ⟨15, 0, .rw, 0⟩]⟩,
  ⟨"SCH_CTX_STAT", 0x00080064, [], [⟨31, 16, .rw, 0⟩, ⟨15, 0, .rw, 0⟩]⟩,
  ⟨"SCH_DL_STAT", 0x00080068, [], [⟨31, 16, .rw, 0⟩, ⟨15, 0, .rw, 0⟩]⟩,
  ⟨"SCH_DL_DROP", 0x0008006C, [], [⟨31, 24, .rw, 0⟩, ⟨23, 16, .rw, 0⟩, ⟨15, 8, .rw, 0⟩, ⟨7, 0, .rw, 0⟩]⟩,
  ⟨"SCH_SLOT_STAT", 0x00080070, [], [⟨31, 16, .rw, 0⟩, ⟨15, 0, .rw, 0⟩]⟩,
  ⟨"SCH_DIR", 0x00080200, [(3, 0x20), (8, 0x4)], [⟨31, 0, .rw, 0⟩]⟩,
  ⟨"SCH_DIR_ACT", 0x00080300, [(3, 0x20), (8, 0x4)], [⟨31, 0, .ro, 0⟩]⟩,
  ⟨"SCH_REG_BUF", 0x00080400, [(64, 0x4)], [⟨31, 0, .rw, 0⟩]⟩,
  ⟨"SCH_CTX_WINDOW", 0x00800000, [(2097152, 0x4)], [⟨31, 0, .ro, 0⟩]⟩]

/-- The rows of spec/09_puppeteer.md. -/
def rows09 : List RegRow := [
  ⟨"PUP_CTRL", 0x00070000, [], [⟨3, 0, .rw, 4⟩]⟩,
  ⟨"PUP_STATUS", 0x00070004, [], [⟨29, 16, .ro, 0⟩, ⟨13, 0, .ro, 0⟩]⟩,
  ⟨"PUP_WATER", 0x00070008, [], [⟨29, 16, .rw, 7168⟩, ⟨13, 0, .rw, 6144⟩]⟩,
  ⟨"PUP_CORES", 0x0007000C, [], [⟨22, 16, .ro, 0⟩, ⟨11, 8, .ro, 0⟩, ⟨6, 0, .ro, 0⟩]⟩,
  ⟨"PUP_CREATED", 0x00070010, [], [⟨31, 0, .ro, 0⟩]⟩,
  ⟨"PUP_LOSS", 0x00070014, [], [⟨31, 22, .rw, 0⟩, ⟨21, 11, .rw, 0⟩, ⟨10, 0, .rw, 0⟩]⟩,
  ⟨"PUP_FAULT_STAT", 0x00070018, [], [⟨31, 16, .rw, 0⟩, ⟨15, 0, .rw, 0⟩]⟩,
  ⟨"PUP_FAULT_LAST", 0x0007001C, [], [⟨31, 28, .ro, 0⟩, ⟨18, 16, .ro, 0⟩, ⟨7, 7, .ro, 0⟩, ⟨5, 0, .ro, 0⟩]⟩,
  ⟨"PUP_DISP_AFF", 0x00070020, [], [⟨31, 0, .ro, 0⟩]⟩,
  ⟨"PUP_DISP_MOVE", 0x00070024, [], [⟨31, 16, .ro, 0⟩, ⟨15, 0, .ro, 0⟩]⟩,
  ⟨"PUP_CORE_CMD", 0x00070030, [], [⟨31, 28, .ro, 0⟩, ⟨13, 8, .rw, 0⟩, ⟨2, 1, .rw, 0⟩, ⟨0, 0, .rwsc, 0⟩]⟩,
  ⟨"PUP_ENTRY", 0x00070040, [(5, 0x4)], [⟨12, 0, .rw, 0⟩]⟩,
  ⟨"PUP_BUDGET", 0x00070060, [(1, 0x4)], [⟨15, 0, .rw, 8192⟩]⟩,
  ⟨"PUP_BUDGET", 0x00070064, [(1, 0x4)], [⟨15, 0, .rw, 8704⟩]⟩,
  ⟨"PUP_BUDGET", 0x00070068, [(1, 0x4)], [⟨15, 0, .rw, 8192⟩]⟩,
  ⟨"PUP_BUDGET", 0x0007006C, [(2, 0x4)], [⟨15, 0, .rw, 1024⟩]⟩,
  ⟨"PUP_CORE_STATE", 0x00070080, [(4, 0x4)], [⟨31, 0, .ro, 0⟩]⟩,
  ⟨"PUP_PEEK_IDX", 0x000700A0, [], [⟨12, 0, .rw, 0⟩]⟩,
  ⟨"PUP_PEEK", 0x000700C0, [(16, 0x4)], [⟨31, 0, .ro, 0⟩]⟩]

/-- The rows of spec/10_marionette_model.md. -/
def rows10 : List RegRow := [
  ⟨"CORE_DONE", 0x104000000, [(64, 0x1000)], [⟨31, 28, .wo, 0⟩, ⟨9, 0, .wo, 0⟩]⟩,
  ⟨"CORE_ID", 0x104000004, [(64, 0x1000)], [⟨5, 0, .ro, 0⟩]⟩,
  ⟨"CORE_SEG", 0x104000008, [(64, 0x1000)], [⟨2, 0, .rw, 0⟩]⟩,
  ⟨"CORE_CYCLES", 0x10400000C, [(64, 0x1000)], [⟨31, 0, .ro, 0⟩]⟩,
  ⟨"CORE_IRQ_PEND", 0x104000010, [(64, 0x1000)], [⟨7, 0, .w1c, 0⟩]⟩,
  ⟨"CORE_IRQ_EN", 0x104000014, [(64, 0x1000)], [⟨7, 0, .rw, 0⟩]⟩,
  ⟨"CORE_IRQ_SET", 0x104000018, [(64, 0x1000)], [⟨7, 7, .w1s, 0⟩]⟩,
  ⟨"CORE_TIMER", 0x10400001C, [(64, 0x1000)], [⟨31, 0, .rw, 0⟩]⟩,
  ⟨"CORE_IRQ_VEC", 0x104000020, [(64, 0x1000), (8, 0x4)], [⟨12, 0, .rw, 0⟩]⟩,
  ⟨"CORE_TRU_EXT", 0x104000040, [(64, 0x1000)], [⟨31, 0, .rw, 0⟩]⟩,
  ⟨"CORE_TRU_LOC", 0x104000044, [(64, 0x1000)], [⟨19, 0, .rw, 0⟩]⟩,
  ⟨"CORE_TRU_CTRL", 0x104000048, [(64, 0x1000)], [⟨31, 31, .wo, 0⟩, ⟨30, 29, .wo, 0⟩, ⟨16, 0, .wo, 0⟩]⟩,
  ⟨"CORE_TRU_STATUS", 0x10400004C, [(64, 0x1000)], [⟨31, 28, .ro, 0⟩, ⟨11, 8, .ro, 0⟩, ⟨7, 0, .ro, 0⟩]⟩,
  ⟨"CORE_DOORBELL", 0x104000050, [(64, 0x1000)], [⟨4, 0, .wo, 0⟩]⟩,
  ⟨"MAR_CTRL", 0x01400000, [(2, 0x800000), (32, 0x10)], [⟨0, 0, .rw, 0⟩]⟩,
  ⟨"MAR_STATUS", 0x01400004, [(2, 0x800000), (32, 0x10)], [⟨31, 30, .ro, 0⟩, ⟨12, 0, .ro, 0⟩]⟩,
  ⟨"MAR_TRAP", 0x01400008, [(2, 0x800000), (32, 0x10)], [⟨31, 28, .ro, 0⟩, ⟨12, 0, .ro, 0⟩]⟩,
  ⟨"MAR_ECC", 0x0140000C, [(2, 0x800000), (32, 0x10)], [⟨31, 16, .rw, 0⟩, ⟨15, 0, .rw, 0⟩]⟩,
  ⟨"MAR_SHARED", 0x01400400, [(2, 0x800000)], [⟨0, 0, .rw, 0⟩]⟩,
  ⟨"BB_IMEM", 0x01000000, [(2, 0x800000), (32, 0x20000), (16384, 0x4)], [⟨31, 0, .rw, 0⟩]⟩,
  ⟨"BB_DMEM", 0x01010000, [(2, 0x800000), (32, 0x20000), (16384, 0x4)], [⟨31, 0, .rw, 0⟩]⟩,
  ⟨"BB_SHARED", 0x01600000, [(2, 0x800000), (524288, 0x4)], [⟨31, 0, .rw, 0⟩]⟩]

/-- The rows of spec/12_classifier.md. -/
def rows12 : List RegRow := [
  ⟨"CLS_GEN", 0x00030000, [], [⟨2, 2, .ro, 1⟩, ⟨0, 0, .ro, 0⟩]⟩,
  ⟨"CLS_GEN_FLIGHT", 0x00030004, [], [⟨31, 16, .ro, 0⟩, ⟨15, 0, .ro, 0⟩]⟩,
  ⟨"CLS_PARSE", 0x00030008, [], [⟨31, 16, .rw, 0⟩, ⟨15, 0, .rw, 4789⟩]⟩,
  ⟨"CLS_EM_CTRL", 0x0003000C, [], [⟨12, 8, .rw, 0⟩, ⟨4, 0, .rw, 0⟩]⟩,
  ⟨"CLS_UL_DEFAULT", 0x00030010, [], [⟨31, 0, .rw, 0⟩]⟩,
  ⟨"CLS_MISS", 0x00030020, [(8, 0x4)], [⟨31, 0, .rw, 0⟩]⟩,
  ⟨"CLS_DROP", 0x00030040, [], [⟨31, 0, .rw, 0⟩]⟩,
  ⟨"CLS_DROP_X", 0x00030044, [], [⟨31, 24, .rw, 0⟩, ⟨23, 16, .rw, 0⟩, ⟨15, 8, .rw, 0⟩]⟩,
  ⟨"CLS_EM_DROP", 0x00030048, [], [⟨31, 16, .rw, 0⟩, ⟨15, 8, .rw, 0⟩, ⟨7, 0, .rw, 0⟩]⟩,
  ⟨"CLS_FRAG_STAT", 0x0003004C, [], [⟨27, 16, .ro, 0⟩, ⟨6, 0, .ro, 0⟩]⟩,
  ⟨"CLS_FRAG_DROP", 0x00030050, [], [⟨31, 16, .rw, 0⟩, ⟨15, 8, .rw, 0⟩, ⟨7, 0, .rw, 0⟩]⟩,
  ⟨"CLS_SCRUB", 0x00030054, [], [⟨15, 0, .rw, 0⟩]⟩,
  ⟨"CLS_TCAM", 0x00400000, [(262144, 0x4)], [⟨31, 0, .rw, 0⟩]⟩,
  ⟨"CLS_HASH", 0x00600000, [(262144, 0x4)], [⟨31, 0, .rw, 0⟩]⟩,
  ⟨"CLS_TMPL", 0x00038000, [(4096, 0x4)], [⟨31, 0, .rw, 0⟩]⟩]

/-- The rows of spec/13_traffic_manager.md. -/
def rows13 : List RegRow := [
  ⟨"SHP_BUF_BASE", 0x00040000, [], [⟨31, 12, .rw, 0⟩, ⟨0, 0, .rw, 0⟩]⟩,
  ⟨"SHP_SRAM_USE", 0x00040004, [], [⟨16, 0, .ro, 0⟩]⟩,
  ⟨"SHP_DRAM_USE", 0x00040008, [], [⟨21, 0, .ro, 0⟩]⟩,
  ⟨"SHP_ECC", 0x0004000C, [], [⟨31, 16, .rw, 0⟩, ⟨15, 0, .rw, 0⟩]⟩,
  ⟨"SHP_POL_DROP", 0x00040010, [], [⟨31, 0, .rw, 0⟩]⟩,
  ⟨"SHP_RECOVER", 0x00040014, [], [⟨15, 0, .rw, 0⟩]⟩,
  ⟨"SHP_Q_CFG", 0x00041000, [(64, 0x10)], [⟨31, 24, .rw, 16⟩, ⟨23, 14, .rw, 8⟩, ⟨13, 0, .rw, 64⟩]⟩,
  ⟨"SHP_Q_DEPTH", 0x00041004, [(64, 0x10)], [⟨31, 0, .ro, 0⟩]⟩,
  ⟨"SHP_Q_DROP", 0x00041008, [(64, 0x10)], [⟨31, 16, .rw, 0⟩, ⟨15, 8, .rw, 0⟩, ⟨7, 0, .rw, 0⟩]⟩,
  ⟨"SHP_Q_SOJ", 0x0004100C, [(64, 0x10)], [⟨31, 0, .ro, 0⟩]⟩,
  ⟨"SHP_PORT_CTRL", 0x00042000, [(8, 0x40)], [⟨5, 5, .ro, 0⟩, ⟨4, 4, .ro, 0⟩, ⟨0, 0, .rw, 0⟩]⟩,
  ⟨"SHP_PORT_GSTAT", 0x00042004, [(8, 0x40)], [⟨15, 8, .ro, 0⟩, ⟨7, 0, .ro, 255⟩]⟩,
  ⟨"SHP_PORT_CYC0", 0x00042008, [(8, 0x40)], [⟨31, 0, .rw, 0⟩]⟩,
  ⟨"SHP_PORT_CYC1", 0x0004200C, [(8, 0x40)], [⟨31, 0, .rw, 0⟩]⟩,
  ⟨"SHP_PORT_LEN", 0x00042010, [(8, 0x40)], [⟨15, 8, .rw, 0⟩, ⟨7, 0, .rw, 0⟩]⟩,
  ⟨"SHP_PORT_T0_HI", 0x00042014, [(8, 0x40)], [⟨15, 0, .ro, 0⟩]⟩,
  ⟨"SHP_PORT_T0_LO", 0x00042018, [(8, 0x40)], [⟨31, 0, .ro, 0⟩]⟩,
  ⟨"SHP_PORT_T0_NS", 0x0004201C, [(8, 0x40)], [⟨29, 0, .ro, 0⟩]⟩,
  ⟨"SHP_PORT_VT_HI", 0x00042020, [(8, 0x40)], [⟨15, 0, .ro, 0⟩]⟩,
  ⟨"SHP_PORT_VT_LO", 0x00042024, [(8, 0x40)], [⟨31, 0, .ro, 0⟩]⟩,
  ⟨"SHP_PORT_STAT", 0x00042028, [(8, 0x40)], [⟨15, 0, .rw, 0⟩]⟩,
  ⟨"SHP_GATE_LIST", 0x00044000, [(8192, 0x4)], [⟨31, 0, .rw, 0⟩]⟩,
  ⟨"SHP_POL_RATE", 0x0004C000, [(1024, 0x10)], [⟨31, 0, .rw, 0⟩]⟩,
  ⟨"SHP_POL_CBS", 0x0004C004, [(1024, 0x10)], [⟨31, 31, .w1s, 0⟩, ⟨23, 0, .rw, 0⟩]⟩,
  ⟨"SHP_POL_TOKENS", 0x0004C008, [(1024, 0x10)], [⟨31, 0, .ro, 0⟩]⟩,
  ⟨"SHP_POL_DROPS", 0x0004C00C, [(1024, 0x10)], [⟨31, 0, .rw, 0⟩]⟩]

/-- The rows of spec/14_ethernet_macs.md. -/
def rows14 : List RegRow := [
  ⟨"MAC_CTRL", 0x00020000, [(2, 0x1000)], [⟨31, 18, .rw, 9216⟩, ⟨11, 10, .rw, 1⟩, ⟨9, 8, .rw, 0⟩, ⟨4, 4, .rw, 0⟩, ⟨3, 3, .rw, 1⟩, ⟨2, 2, .rw, 1⟩, ⟨0, 0, .rw, 0⟩]⟩,
  ⟨"MAC_CTRL", 0x00022000, [(6, 0x1000)], [⟨31, 18, .rw, 9216⟩, ⟨11, 10, .rw, 0⟩, ⟨9, 8, .rw, 0⟩, ⟨4, 4, .rw, 0⟩, ⟨3, 3, .rw, 1⟩, ⟨2, 2, .rw, 1⟩, ⟨0, 0, .rw, 0⟩]⟩,
  ⟨"MAC_STATUS", 0x00020004, [(8, 0x1000)], [⟨8, 8, .ro, 0⟩, ⟨7, 7, .ro, 0⟩, ⟨6, 6, .ro, 0⟩, ⟨5, 5, .ro, 0⟩, ⟨2, 2, .ro, 0⟩, ⟨1, 1, .ro, 0⟩, ⟨0, 0, .ro, 0⟩]⟩,
  ⟨"MAC_ADDR_LO", 0x00020008, [(8, 0x1000)], [⟨31, 0, .rw, 0⟩]⟩,
  ⟨"MAC_ADDR_HI", 0x0002000C, [(8, 0x1000)], [⟨15, 0, .rw, 0⟩]⟩,
  ⟨"MAC_LINK", 0x00020010, [(8, 0x1000)], [⟨31, 16, .rw, 10⟩, ⟨15, 0, .rw, 100⟩]⟩,
  ⟨"MAC_PAUSE", 0x00020014, [(8, 0x1000)], [⟨31, 16, .rw, 65535⟩, ⟨15, 0, .rw, 32767⟩]⟩,
  ⟨"MAC_WM", 0x00020018, [(2, 0x1000)], [⟨31, 16, .rw, 448⟩, ⟨15, 0, .rw, 320⟩]⟩,
  ⟨"MAC_WM", 0x00022018, [(6, 0x1000)], [⟨31, 16, .rw, 96⟩, ⟨15, 0, .rw, 64⟩]⟩,
  ⟨"MAC_RXBUF", 0x0002001C, [(2, 0x1000)], [⟨31, 16, .ro, 512⟩, ⟨15, 0, .ro, 0⟩]⟩,
  ⟨"MAC_RXBUF", 0x0002201C, [(6, 0x1000)], [⟨31, 16, .ro, 128⟩, ⟨15, 0, .ro, 0⟩]⟩,
  ⟨"MAC_PE_CTRL", 0x00020020, [(8, 0x1000)], [⟨23, 16, .rw, 255⟩, ⟨15, 8, .rw, 10⟩, ⟨3, 2, .rw, 0⟩, ⟨1, 1, .rw, 0⟩, ⟨0, 0, .rw, 0⟩]⟩,
  ⟨"MAC_PTP_LAT", 0x00020024, [(8, 0x1000)], [⟨31, 16, .rw, 0⟩, ⟨15, 0, .rw, 0⟩]⟩,
  ⟨"MAC_PTP_TX_SEC_HI", 0x00020028, [(8, 0x1000)], [⟨15, 0, .ro, 0⟩]⟩,
  ⟨"MAC_PTP_TX_SEC_LO", 0x0002002C, [(8, 0x1000)], [⟨31, 0, .ro, 0⟩]⟩,
  ⟨"MAC_PTP_TX_NS", 0x00020030, [(8, 0x1000)], [⟨29, 0, .ro, 0⟩]⟩,
  ⟨"MAC_PTP_TX_ID", 0x00020034, [(8, 0x1000)], [⟨31, 31, .w1c, 0⟩, ⟨19, 16, .ro, 0⟩, ⟨15, 0, .ro, 0⟩]⟩,
  ⟨"MAC_CNT_HALF_LO", 0x00020100, [(8, 0x1000)], [⟨31, 0, .w1c, 0⟩]⟩,
  ⟨"MAC_CNT_HALF_HI", 0x00020104, [(8, 0x1000)], [⟨31, 0, .w1c, 0⟩]⟩,
  ⟨"MAC_CNT_CLR", 0x00020108, [(8, 0x1000)], [⟨0, 0, .rwsc, 0⟩]⟩,
  ⟨"MAC_CNT_LO", 0x00020400, [(8, 0x1000), (64, 0x8)], [⟨31, 0, .ro, 0⟩]⟩,
  ⟨"MAC_CNT_HI", 0x00020404, [(8, 0x1000), (64, 0x8)], [⟨15, 0, .ro, 0⟩]⟩]

/-- The rows of spec/15_cipher_engine.md. -/
def rows15 : List RegRow := [
  ⟨"CIP_CTRL", 0x00050000, [], [⟨1, 0, .rw, 1⟩]⟩,
  ⟨"CIP_STATUS", 0x00050004, [], [⟨20, 16, .ro, 0⟩, ⟨15, 0, .ro, 0⟩]⟩,
  ⟨"CIP_JOBS", 0x00050008, [], [⟨31, 0, .ro, 0⟩]⟩,
  ⟨"CIP_ERRS", 0x0005000C, [], [⟨31, 16, .rw, 0⟩, ⟨15, 0, .rw, 0⟩]⟩,
  ⟨"CIP_CLASS", 0x00050010, [(4, 0x4)], [⟨31, 31, .rw, 1⟩, ⟨30, 30, .rw, 1⟩, ⟨23, 0, .rw, 0⟩]⟩,
  ⟨"CIP_KEY_CMD", 0x00050020, [], [⟨31, 28, .ro, 0⟩, ⟨27, 26, .rw, 0⟩, ⟨25, 25, .rw, 0⟩, ⟨15, 8, .rw, 0⟩, ⟨2, 1, .rw, 0⟩, ⟨0, 0, .rwsc, 0⟩]⟩,
  ⟨"CIP_KEY_STAT", 0x00050024, [], [⟨31, 16, .rw, 0⟩, ⟨15, 0, .rw, 0⟩]⟩,
  ⟨"CIP_NODE_SLOTS", 0x00050028, [], [⟨27, 16, .ro, 0⟩, ⟨11, 0, .ro, 0⟩]⟩,
  ⟨"CIP_LOCKED", 0x0005002C, [], [⟨31, 16, .rw, 0⟩, ⟨11, 0, .ro, 0⟩]⟩,
  ⟨"CIP_SLOT_IDX", 0x00050030, [], [⟨11, 0, .rw, 0⟩]⟩,
  ⟨"CIP_SLOT_INFO", 0x00050034, [], [⟨31, 31, .ro, 0⟩, ⟨30, 30, .ro, 0⟩, ⟨29, 28, .ro, 0⟩, ⟨27, 27, .ro, 0⟩, ⟨24, 0, .ro, 0⟩]⟩,
  ⟨"CIP_SLOT_OWNER", 0x00050038, [], [⟨31, 0, .ro, 0⟩]⟩,
  ⟨"CIP_ROOT_CTRL", 0x00050040, [], [⟨31, 30, .ro, 0⟩, ⟨0, 0, .rwsc, 0⟩]⟩,
  ⟨"CIP_ROOT_STATUS", 0x00050044, [], [⟨31, 31, .ro, 0⟩, ⟨23, 0, .ro, 0⟩]⟩,
  ⟨"CIP_ROOT_KEY", 0x00050060, [(8, 0x4)], [⟨31, 0, .wo, 0⟩]⟩,
  ⟨"CIP_KEY_BUF", 0x00050100, [(10, 0x4)], [⟨31, 0, .wo, 0⟩]⟩,
  ⟨"STR_OWNER", 0x00050800, [], [⟨6, 0, .rw, 0⟩]⟩,
  ⟨"STR_CTRL", 0x00050804, [], [⟨31, 28, .rw, 0⟩, ⟨27, 27, .rw, 0⟩, ⟨23, 20, .rw, 0⟩, ⟨19, 16, .rw, 0⟩, ⟨15, 8, .rw, 0⟩, ⟨1, 1, .rwsc, 0⟩, ⟨0, 0, .rwsc, 0⟩]⟩,
  ⟨"STR_STATUS", 0x00050808, [], [⟨31, 28, .ro, 0⟩, ⟨27, 27, .ro, 0⟩, ⟨15, 8, .ro, 0⟩, ⟨7, 0, .ro, 64⟩]⟩,
  ⟨"STR_LEN", 0x0005080C, [], [⟨31, 16, .rw, 0⟩, ⟨15, 0, .rw, 0⟩]⟩,
  ⟨"STR_IV", 0x00050810, [(4, 0x4)], [⟨31, 0, .rw, 0⟩]⟩,
  ⟨"STR_DIN", 0x00050820, [], [⟨31, 0, .wo, 0⟩]⟩,
  ⟨"STR_DOUT", 0x00050824, [], [⟨31, 0, .ro, 0⟩]⟩,
  ⟨"STR_OUTLEN", 0x00050828, [], [⟨16, 0, .ro, 0⟩]⟩,
  ⟨"STR_TAG", 0x00050830, [(4, 0x4)], [⟨31, 0, .rw, 0⟩]⟩,
  ⟨"CJ_RESULT", 0x105000044, [(64, 0x1000)], [⟨31, 28, .ro, 0⟩, ⟨27, 27, .ro, 0⟩, ⟨16, 0, .ro, 0⟩]⟩,
  ⟨"CJ_SUBMIT", 0x105000040, [(64, 0x1000)], [⟨31, 0, .wo, 0⟩]⟩]

/-- The rows of spec/16_dram_controller.md. -/
def rows16 : List RegRow := [
  ⟨"DRC_CTRL", 0x00060000, [], [⟨3, 3, .rw, 0⟩, ⟨2, 1, .rw, 2⟩, ⟨0, 0, .rw, 0⟩]⟩,
  ⟨"DRC_STATUS", 0x00060004, [], [⟨10, 8, .ro, 1⟩, ⟨7, 7, .ro, 0⟩, ⟨1, 1, .ro, 0⟩, ⟨0, 0, .ro, 0⟩]⟩,
  ⟨"DRC_REF_STAT", 0x00060008, [], [⟨31, 16, .rw, 0⟩, ⟨15, 0, .rw, 0⟩]⟩,
  ⟨"DRC_REF_DEBT", 0x0006000C, [], [⟨13, 8, .ro, 0⟩, ⟨5, 0, .ro, 0⟩]⟩,
  ⟨"DRC_ECC_CTRL", 0x00060010, [], [⟨15, 0, .rw, 1⟩]⟩,
  ⟨"DRC_ECC_CORR", 0x00060014, [], [⟨31, 0, .rw, 0⟩]⟩,
  ⟨"DRC_ECC_UNCORR", 0x00060018, [], [⟨15, 0, .rw, 0⟩]⟩,
  ⟨"DRC_ECC_ADDR", 0x0006001C, [], [⟨31, 6, .ro, 0⟩]⟩,
  ⟨"DRC_SCRUB", 0x00060020, [], [⟨15, 8, .rw, 24⟩, ⟨0, 0, .rw, 1⟩]⟩,
  ⟨"DRC_SCRUB_POS", 0x00060024, [], [⟨31, 6, .ro, 0⟩]⟩,
  ⟨"DRC_PORT_CFG", 0x00060100, [(1, 0x8)], [⟨19, 0, .rw, 2000⟩]⟩,
  ⟨"DRC_PORT_CFG", 0x00060108, [(1, 0x8)], [⟨19, 0, .rw, 1000⟩]⟩,
  ⟨"DRC_PORT_CFG", 0x00060110, [(1, 0x8)], [⟨19, 0, .rw, 1000⟩]⟩,
  ⟨"DRC_PORT_CFG", 0x00060118, [(1, 0x8)], [⟨19, 0, .rw, 1500⟩]⟩,
  ⟨"DRC_PORT_CFG", 0x00060120, [(1, 0x8)], [⟨19, 0, .rw, 2000⟩]⟩,
  ⟨"DRC_PORT_CFG", 0x00060128, [(1, 0x8)], [⟨19, 0, .rw, 1000⟩]⟩,
  ⟨"DRC_PORT_CFG", 0x00060130, [(1, 0x8)], [⟨19, 0, .rw, 10000⟩]⟩,
  ⟨"DRC_PORT_CFG", 0x00060138, [(1, 0x8)], [⟨19, 0, .rw, 100000⟩]⟩,
  ⟨"DRC_PORT_STAT", 0x00060104, [(8, 0x8)], [⟨31, 16, .rw, 0⟩, ⟨15, 0, .rw, 0⟩]⟩]

/-- The rows of spec/17_calibration.md. -/
def rows17 : List RegRow := [
  ⟨"CAL_CTRL", 0x00090000, [], [⟨28, 24, .rw, 8⟩, ⟨23, 16, .rw, 60⟩, ⟨3, 3, .rw, 1⟩, ⟨2, 2, .rw, 1⟩, ⟨1, 1, .rw, 1⟩, ⟨0, 0, .rw, 1⟩]⟩,
  ⟨"CAL_STATUS", 0x00090004, [], [⟨7, 0, .ro, 0⟩]⟩,
  ⟨"CAL_CMD", 0x00090008, [], [⟨31, 28, .ro, 0⟩, ⟨15, 8, .rw, 0⟩, ⟨2, 1, .rw, 0⟩, ⟨0, 0, .rwsc, 0⟩]⟩,
  ⟨"CAL_THR_RAD", 0x0009000C, [], [⟨31, 24, .rw, 180⟩, ⟨23, 16, .rw, 160⟩, ⟨7, 0, .rw, 30⟩]⟩,
  ⟨"CAL_THR_SER", 0x00090010, [], [⟨25, 16, .rw, 20⟩, ⟨6, 0, .rw, 12⟩]⟩,
  ⟨"CAL_THR_DRAM", 0x00090014, [], [⟨7, 0, .rw, 40⟩]⟩,
  ⟨"CAL_STAT", 0x00090018, [], [⟨31, 16, .rw, 0⟩, ⟨15, 8, .rw, 0⟩, ⟨7, 0, .rw, 0⟩]⟩,
  ⟨"CAL_LAST", 0x0009001C, [], [⟨31, 28, .ro, 0⟩, ⟨27, 27, .ro, 0⟩, ⟨7, 0, .ro, 0⟩]⟩,
  ⟨"CAL_TEMP", 0x00090040, [(16, 0x4)], [⟨31, 31, .ro, 0⟩, ⟨15, 0, .ro, 0⟩]⟩,
  ⟨"CAL_RAD_FIG", 0x00090100, [(3, 0x20), (2, 0x10)], [⟨31, 24, .ro, 0⟩, ⟨23, 16, .ro, 0⟩, ⟨15, 8, .ro, 0⟩]⟩,
  ⟨"CAL_RAD_CODE0", 0x00090104, [(3, 0x20), (2, 0x10)], [⟨15, 8, .ro, 0⟩, ⟨7, 0, .ro, 0⟩]⟩,
  ⟨"CAL_RAD_CODE1", 0x00090108, [(3, 0x20), (2, 0x10)], [⟨31, 24, .ro, 0⟩, ⟨23, 16, .ro, 0⟩, ⟨5, 0, .ro, 0⟩]⟩,
  ⟨"CAL_RAD_VCO", 0x00090160, [(3, 0x4)], [⟨31, 28, .ro, 0⟩, ⟨6, 0, .ro, 0⟩]⟩,
  ⟨"CAL_SER_FIG", 0x00090200, [(8, 0x8)], [⟨25, 16, .ro, 0⟩, ⟨6, 0, .ro, 0⟩]⟩,
  ⟨"CAL_SER_TAPS", 0x00090204, [(8, 0x8)], [⟨29, 0, .ro, 0⟩]⟩,
  ⟨"CAL_DRAM_FIG", 0x00090300, [(2, 0x4)], [⟨31, 24, .ro, 0⟩, ⟨20, 16, .ro, 0⟩, ⟨15, 8, .ro, 0⟩, ⟨4, 0, .ro, 0⟩]⟩,
  ⟨"CAL_DRAM_IDX", 0x00090310, [], [⟨5, 5, .rw, 0⟩, ⟨4, 0, .rw, 0⟩]⟩,
  ⟨"CAL_DRAM_BIT", 0x00090314, [], [⟨31, 24, .ro, 0⟩, ⟨23, 16, .ro, 0⟩, ⟨15, 8, .ro, 0⟩, ⟨7, 0, .ro, 0⟩]⟩]

/-- The rows of spec/18_configuration_and_commands.md. -/
def rows18 : List RegRow := [
  ⟨"CFG_BOOT", 0x00003000, [], [⟨31, 28, .ro, 0⟩, ⟨27, 24, .ro, 0⟩, ⟨8, 8, .ro, 0⟩, ⟨1, 0, .ro, 3⟩]⟩,
  ⟨"CFG_SEQ_A", 0x00003004, [], [⟨31, 0, .ro, 0⟩]⟩,
  ⟨"CFG_SEQ_B", 0x00003008, [], [⟨31, 0, .ro, 0⟩]⟩,
  ⟨"CFG_FLAGS", 0x0000300C, [], [⟨0, 0, .ro, 0⟩]⟩,
  ⟨"CFG_STAGE_STAT", 0x00003010, [], [⟨31, 24, .rw, 0⟩, ⟨23, 16, .rw, 0⟩, ⟨7, 0, .ro, 0⟩]⟩,
  ⟨"CFG_NVM", 0x00003014, [], [⟨31, 28, .ro, 0⟩, ⟨1, 0, .ro, 0⟩]⟩,
  ⟨"CMD_MGMT", 0x00004000, [], [⟨31, 24, .rw, 0⟩, ⟨23, 16, .rw, 0⟩, ⟨0, 0, .rw, 0⟩]⟩,
  ⟨"CMD_STATUS", 0x00004004, [], [⟨26, 24, .ro, 0⟩, ⟨21, 16, .ro, 0⟩, ⟨13, 8, .ro, 0⟩, ⟨1, 0, .ro, 0⟩]⟩,
  ⟨"CMD_STAT", 0x00004008, [], [⟨31, 16, .rw, 0⟩, ⟨15, 0, .rw, 0⟩]⟩,
  ⟨"CMD_AUTH", 0x0000400C, [], [⟨31, 16, .rw, 0⟩, ⟨15, 0, .rw, 0⟩]⟩,
  ⟨"CMD_REPLAY_LO", 0x00004010, [], [⟨31, 0, .ro, 0⟩]⟩,
  ⟨"CMD_REPLAY_HI", 0x00004014, [], [⟨31, 0, .ro, 0⟩]⟩,
  ⟨"CMD_DROP", 0x00004018, [], [⟨15, 0, .rw, 0⟩]⟩]

/-- The rows of spec/19_power_and_wake.md. -/
def rows19 : List RegRow := [
  ⟨"PWR_STATE", 0x00002000, [], [⟨5, 4, .ro, 0⟩, ⟨1, 0, .ro, 0⟩]⟩,
  ⟨"PWR_DOMAIN", 0x00002004, [], [⟨17, 0, .ro, 0⟩]⟩,
  ⟨"PWR_CTRL", 0x00002008, [], [⟨2, 0, .rw, 0⟩]⟩,
  ⟨"PWR_AO_STATUS", 0x0000200C, [], [⟨8, 8, .w1c, 0⟩, ⟨7, 0, .ro, 1⟩]⟩,
  ⟨"PWR_STAT", 0x00002010, [], [⟨31, 16, .rw, 0⟩, ⟨15, 8, .rw, 0⟩, ⟨7, 0, .rw, 0⟩]⟩]

/-- The rows of spec/20_rtc.md. -/
def rows20 : List RegRow := [
  ⟨"RTC_CTRL", 0x00018000, [], [⟨0, 0, .rwsc, 0⟩]⟩,
  ⟨"RTC_STATUS", 0x00018004, [], [⟨2, 2, .w1c, 0⟩, ⟨1, 1, .w1c, 0⟩, ⟨0, 0, .ro, 0⟩]⟩,
  ⟨"RTC_SEC", 0x00018010, [], [⟨31, 16, .ro, 0⟩, ⟨5, 0, .rw, 0⟩]⟩,
  ⟨"RTC_MIN", 0x00018014, [], [⟨5, 0, .rw, 0⟩]⟩,
  ⟨"RTC_HOUR", 0x00018018, [], [⟨4, 0, .rw, 0⟩]⟩,
  ⟨"RTC_DAY", 0x0001801C, [], [⟨4, 0, .rw, 1⟩]⟩,
  ⟨"RTC_MONTH", 0x00018020, [], [⟨3, 0, .rw, 1⟩]⟩,
  ⟨"RTC_WDAY", 0x00018024, [], [⟨2, 0, .ro, 6⟩]⟩,
  ⟨"RTC_YEAR", 0x00018028, [], [⟨7, 0, .rw, 0⟩]⟩,
  ⟨"RTC_LEAP", 0x00018030, [], [⟨31, 31, .rw, 0⟩, ⟨30, 30, .rw, 0⟩, ⟨23, 16, .rw, 0⟩, ⟨11, 8, .rw, 0⟩, ⟨4, 0, .rw, 0⟩]⟩,
  ⟨"RTC_TAI", 0x00018034, [], [⟨7, 0, .rw, 37⟩]⟩,
  ⟨"RTC_TRIM", 0x00018040, [], [⟨15, 0, .rw, 0⟩]⟩,
  ⟨"RTC_TRIM_CTRL", 0x00018044, [], [⟨31, 16, .rw, 1000⟩, ⟨1, 1, .rw, 1⟩, ⟨0, 0, .rw, 1⟩]⟩,
  ⟨"RTC_TRIM_MEAS", 0x00018048, [], [⟨31, 31, .ro, 0⟩, ⟨15, 0, .ro, 0⟩]⟩,
  ⟨"RTC_ALM_TIME", 0x00018050, [(2, 0x10)], [⟨26, 24, .rw, 0⟩, ⟨20, 16, .rw, 0⟩, ⟨13, 8, .rw, 0⟩, ⟨5, 0, .rw, 0⟩]⟩,
  ⟨"RTC_ALM_DATE", 0x00018054, [(2, 0x10)], [⟨23, 16, .rw, 0⟩, ⟨11, 8, .rw, 0⟩, ⟨4, 0, .rw, 0⟩]⟩,
  ⟨"RTC_ALM_CTRL", 0x00018058, [(2, 0x10)], [⟨15, 15, .rw, 0⟩, ⟨14, 8, .rw, 0⟩, ⟨2, 2, .rw, 1⟩, ⟨1, 1, .w1c, 0⟩, ⟨0, 0, .w1c, 0⟩]⟩]

/-- The rows of spec/21_reliability_and_ordering.md. -/
def rows21 : List RegRow := [
  ⟨"EVT_RST_CAUSE", 0x00001800, [], [⟨31, 16, .rw, 0⟩, ⟨3, 0, .ro, 1⟩]⟩,
  ⟨"EVT_RECOVERY", 0x00001804, [], [⟨31, 28, .ro, 0⟩, ⟨27, 16, .rw, 0⟩, ⟨15, 0, .rw, 0⟩]⟩,
  ⟨"EVT_FATAL", 0x00001808, [], [⟨27, 24, .ro, 0⟩, ⟨23, 16, .ro, 0⟩, ⟨15, 0, .rw, 0⟩]⟩]

/-- The rows of spec/22_events_and_monitors.md. -/
def rows22 : List RegRow := [
  ⟨"EVT_STATUS_LO", 0x00001000, [], [⟨31, 0, .w1c, 0⟩]⟩,
  ⟨"EVT_STATUS_HI", 0x00001004, [], [⟨31, 0, .w1c, 0⟩]⟩,
  ⟨"EVT_ENABLE_LO", 0x00001008, [], [⟨31, 0, .rw, 4294967295⟩]⟩,
  ⟨"EVT_ENABLE_HI", 0x0000100C, [], [⟨31, 0, .rw, 4294967295⟩]⟩,
  ⟨"EVT_ROUTE", 0x00001010, [(1, 0x4)], [⟨31, 0, .rw, 278544⟩]⟩,
  ⟨"EVT_ROUTE", 0x00001014, [(2, 0x4)], [⟨31, 0, .rw, 0⟩]⟩,
  ⟨"EVT_ROUTE", 0x0000101C, [(1, 0x4)], [⟨31, 0, .rw, 1074003968⟩]⟩,
  ⟨"EVT_LOG_STAT", 0x00001020, [], [⟨26, 16, .ro, 0⟩, ⟨15, 0, .rw, 0⟩]⟩,
  ⟨"EVT_NOTIFY", 0x00001024, [], [⟨31, 24, .rw, 0⟩, ⟨15, 8, .rw, 0⟩, ⟨7, 0, .rw, 0⟩]⟩,
  ⟨"EVT_LOG_REC", 0x00001030, [(4, 0x4)], [⟨31, 0, .ro, 0⟩]⟩,
  ⟨"MON_CFG", 0x000A0000, [(32, 0x100)], [⟨31, 28, .rw, 0⟩, ⟨16, 16, .rw, 0⟩, ⟨12, 0, .rw, 0⟩]⟩,
  ⟨"MON_WIN", 0x000A0004, [(32, 0x100)], [⟨31, 31, .rw, 0⟩, ⟨30, 16, .rw, 1⟩, ⟨15, 0, .rw, 1000⟩]⟩,
  ⟨"MON_BASE", 0x000A0008, [(32, 0x100)], [⟨31, 0, .rw, 0⟩]⟩,
  ⟨"MON_THR_CFG", 0x000A000C, [(32, 0x100)], [⟨3, 3, .rw, 0⟩, ⟨2, 0, .rw, 0⟩]⟩,
  ⟨"MON_THR", 0x000A0010, [(32, 0x100)], [⟨31, 0, .rw, 0⟩]⟩,
  ⟨"MON_STATUS", 0x000A0020, [(32, 0x100)], [⟨16, 16, .ro, 0⟩, ⟨15, 0, .ro, 0⟩]⟩,
  ⟨"MON_MIN", 0x000A0024, [(32, 0x100)], [⟨31, 0, .ro, 2147483647⟩]⟩,
  ⟨"MON_MAX", 0x000A0028, [(32, 0x100)], [⟨31, 0, .ro, 2147483648⟩]⟩,
  ⟨"MON_COUNT", 0x000A002C, [(32, 0x100)], [⟨31, 0, .ro, 0⟩]⟩,
  ⟨"MON_SUM_LO", 0x000A0030, [(32, 0x100)], [⟨31, 0, .ro, 0⟩]⟩,
  ⟨"MON_SUM_HI", 0x000A0034, [(32, 0x100)], [⟨15, 0, .ro, 0⟩]⟩,
  ⟨"MON_HIST", 0x000A0080, [(32, 0x100), (32, 0x4)], [⟨31, 0, .ro, 0⟩]⟩]

/-- The rows of spec/23_electrical_and_package.md. -/
def rows23 : List RegRow := [
  ⟨"GPIO_DIR", 0x00002400, [], [⟨23, 0, .rw, 0⟩]⟩,
  ⟨"GPIO_OUT", 0x00002404, [], [⟨23, 0, .rw, 0⟩]⟩,
  ⟨"GPIO_IN", 0x00002408, [], [⟨23, 0, .ro, 0⟩]⟩,
  ⟨"GPIO_PULL", 0x0000240C, [], [⟨23, 0, .rw, 16777215⟩]⟩,
  ⟨"GPIO_FILT", 0x00002410, [(6, 0x4)], [⟨7, 0, .rw, 10⟩, ⟨15, 8, .rw, 10⟩, ⟨23, 16, .rw, 10⟩, ⟨31, 24, .rw, 10⟩]⟩]

/-- The blocks of the address map (R29 to R31) with the rows that lie in each, and, above the 32-bit space, the shared SRAM, the core
I/O registers and the cipher job windows, which the Command Port does not address by their own address. -/
def blockMap : List (Nat × Nat × List RegRow) := [
  (0x0, 0x1000, rows01),
  (0x1000, 0x2000, rows22 ++ rows21),
  (0x2000, 0x3000, rows19 ++ rows23),
  (0x3000, 0x5000, rows18),
  (0x5000, 0x6000, rows01),
  (0x10000, 0x18000, rows02),
  (0x18000, 0x20000, rows20),
  (0x20000, 0x28000, rows14),
  (0x30000, 0x40000, rows12),
  (0x40000, 0x50000, rows13),
  (0x50000, 0x60000, rows15),
  (0x60000, 0x70000, rows16),
  (0x70000, 0x80000, rows09),
  (0x80000, 0x90000, rows08 ++ rows07),
  (0x90000, 0xA0000, rows17),
  (0xA0000, 0xB0000, rows22),
  (0x400000, 0x500000, rows12),
  (0x600000, 0x700000, rows12),
  (0x800000, 0x1000000, rows08),
  (0x1000000, 0x2000000, rows10),
  (0x2000000, 0x2300000, rows04 ++ rows05),
  (0x102000000, 0x103000000, rows06),
  (0x104000000, 0x105000000, rows10),
  (0x105000000, 0x106000000, rows15)]

/-- Does the offset lie on an element of an array with these (count, stride) indices, outermost first? -/
def inDims : List (Nat × Nat) → Nat → Bool
  | [], off => off == 0
  | (n, st) :: rest, off => decide (off / st < n) && inDims rest (off % st)

/-- Is the address one of the row's registers? -/
def RegRow.covers (r : RegRow) (a : Nat) : Bool :=
  decide (r.base ≤ a) && inDims r.dims (a - r.base)

/-- The rows of the block that holds the address; none outside every listed block (R29). -/
def blockRows (a : Nat) : List (Nat × Nat × List RegRow) → List RegRow
  | [] => []
  | (lo, hi, rs) :: rest => if lo ≤ a && a < hi then rs else blockRows a rest

/-- The row of the register at an address, where the map has one (R29, R33). -/
def rowAt (a : Nat) : Option RegRow :=
  (blockRows a blockMap).find? (fun r => r.covers a)

/-- The reset word of a list of fields: each field at its reset value, reserved bits 0 (R11). -/
def fieldsReset : List FieldRow → Nat
  | [] => 0
  | f :: rest => (f.reset % 2 ^ (f.hi - f.lo + 1)) * 2 ^ f.lo + fieldsReset rest

/-- The Gaussian of R71 with BT = 0.5 at the middles of 48 sixteenths of a symbol, as fractions of 32,768: what a shaping table holds at reset (R157; the
places and the scale of its words are the model's, DESIGN CHOICE, log entry 229). -/
def gaussianTable : List Nat :=
  [4, 10, 24, 52, 110, 217, 411, 737, 1260, 2053, 3188, 4728, 6703, 9100, 11854, 14844, 17918, 20904, 23644, 26013, 27931, 29362, 30305, 30770] ++
  [30770, 30305, 29362, 27931, 26013, 23644, 20904, 17918, 14844, 11854, 9100, 6703, 4728, 3188, 2053, 1260, 737, 411, 217, 110, 52, 24, 10, 4]

/-- The address of a word of a shaping table (R157). -/
def inShaping (a : Nat) : Bool :=
  decide (0x2000000 ≤ a) && decide (a < 0x2300000) && decide (0x44000 ≤ a % 0x100000) && decide (a % 0x100000 < 0x44500) && decide (a % 256 < 192)
    && a % 4 == 0

/-- What a register that nothing has written holds: its reset word; 0 where the map has no register. -/
def resetWord (a : Nat) : Word :=
  if inShaping a then BitVec.ofNat 32 (gaussianTable.getD (a % 256 / 4) 0)
  else match rowAt a with
    | some r => BitVec.ofNat 32 (fieldsReset r.fields)
    | none => 0

/-- The bits of a register that belong to fields of one of the named access codes. -/
def fieldsMask (sel : Acc → Bool) : List FieldRow → Nat
  | [] => 0
  | f :: rest =>
    (if sel f.acc then (2 ^ (f.hi - f.lo + 1) - 1) * 2 ^ f.lo else 0) + fieldsMask sel rest

/-- The mask of a register's bits with one of the selected access codes; 0 where the map has no register. -/
def accMask (sel : Acc → Bool) (a : Nat) : Word :=
  match rowAt a with
  | some r => BitVec.ofNat 32 (fieldsMask sel r.fields)
  | none => 0

end Sys2Proof.Machine
end

