-- ==== Sys2Proof/Machine/SMap.lean ====
section
/-! DEFINITION. A sparse table: a list of key and value pairs in one canonical form, keys strictly rising and no entry equal to what an unlisted
key reads as. Registers, memories, and the tables of entries are all held this way. -/

namespace Sys2Proof.Machine

/-- A sparse table. -/
abbrev SMap (α : Type) := List (Nat × α)

/-- What key k reads as; an unlisted key reads as dflt k. -/
def smGet (dflt : Nat → α) : SMap α → Nat → α
  | [], k => dflt k
  | (k', v) :: rest, k => if k = k' then v else smGet dflt rest k

/-- The table without an entry at key k. -/
def smErase : SMap α → Nat → SMap α
  | [], _ => []
  | (k', v) :: rest, k => if k' = k then smErase rest k else (k', v) :: smErase rest k

/-- The table with an entry at key k, kept in rising order of keys. -/
def smInsert (k : Nat) (v : α) : SMap α → SMap α
  | [] => [(k, v)]
  | (k', v') :: rest =>
    if k < k' then (k, v) :: (k', v') :: rest
    else if k = k' then (k, v) :: rest
    else (k', v') :: smInsert k v rest

/-- The table with key k reading as v, in canonical form. -/
def smSet [DecidableEq α] (dflt : Nat → α) (m : SMap α) (k : Nat) (v : α) : SMap α :=
  if v = dflt k then smErase m k else smInsert k v m

/-- The table with the keys from a on reading as the values of a list, in canonical form. -/
def smWrite [DecidableEq α] (dflt : Nat → α) (m : SMap α) (a : Nat) (vs : List α) : SMap α :=
  m.filter (fun p => decide (p.1 < a)) ++ ((vs.zipIdx a).filter (fun p => decide (p.1 ≠ dflt p.2))).map (fun p => (p.2, p.1))
    ++ m.filter (fun p => decide (a + vs.length ≤ p.1))

/-- The entry at key k, where the table lists one. -/
def smFind (m : SMap α) (k : Nat) : Option α := (m.find? (fun p => p.1 == k)).map (·.2)

/-- The table with the entries from key lo up to but not including hi removed. -/
def smClear (m : SMap α) (lo hi : Nat) : SMap α := m.filter (fun p => !(decide (lo ≤ p.1) && decide (p.1 < hi)))

/-- Keys strictly rising. -/
def smSorted : SMap α → Bool
  | [] => true
  | [_] => true
  | (k, _) :: (k', v') :: rest => decide (k < k') && smSorted ((k', v') :: rest)

/-- The canonical form: keys strictly rising, no entry equal to what an unlisted key reads as. -/
def smWf [DecidableEq α] (dflt : Nat → α) (m : SMap α) : Bool :=
  smSorted m && m.all (fun p => decide (p.2 ≠ dflt p.1))

/-- The first key from k on that a sorted table does not list. -/
def smGap : SMap α → Nat → Nat
  | [], k => k
  | (k', _) :: rest, k => if k' < k then smGap rest k else if k' = k then smGap rest (k + 1) else k

/-- The lowest key of [0, n) that the table does not list. -/
def smLowestFree (m : SMap α) (n : Nat) : Option Nat := if smGap m 0 < n then some (smGap m 0) else none

end Sys2Proof.Machine
end

