-- ==== Sys2Proof/Machine/State.lean ====
section
/-! DEFINITION. The state: everything the spec gives the block, as plain data, and the queue of commands that wait. -/

namespace Sys2Proof.Machine

/-! ## Events (22_events_and_monitors.md) -/

/-- A log record, its four words (R486). -/
structure LogRec where
  w0 : Word
  w1 : Word
  w2 : Word
  w3 : Word
deriving DecidableEq, Repr, Inhabited

/-- An event raised in this step and not yet logged (R482, R485): its source, unit, detail, advanced sequence number, NT of the raise, whether it
is enabled, and whether it was raised while the HUB was off. -/
structure PendEvt where
  src : Nat
  unit : Nat
  detail : Nat
  seq : Nat
  at_ : Nat
  enabled : Bool
  late : Bool
deriving DecidableEq, Repr, Inhabited

/-- The event system's own state. -/
structure Evt where
  /-- Sequence number of each source (R482). -/
  seq : SMap Nat
  /-- Events raised in this step, logged at its end in ascending source number (R485). -/
  pend : List PendEvt
  /-- The log, oldest record first, up to 1,024 records (R485). -/
  log : List LogRec
  /-- The latched record (R487). -/
  latch : Option LogRec
  /-- Notifications collected for the next management frames, with their sources (R483). -/
  mgmtOut : List (Nat × LogRec)
  /-- Events raised while the HUB was off, in order of occurrence: source, unit, detail (R485). -/
  lateq : List (Nat × Nat × Nat)
  /-- Event 6 is armed (R488, R511). -/
  arm6 : Bool
  /-- A temperature trip is in progress (R125, R511). -/
  trip : Bool
deriving DecidableEq, Repr, Inhabited

def Evt.reset : Evt := ⟨[], [], [], none, [], [], true, false⟩

/-! ## String links (01_architecture.md) -/

/-- A flit in a replay buffer (R17): its sequence number, type, payload and how often it was resent. -/
structure FlitRec where
  seq : Nat
  ty : Nat
  payload : Bytes
  resent : Nat
deriving DecidableEq, Repr, Inhabited

/-- One direction of a string link (R16 to R18). -/
structure LinkDir where
  /-- Sequence number of the next flit to send. -/
  next : Nat
  /-- The replay buffer, oldest flit first, up to 64 flits. -/
  replay : List FlitRec
  /-- Pieces of transfers that the sender holds back because the buffer is full: type and payload (R17). -/
  stalled : List (Nat × Bytes)
  /-- The sender resends from its replay buffer until the flit with this sequence number is acknowledged (R18). -/
  resendTo : Option Nat
  /-- The flits this direction put on the lanes in the last step that sent any: the bytes each lane carried of each (R16). -/
  wire : List (List (Nat × Bytes))
  /-- The sequence number the receiver expects next. -/
  expect : Nat
  /-- The receiver discards until it gets the flit it expects (R18). -/
  discarding : Bool
  /-- The next flit the receiver's side sends carries a nak. -/
  nakOwed : Bool
  /-- Delivered flits, oldest first: type and payload. -/
  delivered : List (Nat × Bytes)
deriving DecidableEq, Repr, Inhabited

def LinkDir.reset : LinkDir := ⟨0, [], [], none, [], 0, false, false, []⟩

/-- A string link: its lanes and its two directions, out of the HUB and into it. -/
structure Link where
  /-- Lanes retired, bit k for lane k (R22 to R25). -/
  retired : Nat
  /-- The failed data lane whose bytes lane 8 carries (R22). -/
  spared : Option Nat
  up : Bool
  retraining : Bool
  /-- No good lane is left: the die is isolated (R24). -/
  isolated : Bool
  /-- Block-check errors of each lane inside the running window: lane and XO count (R21). -/
  laneErrs : List (Nat × Nat)
  out : LinkDir
  in_ : LinkDir
deriving DecidableEq, Repr, Inhabited

def Link.reset : Link := ⟨0, none, false, false, false, [], LinkDir.reset, LinkDir.reset⟩

/-! ## Abacus monitors (22_events_and_monitors.md) -/

/-- The statistics of one window (R491). -/
structure MonStat where
  min_ : Int
  max_ : Int
  count : Nat
  sum : Int
  hist : SMap Nat
deriving DecidableEq, Repr, Inhabited

def MonStat.empty : MonStat := ⟨0x7FFFFFFF, -0x80000000, 0, 0, []⟩

/-- The result registers of an instance (R490). -/
structure MonRes where
  stat : MonStat
  seq : Nat
  stepped : Bool
deriving DecidableEq, Repr, Inhabited

def MonRes.reset : MonRes := ⟨MonStat.empty, 0, false⟩

/-- One Abacus instance. -/
structure Mon where
  cur : MonStat
  last : MonRes
  /-- The latched results and the XO count at the latch (R493). -/
  latch : Option (MonRes × Nat)
  /-- The comparison held for the previous window (R492). -/
  held : Bool
deriving DecidableEq, Repr, Inhabited

def Mon.reset : Mon := ⟨MonStat.empty, MonRes.reset, none, false⟩

/-! ## Power, boot and the Command Port (18_configuration_and_commands.md, 19_power_and_wake.md) -/

/-- The states of the AO status byte (R447). -/
inductive PwrMode where
  | run | vigil | dormant | wakeFail
deriving DecidableEq, Repr, Inhabited

/-- A state entry in progress (R442, R443): toward DORMANT or VIGIL, and which group of domains drains. -/
structure PwrEntry where
  dormant : Bool
  /-- Draining: the baseband domains (true) or the radio domains. -/
  basebands : Bool
deriving DecidableEq, Repr, Inhabited

/-- A wake in progress (R448): its stage 1 to 4, the timeouts of that stage so far, and the state it left: 1 VIGIL, 2 DORMANT, 3 WAKE_FAIL. -/
structure Wake where
  stage : Nat
  timeouts : Nat
  from_ : Nat
deriving DecidableEq, Repr, Inhabited

/-- Power and reset. -/
structure Pwr where
  /-- AO is powered. -/
  aoOn : Bool
  /-- The HUB is powered and out of reset. -/
  hubOn : Bool
  /-- RESET_N is held low (R478). -/
  resetLow : Bool
  /-- Brown-out holds the device (R480). -/
  brown : Bool
  /-- VIN lies outside 10.8 to 13.2 V (R476). -/
  vinOut : Bool
  /-- Cause of the reset that the coming boot records (R479). -/
  cause : Nat
  mode : PwrMode
  entry : Option PwrEntry
  wake : Option Wake
  /-- An address match awaits or drives a wake (R447). -/
  wakePending : Bool
  /-- Stage that failed last (R447). -/
  failStage : Nat
  /-- Jack holds the I2C pins (R445). -/
  jack : Bool
  /-- GPIO2 to GPIO0 as latched (R430, R504). -/
  straps : Nat
  /-- State of each domain of R437 that is not in state 1 (on): 0 off, 2 fenced, 3 powering up. -/
  doms : SMap Nat
  /-- The management MAC of the VIGIL entry under way or held (R441). -/
  mgmtMac : Nat
  /-- The domains that the VIGIL entry turned off (R448). -/
  vigilOff : List Nat
deriving DecidableEq, Repr, Inhabited

def Pwr.reset : Pwr := ⟨true, true, false, false, false, 1, .run, none, none, false, 0, false, 0, [], 0, []⟩

/-- Where boot stands (R420). -/
inductive BootPhase where
  | idle | applying | run | fail
deriving DecidableEq, Repr, Inhabited

/-- Boot's own state. -/
structure Boot where
  phase : BootPhase
  /-- The copy whose records are being applied: 0 A, 1 B. -/
  cur : Nat
  /-- The words of the copy's body that are left. -/
  rest : List Word
  /-- The POLL record waited on: address, mask, value (R419). -/
  poll : Option (Nat × Nat × Nat)
  /-- XO count at which that POLL times out. -/
  pollBy : Nat
  /-- The copies still to try after this one. -/
  others : List Nat
  /-- The copy in force (R420, R434). -/
  inForce : Option Nat
deriving DecidableEq, Repr, Inhabited

def Boot.reset : Boot := ⟨.idle, 0, [], none, 0, [], none⟩

/-- A command in the queue (R423, R428). -/
structure Cmd where
  /-- It came in a management frame. -/
  mgmt : Bool
  /-- The number of its management frame. -/
  frame : Nat
  op : Nat
  tag : Nat
  addr : Nat
  arg : Nat
  data : Bytes
  /-- Its byte count disagrees with its op and arg (R430). -/
  bad : Bool
  /-- An ABORT has targeted it (R428). -/
  targeted : Bool
  /-- Targeted before its commit point. -/
  aborted : Bool
  /-- For an ABORT: the status it completes with. -/
  outcome : Nat
  /-- Its queue entry was lost (R466). -/
  lost : Bool
deriving DecidableEq, Repr, Inhabited

/-- A completion record (R426) or an event notification record (R483). -/
structure CmdRec where
  notif : Bool
  op : Nat
  status : Nat
  tag : Nat
  abortLate : Bool
  partial_ : Bool
  detail : Nat
  data : Bytes
deriving DecidableEq, Repr, Inhabited

/-- A management frame under service (R433): its number, the commands of it not yet complete, its completions, and where its source is. -/
structure MgmtReply where
  frame : Nat
  left : Nat
  done : List CmdRec
  ip : Bytes
  udp : Nat
deriving DecidableEq, Repr, Inhabited

/-- A management frame that waits for the replay-counter log (R474): its counter, and its commands. -/
structure MgmtWait where
  counter : Nat
  body : Bytes
  ip : Bytes
  udp : Nat
deriving DecidableEq, Repr, Inhabited

/-- The command that executes over several steps (R428): the words of a READ, WRITE or TABLE_WRITE done so far, with what the READ has
read and whether a word was refused; an NVM phase; or a POWER domain command. -/
inductive CmdBusy where
  | words (done : Nat) (data : Bytes) (refused : Bool)
  | nvmOpen | nvmData | nvmClose
  | domain (code : Nat) (up : Bool)
deriving DecidableEq, Repr, Inhabited

/-- The Command Port. -/
structure CmdPort where
  /-- Commands queued or executing, oldest first, up to 32 (R429). -/
  queue : List Cmd
  /-- The command at the head of the queue executes over several steps. -/
  busy : Option CmdBusy
  /-- Unread I2C records in the order in which they were placed (R430). -/
  i2c : List CmdRec
  /-- The bytes the last I2C read transaction returned; the model's own field (log entry 2). -/
  i2cOut : Bytes
  /-- Completions of management frames, frame by frame (R433). -/
  replies : List MgmtReply
  /-- Number of the next management frame. -/
  nextFrame : Nat
  /-- Last accepted replay counter (R431, R432). -/
  replay : Nat
  /-- The TT3008's own counter of R433. -/
  own : Nat
  /-- Record number of the replay-counter log, and the value being logged (R474). -/
  logNo : Nat
  logging : Option Nat
  /-- Frames that wait for the log write (R474). -/
  waiting : List MgmtWait
deriving DecidableEq, Repr, Inhabited

def CmdPort.reset : CmdPort := ⟨[], none, [], [], [], 0, 0, 0, 0, none, []⟩

/-- A configuration stage (R435, R436): its pairs, whether it is armed, and its place among fired takeovers. -/
structure Stage where
  pairs : List (Nat × Word)
  armed : Bool
deriving DecidableEq, Repr, Inhabited

def Stage.reset : Stage := ⟨[], false⟩

/-- The pins the block drives (R503). -/
structure Pins where
  /-- ALARM_N is asserted (R484). -/
  alarm : Bool
  /-- RTC_ALARM_N is asserted (R461). -/
  rtcAlarm : Bool
  /-- PPS_OUT: undriven, or its level (R53). -/
  ppsOut : Option Bool
  /-- Which GPIO pins are driven, and to what levels (R505). -/
  gpioDir : Nat
  gpioOut : Nat
  /-- XAMP_BIAS, XAMP_TRSW, XAMP_EN of each radio as bits 0 to 2; none while undriven (R133). -/
  xamp : List (Option Nat)
  /-- ETHn_TXDIS: the pins driven low and those driven high, bit n (R503). -/
  txdisLow : Nat
  txdisHigh : Nat
  /-- ETHn_3V3 outputs on, bit n (R500). -/
  cages : Nat
  /-- Jack, not the Command Port, has the I2C pins (R445, R503). -/
  jackHasI2c : Bool
deriving DecidableEq, Repr, Inhabited

/-! ## Clockwork (02_clockwork.md) -/

/-- One of the three references (R44 to R48): its run of accepted samples, the XO count at its last accepted sample, and the last_fault code of
its latest rejection since that sample. Its validity stands in CLK_STATUS. -/
structure RefSt where
  run : Nat
  at_ : Option Nat
  rej : Nat
deriving DecidableEq, Repr, Inhabited

def RefSt.reset : RefSt := ⟨0, none, 0⟩

/-- Clockwork's own state; what its registers show stands in the registers. -/
structure Clk where
  ptp : RefSt
  pps : RefSt
  ref : RefSt
  /-- The followed master (R45). -/
  master : Option Nat
  /-- sequenceId of the last accepted PTP sample (R47). -/
  ptpSeq : Option Nat
  /-- The reference's time at the last accepted PTP sample less the XO count, ns (R47). -/
  ptpLead : Option Int
  /-- The two-step Sync that waits for its Follow_Up: sequenceId and ingress time (R45). -/
  sync2 : Option (Nat × Nat)
  /-- Times t1 and t2 of the last Sync, and the path delay found from the last Delay_Resp, ns (R45). -/
  syncT : Option (Int × Int)
  delay : Int
  /-- sequenceId of the next Delay_Req, and the last one sent: its sequenceId and, once it has left, its egress timestamp in NT (R45, R360). -/
  delaySeq : Nat
  delayReq : Option (Nat × Option Nat)
  /-- Agreeing PPS_IN edges in a row and the XO count of the last accepted one less in_delay (R47). -/
  ppsAgree : Nat
  ppsLast : Option Int
  /-- TAI seconds of the last accepted PPS_IN edge (R49). -/
  ppsTod : Option Nat
  /-- Consecutive offsets within 1 us (R50). -/
  good : Nat
  /-- LOCKED since reset (R51). -/
  everLocked : Bool
  /-- Event 16 has been raised since reset (R422). -/
  lockedOnce : Bool
  /-- Offset that slewing removes, and the NT at which it began (R54). -/
  slew : Int × Nat
  /-- A step that waits for the next 1 ms boundary, and one that waits for the quiet slot (R55). -/
  stepMs : Option Int
  stepQuiet : Option Int
  /-- The quiet slot in force (R42). -/
  quiet : Nat
  /-- The NT snapshot and the XO count at its latch (R40). -/
  snap : Option (Nat × Nat)
  /-- Sum and number of the offsets of this superframe's good bursts, ppb (R52). -/
  holdSum : Rat
  holdN : Nat
  /-- The loop trim: the frequency correction, relative to XO's free-running frequency, that the disciplining loop has in force, ppb (R26, R51, R111). -/
  loopTrim : Int
  /-- NT at which PPS_OUT rose, while it is high (R53). -/
  ppsRise : Option Nat
  /-- Absolute number of the latest slot start served (R57). -/
  lastSlot : Option Nat
deriving DecidableEq, Repr

def Clk.reset : Clk where
  ptp := RefSt.reset
  pps := RefSt.reset
  ref := RefSt.reset
  master := none
  ptpSeq := none
  ptpLead := none
  sync2 := none
  syncT := none
  delay := 0
  delaySeq := 0
  delayReq := none
  ppsAgree := 0
  ppsLast := none
  ppsTod := none
  good := 0
  everLocked := false
  lockedOnce := false
  slew := (0, 0)
  stepMs := none
  stepQuiet := none
  quiet := 255
  snap := none
  holdSum := 0
  holdN := 0
  loopTrim := 0
  ppsRise := none
  lastSlot := none

/-- An armed entry of the action list (R58 to R61). -/
structure Act where
  time : Nat
  ty : Nat
  target : Nat
  arg : Nat
deriving DecidableEq, Repr, Inhabited

/-! ## Radios and Kaleidoscopes (04_radios.md, 05_kaleidoscope.md) -/

/-- A transmit descriptor as read from its 32 bytes (R154). -/
structure TxDesc where
  idx : Nat
  k0 : Nat
  /-- Group size field: 0 one, 1 two, 2 four, 3 invalid. -/
  size : Nat
  mode : Nat
  backoff : Nat
  pre : Int
  count : Nat
  last : Bool
  next : Nat
  buf : Nat
deriving DecidableEq, Repr, Inhabited

/-- A carrier on air: its descriptor, the burst set it belongs to (its handle), its port, its start and end in ns of NT, the level of one sub-channel
as total, back-off and share at its start (R123), and its symbols. -/
structure Carrier where
  desc : TxDesc
  set : Nat
  port : Nat
  start : Nat
  stop : Nat
  /-- min(total, p_pa - pa_backoff) - b in 0.25 dBm, and the share. -/
  level : Int
  share : Nat
  symbols : Bytes
  /-- The levels its symbols are sent at, the shaping table in force at its start, and the word of its NCO (R155 to R157). -/
  levels : List Int
  shape : List Nat
  nco : Nat
deriving DecidableEq, Repr, Inhabited

/-- A burst set that the radio holds until it can transmit (R121): its handle, T, and its bursts. -/
structure HeldSet where
  handle : Nat
  time : Nat
  bursts : List TxDesc
deriving DecidableEq, Repr, Inhabited

/-- A radio's own state; what its registers show stands in the registers. -/
structure Radio where
  /-- The change in progress was commanded by RAD_STATE or POWER (R116). -/
  commanded : Bool
  /-- The change in progress was forced by a fault under R114, R125 or R134 (R116). -/
  forced : Bool
  /-- The radio has started to leave for TX (R118). -/
  leaving : Bool
  /-- Lock was lost in TX, and the radio is on its way to the state in which that change ends (R114, R118). -/
  returning : Bool
  /-- Target of a RAD_STATE action that fired in TX (R117). -/
  after : Option Nat
  /-- Centre frequency in force, Hz (R110, R112). -/
  fc : Nat
  /-- VCO frequency in Hz and temperature in 1/16 degree at the last VCO calibration (R113). -/
  vcoAt : Option Nat
  vcoTemp : Option Int
  /-- A VCO calibration runs in a CAL_QUIET action (R409). -/
  vcoQuiet : Bool
  held : List HeldSet
  air : List Carrier
  /-- XAMP outputs asserted: bit 0 BIAS, bit 1 TRSW, bit 2 EN (R133). -/
  xamp : Nat
  /-- NT from which the release steps count, and whether EN is released at it already (R133, R134). -/
  release : Option (Nat × Bool)
  /-- XO count at which XAMP_FLT counted, while flt_hold blocks (R134). -/
  fltAt : Option Nat
  /-- Consecutive burst sets of each port below tx_rl, and quiet slots below rx_fault (R135). -/
  rl0 : Nat
  rl1 : Nat
  rx0 : Nat
  rx1 : Nat
  /-- Ports out of reception, bit p: those marked, until the quiet slot after the mark is cleared (R136, R137). -/
  rxOut : Nat
  /-- Closed stretches of each entry's band in us of XO: entry, start, stop (R130). -/
  duty : List (Nat × Nat × Nat)
  /-- Start of the running stretch of each entry's band, us of XO. -/
  dutyOn : SMap Nat
  /-- Entries whose meter stands above the warning level, bit e (R130). -/
  warned : Nat
  /-- The Region Profile fuse blow in progress: register address and bits (R128). -/
  blow : Option (Nat × Nat)
  /-- The NT of each change of what the radio does for the samples' sake, newest first, and what it does from it on: 1 it receives, 2 it is in TX, 0
  neither (R97, R114, R141). -/
  rxLog : List (Nat × Nat)
deriving DecidableEq, Repr, Inhabited

def Radio.reset : Radio :=
  ⟨false, false, false, false, none, 0, none, none, false, [], [], 0, none, none, 0, 0, 0, 0, 0, [], [], 0, none, []⟩

/-- The smoothed sums of one sub-channel's diversity combiner (R143). -/
structure Divers where
  p0 : Rat
  p1 : Rat
  cRe : Rat
  cIm : Rat
  ref1 : Bool
deriving DecidableEq, Repr

def Divers.reset : Divers := ⟨0, 0, 0, 0, false⟩

/-- A capture in use (R148): its kind (1 scheduled run, 2 join detection), sub-channel, NT of sample 0, its samples, the task it feeds, and the samples it
has taken so far, by number; one it has not taken is marked as not received. -/
structure Capture where
  kind : Nat
  sub : Nat
  start : Nat
  samples : Nat
  task : Option Nat
  data : SMap IQ
deriving DecidableEq, Repr, Inhabited

/-- 1 ms of a radio's combined streams (R138, R141, R143): the NT millisecond it begins, and 30 samples of each sub-channel. -/
structure StreamBlock where
  ms : Nat
  iq : List (List IQ)
deriving DecidableEq, Repr, Inhabited

/-- A slot that has ended or runs (R145, R152): its absolute number, the intervals with ADC overload, its bonding map, and the detections of each
sub-channel. -/
structure SlotRec where
  slot : Nat
  ovl : Nat
  bond : List Word
  det : SMap Nat
deriving DecidableEq, Repr, Inhabited

/-- A write to a word of a shaping table (R157): its NT, the word's number among the tables' words, and what it held before. -/
structure ShapeWrite where
  at_ : Nat
  word : Nat
  old : Word
deriving DecidableEq, Repr, Inhabited

/-- A Kaleidoscope's own state. -/
structure Kal where
  /-- d of the DC notch of each port (R142). -/
  dc0 : Rat × Rat
  dc1 : Rat × Rat
  /-- The notch's last 32,768 outputs on each port, oldest first: the analysis bank's input history (R138, R140). -/
  hist0 : List (Rat × Rat)
  hist1 : List (Rat × Rat)
  /-- The combined streams of the last milliseconds, newest first (R141, R143). -/
  blocks : List StreamBlock
  /-- NT of the last evaluation of each detector (R151). -/
  evals : SMap Nat
  /-- The latest writes to the shaping tables, newest first (R157). -/
  shapeLog : List ShapeWrite
  divs : SMap Divers
  /-- Sub-channels whose last evaluation reached the threshold (R151). -/
  primed : List Nat
  /-- Join detectors that make no detection before the NT given (R149, R151). -/
  deaf : SMap Nat
  /-- Captures in use by number (R148). -/
  caps : SMap Capture
  /-- Detections of the running slot on each sub-channel (R152). -/
  occDet : SMap Nat
  /-- Absolute slot and NT of closing of each of the four maps (R152, R153). -/
  maps : SMap (Nat × Nat)
  /-- The slots that ended lately, newest first (R145, R152). -/
  slots : List SlotRec
  /-- ADC overload intervals of the running slot, and whether event 38 was raised in it (R161). -/
  ovl : Nat
  ovlRaised : Bool
  /-- Symbol buffers fetched ahead, by descriptor (R155). -/
  bufs : SMap Bytes
  /-- Event 39 was raised in this stretch of TX (R160). -/
  maskRaised : Bool
deriving DecidableEq, Repr

def Kal.reset : Kal := ⟨(0, 0), (0, 0), [], [], [], [], [], [], [], [], [], [], [], [], 0, false, [], false⟩

/-! ## Access scheduler and Puppeteer (08_access_scheduler.md, 09_puppeteer.md) -/

/-- A grant of a node (R104), without its address; radio 3 stands for none, or for a revoke. -/
structure Grant where
  radio : Nat
  mode : Nat
  k0 : Nat
  slot : Nat
  pilot : Bool
  dl : Bool
  period : Nat
deriving DecidableEq, Repr, Inhabited

/-- No grant. -/
def Grant.none : Grant := ⟨3, 0, 0, 0, false, false, 0⟩

/-- A grant entry that waits to be carried (R219): the context it belongs to, the entry, and its place among all entries queued. -/
structure CtlEntry where
  ctx : Nat
  grant : Grant
  stamp : Nat
deriving DecidableEq, Repr, Inhabited

/-- An entry that a burst has carried, or that a join response will carry: the superframe from which it applies, and the start of the burst (R105). -/
structure Coming where
  grant : Grant
  eff : Nat
  burst : Nat
deriving DecidableEq, Repr, Inhabited

/-- A node context (R202). The flow's create_seq, last_core and in_service stand with its flow; dq_head, dq_tail and the two counts follow from the
queues, and dirty from the registry image; misses and goods are what the demodulation firmware counts in its own bytes for R172. -/
structure Ctx where
  valid : Bool
  loading : Bool
  dualCap : Bool
  pilotHold : Bool
  pilot : Bool
  address : Nat
  joinRadio : Nat
  topMode : Nat
  bands : Nat
  declL : Nat
  mode : Nat
  keyHandle : Nat
  lastLqf : Nat
  ulCount : Nat
  dlCount : Nat
  offset : Int
  ulA : Grant
  ulB : Grant
  dlG : Grant
  ulAnchor : Nat
  dlAnchor : Nat
  lastServed : Nat
  misses : Nat
  goods : Nat
  ctl : List CtlEntry
  /-- Entries carried and not yet applied, in the order of their bursts (R105, R219). -/
  coming : List Coming
  /-- Buffers of the data messages queued, head first (R221). -/
  dq : List Nat
  /-- Superframe at which the head message became the head (R222). -/
  headAt : Nat
  /-- The radios whose uplink grant is served no more, bit r, and whether the downlink grant is (R208). -/
  ulStop : Nat
  dlStop : Bool
  /-- The first superframe of the uplink pilot state in force where a grant changed it, and whether a burst has decoded in it (R173). -/
  pilotNew : Option (Nat × Bool)
deriving DecidableEq, Repr, Inhabited

def Ctx.free : Ctx where
  valid := false
  loading := false
  dualCap := false
  pilotHold := false
  pilot := false
  address := 0
  joinRadio := 0
  topMode := 0
  bands := 0
  declL := 0
  mode := 0
  keyHandle := 0
  lastLqf := 0
  ulCount := 0
  dlCount := 0
  offset := 0
  ulA := Grant.none
  ulB := Grant.none
  dlG := Grant.none
  ulAnchor := 0
  dlAnchor := 0
  lastServed := 0
  misses := 0
  goods := 0
  ctl := []
  coming := []
  dq := []
  headAt := 0
  ulStop := 0
  dlStop := false
  pilotNew := .none

/-- A registry entry (R204): the context image, the wrapped key, its size flag, the join count, the superframe of the next run, whether its node must
join again (R466), the context behind the image with its queues, create_seq and last core, and the place of its 256 bytes from SCH_REG_BASE. -/
structure RegEntry where
  image : Bytes
  key : Bytes
  size : Nat
  joinCount : Nat
  nextRun : Nat
  needJoin : Bool
  saved : Option (Ctx × Nat × Option Nat)
  /-- Buffers of the data messages that wait for the node's first context, head first (R221). -/
  dq : List Nat
  slot : Nat
deriving DecidableEq, Repr, Inhabited

/-- A cell reserved apart from the grants of a node: a join response's run, or a cell held after it was freed (R214, R220). A period of 0 is a one-off
reservation at its anchor; a held cell is free again from superframe until_. -/
structure Resv where
  radio : Nat
  k0 : Nat
  n : Nat
  slot : Nat
  len : Nat
  anchor : Nat
  period : Nat
  dl : Bool
  held : Bool
  until_ : Nat
deriving DecidableEq, Repr, Inhabited

/-- A message of the pool (R221): its bytes and, once a burst carried it, the downlink count it keeps (R468). -/
structure DlMsg where
  body : Bytes
  count : Option Nat
deriving DecidableEq, Repr, Inhabited

/-- What a burst set armed by the scheduler carries (R187, R468): kind 0 data, 1 control entries, 2 beacon, 3 join response; its context, message and
entries; and the end of the last slot granted to it. -/
structure TxOwn where
  kind : Nat
  ctx : Nat
  buf : Nat
  msg : Option DlMsg
  entries : List CtlEntry
  stop : Nat
deriving DecidableEq, Repr, Inhabited

/-- A join response that waits for its window (R214, R223): its context, radio, sub-channel, first slot start and payload, and the count of its request
(R80, R101). -/
structure JoinResp where
  ctx : Nat
  radio : Nat
  k0 : Nat
  start : Nat
  payload : Bytes
  count : Nat
deriving DecidableEq, Repr, Inhabited

/-- A sample operand that the ring is to fill (R163, R237): the task's handle and slot, the radio, and the frames of the run. -/
structure RingFill where
  handle : Nat
  op : Nat
  radio : Nat
  slotA : Nat
  slots : Nat
deriving DecidableEq, Repr, Inhabited

/-- The access scheduler's own state. -/
structure Sched where
  ctxs : SMap Ctx
  registry : SMap RegEntry
  cells : List Resv
  /-- Number of the next control entry queued. -/
  stamp : Nat
  /-- Messages in the pool by buffer index (R221). -/
  pool : SMap DlMsg
  /-- Burst sets armed, by radio * 1024 + handle. -/
  own : SMap TxOwn
  resps : List JoinResp
  /-- Registry nodes that wait for a context (R216, R217). -/
  reloads : List Nat
  /-- A takeover of the staged direction maps waits for the superframe boundary (R208). -/
  dirTake : Bool
  /-- Absolute number of the latest slot start served, and whether event 43 was raised for it (R57, R228). -/
  served : Option Nat
  overrun : Bool
  /-- Downlink windows already opened: context indexes and the starts of their runs. -/
  windows : List (Nat × Nat)
  /-- Operands that the sample ring is to fill (R163). -/
  fills : List RingFill
  /-- Stale bursts rejected (R82). -/
  stale : Nat
deriving DecidableEq, Repr, Inhabited

def Sched.reset : Sched := ⟨[], [], [], 0, [], [], [], [], false, none, false, [], [], 0⟩

/-- What a task is about, beside its descriptor: first slot start or capture sample 0 (or T of a transmission), the link parameters, the frames it
reads (absolute slot of the first and their number), and what a transmission carries. -/
structure TaskInfo where
  start : Nat
  stop : Nat
  radioA : Nat
  radioB : Nat
  mode : Nat
  pilot : Bool
  k0A : Nat
  k0B : Nat
  krxA : Nat
  slotA : Nat
  slots : Nat
  node : Nat
  own : Option TxOwn
  /-- The burst record of the join request whose admission waits for a context (R216). -/
  joinRec : Bytes
deriving DecidableEq, Repr, Inhabited

def TaskInfo.empty : TaskInfo := ⟨0, 0, 0, 0, 0, false, 0, 0, 0, 0, 0, 0, none, []⟩

/-- What the demodulation firmware counts beside a record: copies excluded below see_floor (R198), consecutive bursts with status 1 or 6, and
consecutive good bursts (R172). -/
structure FwCounts where
  excluded : Nat
  misses : Nat
  goods : Nat
deriving DecidableEq, Repr, Inhabited

/-- What a completed task hands to the release queue (R245): a record with its payload, and what the demodulation firmware counted beside it; a
transmission with its descriptor handle and completion time; or nothing to send. -/
inductive TaskOut where
  | record (rec payload : Bytes) (fw : Option FwCounts)
  | ready (handle at_ : Nat)
  | none
deriving DecidableEq, Repr, Inhabited

/-- A set of demodulation parameters: the words DEM_ACQ, DEM_TOL and DEM_WARN (R188). -/
structure DemSet where
  acq : Nat
  tol : Nat
  warn : Nat
deriving DecidableEq, Repr, Inhabited

def DemSet.none : DemSet := ⟨0, 0, 0⟩

/-- A Toybox entry in use (R232), its release number (R253) and its place in order of firing (R241). -/
structure Task where
  gen : Nat
  kind : Nat
  state : Nat
  attempt : Nat
  partial_ : Bool
  flow : Nat
  core : Nat
  seq : Nat
  floor : Nat
  deadline : Nat
  ops : List Nat
  rel : Nat
  fired : Nat
  info : TaskInfo
  out : TaskOut
  /-- PUP_BUDGET of its kind at placement (R246). -/
  budget : Nat
  /-- The demodulation parameters in force on BB0 and on BB1 when it fired (R188). -/
  dem0 : DemSet
  dem1 : DemSet
  /-- The offset estimate of its context when it fired (R186). -/
  est : Int
  /-- The XO count at its firing (R489). -/
  firedXo : Nat
deriving DecidableEq, Repr, Inhabited

/-- A flow (R231): create_seq, in_service, last_core, and its next release number. -/
structure Flow where
  seq : Nat
  inService : Bool
  last : Option Nat
  nextRel : Nat
deriving DecidableEq, Repr, Inhabited

def Flow.reset : Flow := ⟨0, false, none, 0⟩

/-- A core as the Puppeteer sees it (R243, R246, R249, R252): 0 active, 1 Understudy, 2 self-test, 3 retired. -/
structure PCore where
  st : Nat
  run : Option Nat
  /-- The queued task and its descriptor as it stood at placement (R278). -/
  queued : Option (Nat × Bytes)
  /-- A fault the core has met and the Puppeteer has not yet taken: its cause (R246). -/
  fault : Nat
  /-- XO counts of the faults in the last second (R249). -/
  faults : List Nat
  /-- The self-test is that of a return command (R252). -/
  returning : Bool
  /-- A retire command waits for the running task (R252). -/
  retiring : Bool
  /-- The running task has written CORE_DONE, and with what (R281). -/
  done : Option TaskOut
deriving DecidableEq, Repr, Inhabited

def PCore.reset : PCore := ⟨0, none, none, 0, [], false, false, none⟩

/-- The Puppeteer and the Toybox. -/
structure Pup where
  tasks : SMap Task
  gens : SMap Nat
  flows : SMap Flow
  fireNo : Nat
  /-- Event 32 is armed (R236). -/
  armed : Bool
  /-- Tasks taken back after a fault, first to be placed, each with the core it must not go to, 64 where any will do (R247, R251), and whether its
  placement is a recovery action of its own. -/
  redo : List (Nat × Nat × Bool)
  cores : SMap PCore
  /-- The Understudies have been placed (R250). -/
  placed : Bool
deriving DecidableEq, Repr, Inhabited

def Pup.reset : Pup := ⟨[], [], [], 0, true, [], [], false⟩

/-! ## Marionette cores (10_marionette_model.md, 11_marionette_instructions.md) -/

/-- What a write in the pipeline does to its register when it becomes visible (R261, R285, R289). -/
inductive MVal where
  /-- The whole register takes the value. -/
  | full (v : BitVec 40)
  /-- One half of a D register takes the value. -/
  | half (high : Bool) (v : BitVec 16)
  /-- A MOV to SR: ie, scale, aov and sat. -/
  | srMove (v : BitVec 16)
  /-- A compute operation's updates of SR: n and z where it sets them, and the sticky bits it sets. -/
  | srFlags (nz : Option (Bool × Bool)) (sat aov : Bool)
deriving DecidableEq, Repr, Inhabited

/-- A write in the pipeline: the bundle, counted in executed order, that first sees it; the register's key; and the value. -/
structure MWrite where
  due : Nat
  key : Nat
  val : MVal
deriving DecidableEq, Repr, Inhabited

/-- A running REP level (R270): its first and last body bundle. -/
structure MLoop where
  first : Nat
  last : Nat
deriving DecidableEq, Repr, Inhabited

/-- A transfer in a core's queue (R277): CORE_TRU_CTRL, CORE_TRU_EXT and CORE_TRU_LOC as they stood. -/
structure Transfer where
  ctrl : Nat
  ext : Nat
  loc : Nat
deriving DecidableEq, Repr, Inhabited

/-- A Marionette core. Its I/O registers stand with the registers. -/
structure Core where
  /-- D0 to D15 at keys 0 to 15, P 16 to 23, M 24 to 31, LC 32 and 33, SR 34, RPC 35, ACC 40 to 43; the shadow bank's own registers 64 higher. -/
  regs : SMap (BitVec 40)
  /-- Writes in the pipeline, in the order in which they were issued. -/
  pipe : List MWrite
  pc : Nat
  /-- Number of the bundle in executed order. -/
  count : Nat
  /-- The next slot of the bundle at pc: 0 C, 1 X, 2 Y. -/
  slot : Nat
  /-- A branch taken: bundles to execute before it, its target, whether it is a RETI. -/
  branch : Option (Nat × Nat × Bool)
  /-- A branch not taken: bundles up to the end of its delay slots (R262). -/
  delay : Nat
  /-- Number of the first bundle outside every load delay slot (R274). -/
  clear : Nat
  /-- Running REP levels, the inner one first. -/
  loops : List MLoop
  /-- The shadow bank is in use (R275). -/
  shadow : Bool
  /-- A task runs on the core, or has ended and waits for its outputs to be accepted. -/
  running : Bool
  /-- The core stopped at a trap or a fault (R246, R276). -/
  stopped : Bool
  /-- Stores of the bundle under way, to data memory and the output buffer: address, bytes (R260). -/
  stores : List (Nat × Bytes)
  /-- What a load in slot Y brings that meets a store of slot X in the same word outside the core's own memories (R260). -/
  early : Option Nat
  imem : SMap Word
  dmem : SMap Byte
  outbuf : SMap Byte
  mailbox : Bytes
  tru : List Transfer
  /-- A transfer whose write to CORE_TRU_CTRL stalls the core while eight are queued (R277). -/
  truWait : Option Transfer
deriving DecidableEq, Repr, Inhabited

def Core.reset : Core where
  regs := []
  pipe := []
  pc := 0
  count := 0
  slot := 0
  branch := none
  delay := 0
  clear := 0
  loops := []
  shadow := false
  running := false
  stopped := false
  stores := []
  early := none
  imem := []
  dmem := []
  outbuf := []
  mailbox := []
  tru := []
  truWait := none

/-! ## Classifier, traffic manager and Ethernet MACs (12_classifier.md, 13_traffic_manager.md, 14_ethernet_macs.md) -/

/-- A frame as a MAC received it: its bytes without the FCS, its ingress port, and its timestamp in NT and in the XO count (R346, R359, R361). -/
structure RxFrame where
  data : Bytes
  port : Nat
  nt : Nat
  xo : Nat
deriving DecidableEq, Repr, Inhabited

/-- A decision of the classifier (R309): the four action words. -/
structure ClsAct where
  w0 : Nat
  w1 : Nat
  w2 : Nat
deriving DecidableEq, Repr, Inhabited

/-- A frame in an egress queue (R323): its bytes as edited and without FCS, its length L, whether it comes from a template, whether its source MAC is
replaced, whether its ingress header checksum was bad, the XO count of its ingress timestamp, the XO count of its admission, and its memory. -/
structure QFrame where
  data : Bytes
  len : Nat
  tmpl : Bool
  macRw : Bool
  ipBad : Bool
  rxXo : Nat
  cameIn : Nat
  dram : Bool
deriving DecidableEq, Repr, Inhabited

/-- An egress queue (R323, R332, R342): its frames, head first, the head's tags, its isolation, and whether the head is on the wire or held there: a frame
leaves its queue when it ends. -/
structure EQueue where
  frames : List QFrame
  s : Nat
  f : Nat
  isolated : Bool
  busy : Bool
deriving DecidableEq, Repr, Inhabited

def EQueue.reset : EQueue := ⟨[], 0, 0, false, false⟩

/-- A frame on the wire: its queue, the frame as the MAC sends it, the XO counts of its start and end, whether it is preemptable, the bytes sent in
earlier fragments, the bytes that will be sent at its end (fewer than its length where it is preempted), and whether it is a pause frame or ends with
an inverted FCS (R348, R350, R354). -/
structure TxNow where
  queue : Nat
  frame : QFrame
  start : Nat
  stop : Nat
  preemptable : Bool
  sent : Nat
  upTo : Nat
  ctrl : Bool
  bad : Bool
deriving DecidableEq, Repr, Inhabited

/-- An egress port (R332, R336, R354): virtual time, its latched low word, the frame on the wire, a held remainder, and the gate states last seen. -/
structure Port where
  v : Nat
  vLatch : Option Nat
  now : Option TxNow
  held : Option TxNow
  gates : Nat
deriving DecidableEq, Repr, Inhabited

def Port.reset : Port := ⟨0, none, none, none, 0xFF⟩

/-- A policer's exact refill state (R329): the XO count at its last refill, and the fraction of a token kept, in 1/800,000,000. -/
structure Policer where
  at_ : Nat
  frac : Nat
deriving DecidableEq, Repr, Inhabited

/-- A MAC's own state. -/
structure Mac where
  /-- Frames that wait for the classifier, oldest first (R347). -/
  rx : List RxFrame
  /-- XO count from which new frames may start again (R351). -/
  pauseUntil : Option Nat
  /-- XO count of the last non-zero pause sent while one is outstanding (R349). -/
  pauseSent : Option Nat
  /-- Pause frames to send next: their pause times (R350). -/
  pauseOut : List Nat
  /-- Clockwork's Delay_Req that waits for the port: its bytes and the offset of its PTP message (R45, R361). -/
  delayOut : Option (Bytes × Nat)
  /-- The lock as last reported, and the XO count of its last change (R345). -/
  lock : Bool
  lockAt : Nat
  /-- Verify mPackets sent since link up, and the XO count of the last (R353). -/
  verifies : Nat
  verifyAt : Nat
  /-- What auto-negotiation resolved for sending and for honouring pause (R351). -/
  anTx : Bool
  anRx : Bool
  /-- The preemptable frame in reassembly: its bytes, its frame count and the fragments so far (R356). -/
  partial_ : Option (Bytes × Nat × Nat)
  /-- Latched egress timestamp: NT, messageType, sequenceId; and the words a read of SEC_HI latched (R360). -/
  ptpTx : Option (Nat × Nat × Nat)
  ptpLatch : Option (Nat × Nat × Nat)
  /-- Counters modulo 2^48 by number, and the low words latched by a read of HI (R362). -/
  cnt : SMap Nat
  cntLatch : SMap Nat
  /-- The last frame or mPacket that left whole on the wire, without its FCS. -/
  wire : Bytes
deriving DecidableEq, Repr, Inhabited

def Mac.reset : Mac := ⟨[], none, none, [], none, false, 0, 0, 0, false, false, none, none, none, [], [], []⟩

/-- An entry of the fragment table (R321): its key, its decision, the mapping of its frames, and the XO count at which it was stored. -/
structure FragEntry where
  key : Bytes
  act : ClsAct
  at_ : Nat
deriving DecidableEq, Repr, Inhabited

/-- A frame between its first pass and its second (R310, R315): the bytes the second pass parses and how many of them, the generation it is stamped
with, and the XO count of its reception. -/
structure SecondPass where
  data : Bytes
  lim : Nat
  gen : Nat
  xo : Nat
deriving DecidableEq, Repr, Inhabited

/-- The classifier's own state. -/
structure Cls where
  /-- Frames between their two passes, by ingress port (R310, R316). -/
  passes : SMap SecondPass
  frags : List FragEntry
  /-- Later fragments held, oldest first: key, frame, XO count (R321). -/
  pending : List (Bytes × RxFrame × Nat)
deriving DecidableEq, Repr, Inhabited

def Cls.reset : Cls := ⟨[], [], []⟩

/-- A management frame delivered to the Command Port and not yet authenticated (R320, R431): source address and port, UDP payload. -/
structure MgmtFrame where
  ip : Bytes
  udp : Nat
  body : Bytes
deriving DecidableEq, Repr, Inhabited

/-! ## Cipher engine (15_cipher_engine.md) -/

/-- A key slot in use (R365): the key, its size (false 128 bits), class, use count, lock, owner, and the number of its latest use. -/
structure KeySlot where
  key : Bytes
  big : Bool
  cls : Nat
  uses : Nat
  locked : Bool
  owner : Nat
  used : Nat
deriving DecidableEq, Repr, Inhabited

/-- A native job accepted and not yet complete (R376): requestor (a core, or 64 for the Command Port), descriptor words, slot, key as taken at
acceptance, a result that is already decided, and whether it runs on an AES core. -/
structure CipJob where
  who : Nat
  desc : List Nat
  slot : Nat
  key : Bytes
  early : Option Nat
  started : Bool
deriving DecidableEq, Repr, Inhabited

/-- A stream job (R379): the descriptor fields, key, input words taken so far, output words waiting and read, its result once it ended. -/
structure StreamJob where
  mode : Nat
  dec : Bool
  tagLen : Nat
  nLen : Nat
  key : Bytes
  len : Nat
  aadLen : Nat
  iv : Bytes
  tag : Bytes
  input : Bytes
  /-- Output bytes released so far. -/
  outGiven : Nat
deriving DecidableEq, Repr, Inhabited

/-- The cipher engine's own state. -/
structure Cip where
  slots : SMap KeySlot
  /-- Number of the next use, for least-recently-used eviction (R369). -/
  useNo : Nat
  /-- Jobs accepted, in order of acceptance. -/
  jobs : List CipJob
  /-- Result FIFO of each core, oldest first. -/
  results : SMap (List Nat)
  stream : Option StreamJob
deriving DecidableEq, Repr, Inhabited

def Cip.reset : Cip := ⟨[], 0, [], [], none⟩

/-! ## DRAM controller, calibration, RTC (16_dram_controller.md, 17_calibration.md, 20_rtc.md) -/

/-- A DRAM request of one burst (R382): its port, direction, burst address, byte mask, write data, the XO count of its arrival, and its port's target at its
arrival (R388); whether it has been counted as urgent. -/
structure DramReq where
  port : Nat
  write : Bool
  addr : Nat
  mask : Nat
  data : Bytes
  at_ : Nat
  target : Nat
  urgent : Bool
deriving DecidableEq, Repr, Inhabited

/-- A completed request (R381, R397): its port, address, the data read, and its outcome: 0 good, 1 out of the data range or DRAM not in service,
2 uncorrectable. -/
structure DramDone where
  port : Nat
  addr : Nat
  data : Bytes
  outcome : Nat
deriving DecidableEq, Repr, Inhabited

/-- The DRAM controller's own state. -/
structure Drc where
  /-- Requests held by each channel, oldest first (R386). -/
  ch0 : List DramReq
  ch1 : List DramReq
  /-- Requests that wait at their ports, oldest first. -/
  ports : List DramReq
  /-- Owed refreshes by channel * 16 + bank (R390). -/
  owed : SMap Nat
  /-- XO count at which the derate window closes (R393). -/
  window : Option Nat
  /-- Words whose code is the poison code, by address / 8 (R397). -/
  poison : List Nat
  /-- The completion of the request issued last. -/
  last : Option DramDone
deriving DecidableEq, Repr, Inhabited

def Drc.reset : Drc := ⟨[], [], [], [], none, [], none⟩

/-- The temperatures of a unit in 1/32 degree, twice the mean of its sensors (R400): its own or the HUB's, and for a DRAM unit the MEM die's; none
while no sensor of a pair is valid. -/
abbrev CalTemps := Option Int × Option Int

/-- A calibration run (R405, R406): the code, tap or DQ bit in turn; 0 measuring first, 1 stepping up, 2 stepping down; the figure kept; the eye of a
SerDes lane; steps so far; and the temperatures at its start. -/
structure CalRun where
  item : Nat
  dir : Nat
  fig : Option Int
  eye : Nat × Nat
  steps : Nat
  start : CalTemps
deriving DecidableEq, Repr, Inhabited

/-- The calibration controller's own state. -/
structure Cal where
  runs : SMap CalRun
  /-- Units that wait for another unit of their group to end (R403). -/
  waiting : List Nat
  /-- Temperatures recorded at the end of each unit's last run (R401). -/
  temps : SMap CalTemps
  /-- XO count at which a unit runs again (R402), and of its last run without a sensor (R400). -/
  retryAt : SMap Nat
  blindAt : SMap Nat
  /-- Units whose missing sensors have raised event 60. -/
  blind : List Nat
  /-- Taps and eye widths of each DQ bit: channel * 32 + bit: read tap, read width, write tap, write width (R412). -/
  bits : SMap (Nat × Nat × Nat × Nat)
  /-- Codes that take effect at the next slot start: register, high and low bit of the field, value (R405). -/
  codes : List (Nat × Nat × Nat × Nat)
deriving DecidableEq, Repr, Inhabited

def Cal.reset : Cal := ⟨[], [], [], [], [], [], [], []⟩

/-- A calendar instant in UTC (R450): year - 2000, month, day, hour, minute, second (0 to 60). -/
structure Utc where
  year : Nat
  month : Nat
  day : Nat
  hour : Nat
  minute : Nat
  second : Nat
deriving DecidableEq, Repr, Inhabited

/-- The RTC's own state, all of it in AO. -/
structure Rtc where
  now : Utc
  /-- Staged fields (R452): minute, hour, day, month, year. -/
  stMin : Option Nat
  stHour : Option Nat
  stDay : Option Nat
  stMonth : Option Nat
  stYear : Option Nat
  /-- The accumulator of R451, and the ticks of the running second. -/
  acc : Int
  len : Nat
  /-- XO count at the start of the running second. -/
  secAt : Nat
  /-- The snapshot, its prescaler count, and the XO count of its latch (R454). -/
  snap : Option (Utc × Nat × Nat)
  /-- NT whole second at which the running trim window begins, and its length in s (R459). -/
  trimAt : Option (Nat × Nat)
deriving DecidableEq, Repr, Inhabited

def Rtc.reset : Rtc := ⟨⟨0, 1, 1, 0, 0, 0⟩, none, none, none, none, none, 0, 32768, 0, none, none⟩



/-- The pins from power-on to boot step 2 (R503): nothing asserted or driven but the cage supplies, and Jack has the I2C pins. -/
def Pins.reset : Pins := ⟨false, false, none, 0, 0, [none, none, none], 0, 0, 0xFF, true⟩

/-- The device: every register, memory, queue, counter and mode of the block. -/
structure Dev where
  /-- Network time, ns since the TAI epoch (R38). At power-on the RTC calendar plus tai_utc (R39). -/
  nt : Nat
  /-- The free-running XO count, ns (R361); log entry 5. -/
  xo : Nat
  /-- The family member (R1); log entry 6. -/
  member : Member
  /-- Registers and the memories held beside them, at their addresses (R29 to R31); an unlisted one reads its reset word. -/
  regs : SMap Word
  /-- The word the last single-register read returned; the model's own field (log entry 2). -/
  rdata : Word
  /-- Free values taken so far; the model's own field (log entry 3). -/
  free : Nat
  /-- The event system (R482 to R488). -/
  evt : Evt
  /-- String links, key n for link n + 1 (R16 to R25). -/
  links : SMap Link
  /-- Clock domains isolated, with the die (R28). -/
  clkOff : List (ClkDom × Nat)
  /-- The Abacus instances (R489 to R493). -/
  mons : SMap Mon
  /-- Power, resets and Jack (R437 to R449, R476 to R480). -/
  pwr : Pwr
  /-- Boot (R420). -/
  boot : Boot
  /-- The Command Port (R423 to R433). -/
  cmd : CmdPort
  /-- The eight stages (R435). -/
  stages : SMap Stage
  /-- Stages whose takeover has fired and waits for the slot start, in firing order (R436). -/
  stagesFired : List Nat
  /-- The copy the open NVM_WRITE acts on (R434). -/
  nvmCopy : Nat
  /-- Flash bytes that are not erased (R415); an erased byte reads 0xFF (log entry 8). -/
  flash : SMap Byte
  /-- Blown fuse words, at the address of the register that shows them (log entry 7). -/
  fuses : SMap Word
  /-- The 256 root key fuses (R367, R475). -/
  rootKey : Nat
  /-- The programmed fuse (R367). -/
  rootProgrammed : Bool
  /-- The root key blow in progress, with its key (R475). -/
  rootBlow : Option Nat
  /-- The fused digest of the signing key (R416); log entry 7. -/
  pubDigest : Nat
  /-- The filtered level at each GPIO pad; none while nothing outside drives it (R505); log entry 12. -/
  pads : SMap (Option Bool)
  /-- ETHn_3V3 outputs folded back, bit n (R500). -/
  cagesFolded : Nat
  /-- The pins driven (R503). -/
  pins : Pins
  /-- Clockwork (R38 to R57). -/
  clk : Clk
  /-- Armed entries of the action list, key the index (R58). -/
  acts : SMap Act
  /-- Indexes whose last entry has fired (R65). -/
  actsFired : List Nat
  /-- RADL, RADM, RADH (R109 to R137). -/
  radios : SMap Radio
  /-- The Kaleidoscopes of the three radios (R138 to R161). -/
  kals : SMap Kal
  /-- DRAM data bytes that are not 0 (R380); log entry 9. -/
  dram : SMap Byte
  /-- The last reading of each temperature sensor, 1/16 degree (R15). -/
  temps : SMap Int
  /-- The access scheduler: contexts, registry, cells, queues (R201 to R230). -/
  sched : Sched
  /-- The Puppeteer and the Toybox (R231 to R253). -/
  pup : Pup
  /-- The Marionette cores 0 to 63 (R254 to R303). -/
  cores : SMap Core
  /-- MAC0 to MAC7 (R343 to R364). -/
  macs : SMap Mac
  /-- The classifier (R304 to R322). -/
  cls : Cls
  /-- Management frames that wait for authentication (R320, R431). -/
  mgmtIn : List MgmtFrame
  /-- The 64 egress queues (R323). -/
  queues : SMap EQueue
  /-- The eight egress ports (R332 to R340). -/
  ports : SMap Port
  /-- The exact refill state of the policers (R329). -/
  policers : SMap Policer
  /-- The cipher engine (R365 to R379). -/
  cip : Cip
  /-- The DRAM controller (R380 to R398). -/
  drc : Drc
  /-- The calibration controller (R399 to R414). -/
  cal : Cal
  /-- The real-time clock (R450 to R463). -/
  rtc : Rtc
deriving DecidableEq, Repr

/-- The device right after reset. -/
def Dev.reset : Dev where
  nt := 946684837000000000
  xo := 0
  member := .tt3008
  regs := []
  rdata := 0
  free := 0
  evt := Evt.reset
  links := []
  clkOff := []
  mons := []
  pwr := Pwr.reset
  boot := Boot.reset
  cmd := CmdPort.reset
  stages := []
  stagesFired := []
  nvmCopy := 0
  flash := []
  fuses := []
  rootKey := 0
  rootProgrammed := false
  rootBlow := none
  pubDigest := 0
  pads := []
  cagesFolded := 0
  pins := Pins.reset
  clk := Clk.reset
  acts := []
  actsFired := []
  radios := []
  kals := []
  dram := []
  temps := []
  sched := Sched.reset
  pup := Pup.reset
  cores := []
  macs := []
  cls := Cls.reset
  mgmtIn := []
  queues := []
  ports := []
  policers := []
  cip := Cip.reset
  drc := Drc.reset
  cal := Cal.reset
  rtc := Rtc.reset

/-- The state: the device, and the commands that wait, first in, first out. -/
structure State where
  dev : Dev
  pending : List Instr
deriving DecidableEq, Repr

/-- The machine right after reset: no command waits. -/
def State.reset : State := ⟨Dev.reset, []⟩

/-- The reasons the block stops with a fault. No command of the spec stops the block, so no meaning raises it. -/
inductive Fault where
  /-- Raised by no meaning (safe): every fault the spec describes is an effect on the state. -/
  | stopped
deriving DecidableEq, Repr

/-- The reasons the model gives a command no meaning. -/
inductive Refusal where
  /-- The command has no meaning yet: raised by exec's refused arms only (safe). -/
  | notModelled (mnemonic : String)
deriving DecidableEq, Repr

end Sys2Proof.Machine
end

