-- ==== Sys2Proof/Machine/Ops.lean ====
section
/-! DEFINITION. The named operations over registers, bytes and the dies that every family uses. -/

namespace Sys2Proof.Machine

open Sys2Proof

/-! ## Register fields -/

/-- The value of a field in a register word. -/
def Fld.of (f : Fld) (w : Word) : Nat := w.toNat / 2 ^ f.lo % 2 ^ (f.hi - f.lo + 1)

/-- The register word with a field replaced; a value too wide for the field is cut to its low bits. -/
def Fld.into (f : Fld) (w : Word) (v : Nat) : Word :=
  BitVec.ofNat 32 (w.toNat / 2 ^ (f.hi + 1) * 2 ^ (f.hi + 1) + v % 2 ^ (f.hi - f.lo + 1) * 2 ^ f.lo + w.toNat % 2 ^ f.lo)

/-- The largest value of a field. -/
def Fld.top (f : Fld) : Nat := 2 ^ (f.hi - f.lo + 1) - 1

/-- The word a register holds. -/
def Dev.word (d : Dev) (a : Nat) : Word := smGet resetWord d.regs a

/-- The device with a register holding a word. -/
def Dev.setWord (d : Dev) (a : Nat) (w : Word) : Dev := { d with regs := smSet resetWord d.regs a w }

/-- The value of a register's field. -/
def Dev.get (d : Dev) (a : Nat) (f : Fld) : Nat := f.of (d.word a)

/-- The device with a register's field set. -/
def Dev.put (d : Dev) (a : Nat) (f : Fld) (v : Nat) : Dev := d.setWord a (f.into (d.word a) v)

/-- A register's field as a flag. -/
def Dev.flag (d : Dev) (a : Nat) (f : Fld) : Bool := d.get a f != 0

/-- A counting field plus n, stopping at its largest value. -/
def Dev.bumpBy (d : Dev) (a : Nat) (f : Fld) (n : Nat) : Dev := d.put a f (min (d.get a f + n) f.top)

/-- A counting field plus 1, stopping at its largest value. -/
def Dev.bump (d : Dev) (a : Nat) (f : Fld) : Dev := d.bumpBy a f 1

/-- The registers of the addresses [lo, hi) back at their reset words. -/
def Dev.clearRegs (d : Dev) (lo hi : Nat) : Dev := { d with regs := smClear d.regs lo hi }

/-- The word a single-register read returned. -/
def Dev.answer (d : Dev) (w : Word) : Dev := { d with rdata := w }

/-- The word a register holds after a plain write (R10, R11): RW bits take the written bits, W1C bits are cleared by a 1, W1S and RWSC bits set by
a 1, all others keep. -/
def writtenWord (a : Nat) (old w : Word) : Word :=
  let rw := accMask (· = .rw) a
  let c := accMask (· = .w1c) a
  let st := accMask (fun x => x = .w1s || x = .rwsc) a
  (w &&& rw) ||| (old &&& ~~~rw &&& ~~~(w &&& c)) ||| (w &&& st)

/-- A plain write to a register (R10, R11). -/
def Dev.rawWrite (d : Dev) (a : Nat) (w : Word) : Dev := d.setWord a (writtenWord a (d.word a) w)

/-- Applies f where a condition holds. -/
def Dev.when (d : Dev) (c : Bool) (f : Dev → Dev) : Dev := if c then f d else d

/-- A free bit, and the device with its counter advanced (log entry 3). -/
def Dev.takeBit (d : Dev) : Bool × Dev := (Config.freeBit d.free, { d with free := d.free + 1 })

/-- A free word, and the device with its counter advanced (log entry 3). -/
def Dev.takeWord (d : Dev) : Word × Dev := (Config.freeWord d.free, { d with free := d.free + 1 })

/-- Each element of a list applied in order. -/
def Dev.each (d : Dev) (xs : List α) (f : Dev → α → Dev) : Dev := xs.foldl f d

/-! ## Time -/

/-- The rate of slewing in units of 0.1 ppm; a value outside 1 to 100 acts as the nearer limit (R54). -/
def Dev.slewRate (d : Dev) : Nat := min 100 (max 1 (d.get R.CLK_SLEW F.CLK_SLEW_slew_rate))

/-- What slewing has added to NT by NT t, out of the offset it removes, at the full rate that R54 allows (log entry 199). -/
def Dev.slewAt (d : Dev) (t : Nat) : Int :=
  let done : Nat := min d.clk.slew.1.natAbs ((t - d.clk.slew.2) * d.slewRate / 10000000)
  if d.clk.slew.1 < 0 then -(done : Int) else done

/-- The XO count at NT t: it advances as NT does less what slewing adds to NT, for slewing never changes XO (R54, log entry 5). -/
def Dev.xoAt (d : Dev) (t : Nat) : Nat := d.xo + (((t : Int) - d.nt) - (d.slewAt t - d.slewAt d.nt)).toNat

/-- NT at the instant of a command: a command never moves NT back. The XO count follows (log entry 5). -/
def Dev.at_ (d : Dev) (t : Nat) : Dev := { d with nt := max d.nt t, xo := d.xoAt (max d.nt t) }

/-- An effect whose instant is NT t, a little after the command's own: R60 has a radio action take effect at a sample instant. -/
def Dev.during (d : Dev) (t : Nat) (f : Dev → Dev) : Dev := { f { d with nt := t } with nt := d.nt }

/-- 20 ms in ns: the length of a slot (R41). -/
def slotNs : Nat := 20000000

/-- The length of a superframe in ns: 256 slots (R41). -/
def superNs : Nat := 256 * slotNs

/-- The absolute slot number at a network time: slots since the TAI epoch (R41). -/
def absSlot (t : Nat) : Nat := t / slotNs

/-- The superframe number at a network time (R41). -/
def superOf (t : Nat) : Nat := t / superNs

/-- The slot of its superframe at a network time (R41). -/
def slotOf (t : Nat) : Nat := t / slotNs % 256

/-! ## Dies and domains -/

/-- ID_DIES of a member (R1). -/
def memberDies : Member → Nat
  | .tt3008 => 0xFF
  | .tt3005 => 0xD5
  | .tt3002 => 0x81

/-- The part number of a member (R1). -/
def memberPart : Member → Nat
  | .tt3008 => 0x3008
  | .tt3005 => 0x3005
  | .tt3002 => 0x3002

/-- Is the die of an ID_DIES bit in the package? -/
def Dev.present (d : Dev) (die : Nat) : Bool := (memberDies d.member).testBit die

/-- The state of a power domain (R437): 0 off, 1 on, 2 fenced, 3 powering up. -/
def Dev.dom (d : Dev) (code : Nat) : Nat := smGet (fun _ => 1) d.pwr.doms code

/-- The device with a power domain in a state. -/
def Dev.setDom (d : Dev) (code st : Nat) : Dev :=
  { d with pwr := { d.pwr with doms := smSet (fun _ => 1) d.pwr.doms code st } }

/-- The string link that serves a die (1 to 7). -/
def Dev.link (d : Dev) (n : Nat) : Link := smGet (fun _ => Link.reset) d.links n

/-- The device with a string link replaced. -/
def Dev.setLink (d : Dev) (n : Nat) (l : Link) : Dev := { d with links := smSet (fun _ => Link.reset) d.links n l }

/-- The die is isolated, because its link has no good lane (R24). -/
def Dev.dieIsolated (d : Dev) (die : Nat) : Bool := die != 0 && (d.link (die - 1)).isolated

/-- A block of the die is isolated by a clock fault (R28). -/
def Dev.dieClockOff (d : Dev) (die : Nat) : Bool := d.clkOff.any (fun p => p.2 == die)

/-- The HUB's CORE clock has stopped, by a fault of its own or of XO: of the HUB, AO and MGMT run on (R28). -/
def Dev.coreDead (d : Dev) : Bool := d.clkOff.contains (.core, 0)

/-- The HUB runs: powered, out of reset and clocked (R28, R437, R478 to R480). -/
def Dev.hubUp (d : Dev) : Bool :=
  d.pwr.hubOn && !d.pwr.resetLow && !d.pwr.brown && !d.coreDead

/-- An effect of the HUB, which happens only while the HUB runs. -/
def Dev.whenHub (d : Dev) (f : Dev → Dev) : Dev := if d.hubUp then f d else d

/-- An effect of the AO domain, which happens only while AO is supplied. -/
def Dev.whenAo (d : Dev) (f : Dev → Dev) : Dev := if d.pwr.aoOn then f d else d

/-- The power domain of each die (R437). -/
def domOfDie : Nat → Nat
  | 1 => 4 | 2 => 5 | 3 => 6 | 4 => 2 | 5 => 3 | 6 => 7 | _ => 1

/-- The die can be reached and works: present, its domain on, not isolated (R4, R24, R439). -/
def Dev.dieUp (d : Dev) (die : Nat) : Bool :=
  d.hubUp && d.present die && d.dom (domOfDie die) == 1 && !d.dieIsolated die

/-- The die works and none of its blocks is stopped by a clock fault (R28). -/
def Dev.dieRuns (d : Dev) (die : Nat) : Bool := d.dieUp die && !d.dieClockOff die

/-- DRAM is in service: the MEM die is powered and clocked. A fault on its string link does not touch DRAM data (R14, R28, R441). -/
def Dev.memUp (d : Dev) : Bool :=
  d.hubUp && d.present 6 && d.dom 7 == 1 && !d.dieClockOff 6 && !(d.clkOff.contains (.memck, 0))

/-- A radio's die runs. -/
def Dev.radioUp (d : Dev) (r : Nat) : Bool := d.dieRuns (r + 1)

/-- A core's die runs. -/
def Dev.coreDieUp (d : Dev) (c : Nat) : Bool := d.dieRuns (if c < 32 then 4 else 5)

/-- The device has entered RUN after boot and is not in a reduced state. -/
def Dev.inRun (d : Dev) : Bool := d.hubUp && d.boot.phase == .run && d.pwr.mode == .run

end Sys2Proof.Machine
end

