-- ==== Sys2Proof/Machine/Events.lean ====
section
/-! DEFINITION. The event system: raising, logging and routing an event, the log's latching reads, and the recovery and fatal records
(21_reliability_and_ordering.md, 22_events_and_monitors.md). -/

namespace Sys2Proof.Machine

open Sys2Proof

/-- The die without which a source never sets; 0 where it belongs to the HUB or to several dies (R5, R488). -/
def srcDie (src : Nat) : Nat :=
  if src = 24 then 1 else if src = 25 then 2 else if src = 26 then 3
  else if src = 56 ∨ src = 57 ∨ src = 58 then 6 else 0

/-- The die whose own event a raise is, for the unit that it names; 0 for an event of the HUB. The DRAM controller's sources 56 to 58 are the HUB's: a
fault on MEM's string link touches no DRAM data (R14, R24, R488). -/
def evtDie (src unit : Nat) : Nat :=
  if 24 ≤ src ∧ src ≤ 26 then src - 23
  else if 27 ≤ src ∧ src ≤ 31 ∨ src = 38 ∨ src = 39 then unit + 1
  else if src = 37 then 4 + unit / 32
  else 0

/-- The status and enable registers of a source (R482). -/
def evtStatusReg (src : Nat) : Nat := if src < 32 then R.EVT_STATUS_LO else R.EVT_STATUS_HI
def evtEnableReg (src : Nat) : Nat := if src < 32 then R.EVT_ENABLE_LO else R.EVT_ENABLE_HI

/-- The status bit of a source. -/
def Dev.evtStatus (d : Dev) (src : Nat) : Bool := (d.word (evtStatusReg src)).getLsbD (src % 32)

/-- The enable bit of a source. -/
def Dev.evtEnabled (d : Dev) (src : Nat) : Bool := (d.word (evtEnableReg src)).getLsbD (src % 32)

/-- The route of a source, 0 to 3 (R483). -/
def Dev.evtRoute (d : Dev) (src : Nat) : Nat := (d.word (R.EVT_ROUTE (src / 16))).toNat / 2 ^ (2 * (src % 16)) % 4

/-- The sequence number of a source (R482). -/
def Dev.evtSeq (d : Dev) (src : Nat) : Nat := smGet (fun _ => 0) d.evt.seq src

/-- R482 for a HUB that runs: the status bit, the sequence number, and the record that the end of the step logs where the source is enabled. -/
def Dev.raiseNow (d : Dev) (src unit detail : Nat) (late : Bool) : Dev :=
  let seq := (d.evtSeq src + 1) % 65536
  let d := d.setWord (evtStatusReg src) (d.word (evtStatusReg src) ||| BitVec.ofNat 32 (2 ^ (src % 32)))
  { d with evt := { d.evt with
      seq := smSet (fun _ => 0) d.evt.seq src seq
      pend := d.evt.pend ++ [⟨src, unit, detail, seq, d.nt, d.evtEnabled src, late⟩] } }

/-- A source raises its event (R482). A source of an absent die never sets, and an isolated die's events stop (R5, R24). While the HUB is off the event
is kept for the next HUB power-up (R485). -/
def Dev.raise (d : Dev) (src : Nat) (unit : Nat := 0) (detail : Nat := 0) : Dev :=
  if !d.present (srcDie src) || d.dieIsolated (evtDie src unit) then d
  else if d.pwr.hubOn then d.raiseNow src unit detail false
  else { d with evt := { d.evt with lateq := d.evt.lateq ++ [(src, unit, detail)] } }

/-- The events kept while the HUB was off, raised in order of occurrence with late set (R485). -/
def Dev.raiseLate (d : Dev) : Dev :=
  d.evt.lateq.foldl (fun d e => d.raiseNow e.1 e.2.1 e.2.2 true) { d with evt := { d.evt with lateq := [] } }

/-- The log record of a raise (R486). -/
def logRecOf (e : PendEvt) : LogRec :=
  let sec := e.at_ / 1000000000
  ⟨BitVec.ofNat 32 (e.at_ % 1000000000),
   BitVec.ofNat 32 sec,
   BitVec.ofNat 32 (e.detail % 65536 * 65536 + sec / 2 ^ 32 % 65536),
   BitVec.ofNat 32 (e.src * 2 ^ 26 + bitOf e.late * 2 ^ 25 + 2 ^ 24 + e.unit % 256 * 65536 + e.seq)⟩

/-- The bytes of a log record, word by word, little-endian. -/
def LogRec.bytes (r : LogRec) : Bytes := toLE 4 r.w0.toNat ++ toLE 4 r.w1.toNat ++ toLE 4 r.w2.toNat ++ toLE 4 r.w3.toNat

/-- The source of a log record. -/
def LogRec.src (r : LogRec) : Nat := r.w3.toNat / 2 ^ 26

/-- The sequence number of a log record. -/
def LogRec.seq (r : LogRec) : Nat := r.w3.toNat % 65536

/-- A record joins the log, or is counted as lost when the log holds 1,024 (R485). -/
def Dev.logAppend (d : Dev) (r : LogRec) : Dev :=
  if d.evt.log.length < 1024 then { d with evt := { d.evt with log := d.evt.log ++ [r] } }
  else d.bump R.EVT_LOG_STAT F.EVT_LOG_STAT_lost

/-- An event notification record enters the I2C buffer, where one of its 32 notification places is free (R429, R483). -/
def Dev.notifyI2c (d : Dev) (src seq : Nat) (r : LogRec) : Dev :=
  if (d.cmd.i2c.filter (·.notif)).length < 32 then
    { d with cmd := { d.cmd with i2c := d.cmd.i2c ++ [⟨true, 64, 0, src, false, false, seq, r.bytes⟩] } }
  else d.bump R.EVT_NOTIFY F.EVT_NOTIFY_i2c_dropped

/-- The routes of R483; a management-frame notification is collected. -/
def Dev.routeEvt (d : Dev) (src seq : Nat) (r : LogRec) : Dev :=
  match d.evtRoute src with
  | 2 => d.notifyI2c src seq r
  | 3 => { d with evt := { d.evt with mgmtOut := d.evt.mgmtOut ++ [(src, r)] } }
  | _ => d

/-- An enabled event is logged and routed (R482 step 3). -/
def Dev.logEvt (d : Dev) (e : PendEvt) : Dev :=
  if e.enabled then (d.logAppend (logRecOf e)).routeEvt e.src e.seq (logRecOf e) else d

/-- An event put after those of the same or a lower source number; late events keep their order of occurrence ahead of every other (R485). -/
def evtInsert (e : PendEvt) : List PendEvt → List PendEvt
  | [] => [e]
  | x :: rest => if x.late || decide (x.src ≤ e.src) then x :: evtInsert e rest else e :: x :: rest

/-- The events of one instant in ascending source number, those of one source in order of occurrence (R485). -/
def evtSort (es : List PendEvt) : List PendEvt := es.foldl (fun acc e => evtInsert e acc) []

/-- The end of an instant: the events raised in it are logged and routed (R485). -/
def Dev.flushEvents (d : Dev) : Dev :=
  (evtSort d.evt.pend).foldl Dev.logEvt { d with evt := { d.evt with pend := [] } }

/-- A recovery action raises event 62 and records its kind (R471). -/
def Dev.recovery (d : Dev) (kind : Nat) : Dev :=
  ((d.put R.EVT_RECOVERY F.EVT_RECOVERY_last_kind kind).bump R.EVT_RECOVERY F.EVT_RECOVERY_actions).raise 62 0 kind

/-- A fault outside the single-fault model raises event 63 and records its kind and unit (R481). -/
def Dev.fatal (d : Dev) (kind unit : Nat) : Dev :=
  (((d.put R.EVT_FATAL F.EVT_FATAL_kind kind).put R.EVT_FATAL F.EVT_FATAL_unit unit).bump R.EVT_FATAL F.EVT_FATAL_count).raise 63 unit kind

/-- A single-bit correction in a store of R466 is counted. -/
def Dev.corrected (d : Dev) : Dev := d.bump R.EVT_RECOVERY F.EVT_RECOVERY_corrected

/-- A read of EVT_LOG_REC_0 latches the oldest record, and returns its word 0; 0 while the log is empty (R487). -/
def Dev.readLog0 (d : Dev) : Dev :=
  match d.evt.log with
  | [] => { d with evt := { d.evt with latch := none }, rdata := 0 }
  | r :: _ => { d with evt := { d.evt with latch := some r }, rdata := r.w0 }

/-- A read of EVT_LOG_REC_1 or 2 returns the latched record's word; 0 while none is latched (R487). -/
def Dev.readLogMid (d : Dev) (w : Nat) : Dev :=
  d.answer (match d.evt.latch with
    | none => 0
    | some r => if w = 1 then r.w1 else r.w2)

/-- A read of EVT_LOG_REC_3 removes the latched record; while none is latched it returns 0 and removes nothing (R487). -/
def Dev.readLog3 (d : Dev) : Dev :=
  match d.evt.latch with
  | none => d.answer 0
  | some r => { d with evt := { d.evt with latch := none, log := d.evt.log.tail }, rdata := r.w3 }

/-- An uncorrectable log record is replaced in its place by a record of source 63 with kind 10 (R466). -/
def Dev.replaceLog (d : Dev) (i : Nat) : Dev :=
  if i < d.evt.log.length then
    let d := d.fatal 10 0
    let e : PendEvt := ⟨63, 0, 10, d.evtSeq 63, d.nt, true, false⟩
    { d with evt := { d.evt with
        log := d.evt.log.set i (logRecOf e)
        pend := d.evt.pend.filter (fun p => !(p.src == 63 && p.seq == d.evtSeq 63)) } }
  else d

end Sys2Proof.Machine
end

