-- ==== Sys2Proof/Machine/Mon.lean ====
section
/-! DEFINITION. The Abacus monitors: samples, windows, thresholds and the latched results (22_events_and_monitors.md, R489 to R493). -/

namespace Sys2Proof.Machine

open Sys2Proof

/-- An Abacus instance. -/
def Dev.mon (d : Dev) (n : Nat) : Mon := smGet (fun _ => Mon.reset) d.mons n

/-- The device with an Abacus instance replaced. -/
def Dev.setMon (d : Dev) (n : Nat) (m : Mon) : Dev := { d with mons := smSet (fun _ => Mon.reset) d.mons n m }

/-- The bin of a sample (R491): u is rounded toward minus infinity. -/
def monBin (log2 : Bool) (base : Int) (width : Nat) (v : Int) : Nat :=
  let u := (v - base) / (width : Int)
  if log2 then (if u < 1 then 0 else min 31 (1 + Nat.log2 u.toNat))
  else min 31 u.toNat

/-- A sample joins the statistics of the running window (R491). -/
def MonStat.add (m : MonStat) (bin : Nat) (v : Int) : MonStat where
  min_ := min m.min_ v
  max_ := max m.max_ v
  count := min (m.count + 1) (2 ^ 32 - 1)
  sum := satS 48 (m.sum + v)
  hist := smSet (fun _ => 0) m.hist bin (min (smGet (fun _ => 0) m.hist bin + 1) (2 ^ 32 - 1))

/-- An instance is attached to the probe of a class and index (R489); classes above 10 act as 0. -/
def Dev.monOn (d : Dev) (n cls idx : Nat) : Bool :=
  cls != 0 && d.get (R.MON_CFG n) F.MON_CFG_class == cls && d.get (R.MON_CFG n) F.MON_CFG_index == idx

/-- An instance takes a sample. -/
def Dev.monTake (d : Dev) (n : Nat) (v : Int) : Dev :=
  let bin := monBin (d.flag (R.MON_CFG n) F.MON_CFG_log2) (sext 32 (d.get (R.MON_BASE n) F.MON_BASE_base))
    (max 1 (d.get (R.MON_WIN n) F.MON_WIN_width)) v
  d.setMon n { d.mon n with cur := (d.mon n).cur.add bin v }

/-- A probe gives a sample: every instance attached to it takes it (R489). -/
def Dev.sample (d : Dev) (cls idx : Nat) (v : Int) : Dev :=
  if d.mons.isEmpty && (d.regs.all (fun p => p.1 < 0xA0000 || 0xB0000 ≤ p.1)) then d
  else (List.range 32).foldl (fun d n => if d.monOn n cls idx then d.monTake n v else d) d

/-- The statistic that MON_n_THR_CFG.stat names, where it exists (R492). -/
def MonStat.stat (m : MonStat) : Nat → Option Int
  | 1 => some m.min_
  | 2 => some m.max_
  | 3 => if m.count = 0 then none else some (m.sum / (m.count : Int))
  | 4 => some m.count
  | _ => none

/-- The comparison of R492 holds for a window's statistics. -/
def Dev.monHolds (d : Dev) (n : Nat) (m : MonStat) : Bool :=
  match m.stat (d.get (R.MON_THR_CFG n) F.MON_THR_CFG_stat) with
  | none => false
  | some x =>
    let v := sext 32 (d.get (R.MON_THR n) F.MON_THR_value)
    if d.flag (R.MON_THR_CFG n) F.MON_THR_CFG_below then decide (x < v) else decide (v < x)

/-- The running window of an instance ends: results, restart, threshold (R490, R492). -/
def Dev.monClose (d : Dev) (n : Nat) (stepped : Bool) : Dev :=
  let m := d.mon n
  let holds := d.monHolds n m.cur
  let d := d.setMon n { m with
    cur := MonStat.empty
    last := ⟨m.cur, (m.last.seq + 1) % 65536, stepped⟩
    held := holds }
  if holds && !m.held then d.raise 61 n (d.get (R.MON_THR_CFG n) F.MON_THR_CFG_stat) else d

/-- The window length of an instance in ns (R490); a length of 0 acts as 1. -/
def Dev.monWindow (d : Dev) (n : Nat) : Nat :=
  max 1 (d.get (R.MON_WIN n) F.MON_WIN_length) * (if d.flag (R.MON_WIN n) F.MON_WIN_sf then superNs else 1000000)

/-- A step of NT ends the running window of every instance (R490). -/
def Dev.monStep (d : Dev) : Dev := (List.range 32).foldl (fun d n => d.monClose n true) d

/-- A write to MON_n_CFG or MON_n_WIN discards the running window (R490). -/
def Dev.monRestart (d : Dev) (n : Nat) : Dev := d.setMon n { d.mon n with cur := MonStat.empty, held := false }

/-- The result registers as a read sees them: the latch where it holds, else the last window's (R493). -/
def Dev.monRes (d : Dev) (n : Nat) : MonRes :=
  match (d.mon n).latch with
  | some (r, _) => r
  | none => (d.mon n).last

/-- The word of MON_n_STATUS. -/
def MonRes.status (r : MonRes) : Word := BitVec.ofNat 32 (bitOf r.stepped * 65536 + r.seq)

/-- A read of MON_n_STATUS latches every result register of the instance (R493). -/
def Dev.readMonStatus (d : Dev) (n : Nat) : Dev :=
  (d.setMon n { d.mon n with latch := some ((d.mon n).last, d.xo) }).answer (d.mon n).last.status

/-- A read of MON_n_HIST_31 returns bin 31 and releases the latch (R493). -/
def Dev.readMonHist31 (d : Dev) (n : Nat) : Dev :=
  (d.setMon n { d.mon n with latch := none }).answer (BitVec.ofNat 32 (smGet (fun _ => 0) (d.monRes n).stat.hist 31))

/-- 1 s after the latch it is released (R493). -/
def Dev.monLatchTimeout (d : Dev) (n : Nat) : Dev :=
  match (d.mon n).latch with
  | some (_, t) => if t + 1000000000 ≤ d.xo then d.setMon n { d.mon n with latch := none } else d
  | none => d

end Sys2Proof.Machine
end

