-- ==== Sys2Proof/Machine/Clock.lean ====
section
/-! DEFINITION. Clockwork: network time, its snapshot, the three references, lock and holdover, slewing and stepping, PPS_OUT
(02_clockwork.md, R38 to R57). -/

namespace Sys2Proof.Machine

open Sys2Proof

/-- A signed value as the word of a register that saturates. -/
def satWord (x : Int) : Word := BitVec.ofInt 32 (satS 32 x)

/-- The states of Clockwork, as CLK_STATUS.state codes them. -/
def clkFREE : Nat := 0
def clkACQUIRE : Nat := 1
def clkLOCKED : Nat := 2
def clkHOLDOVER : Nat := 3

/-- The state of Clockwork. -/
def Dev.clkState (d : Dev) : Nat := d.get R.CLK_STATUS F.CLK_STATUS_state

/-! ## The snapshot (R40) -/

/-- The five words of a snapshot of NT (R40, R41). -/
def ntSecHi (t : Nat) : Word := BitVec.ofNat 32 (t / 1000000000 / 2 ^ 32 % 65536)
def ntSecLo (t : Nat) : Word := BitVec.ofNat 32 (t / 1000000000)
def ntNs (t : Nat) : Word := BitVec.ofNat 32 (t % 1000000000)
def ntSf (t : Nat) : Word := BitVec.ofNat 32 (superOf t)
def ntSlot (t : Nat) : Word := BitVec.ofNat 32 (slotOf t)

/-- The NT that reads of the snapshot's registers see. -/
def Dev.snapNt (d : Dev) : Nat := match d.clk.snap with
  | some (t, _) => t
  | none => d.nt

/-- A read of CLK_NT_SEC_HI latches the snapshot (R40). -/
def Dev.readNtSecHi (d : Dev) : Dev :=
  { d with clk := { d.clk with snap := some (d.nt, d.xo) }, rdata := ntSecHi d.nt }

/-- A read of CLK_SLOT returns the snapshot and releases it (R40). -/
def Dev.readClkSlot (d : Dev) : Dev :=
  { d with clk := { d.clk with snap := none }, rdata := ntSlot d.snapNt }

/-- 1 ms after the latch the snapshot is released (R40). -/
def Dev.snapTimeout (d : Dev) : Dev :=
  match d.clk.snap with
  | some (_, x) => if x + 1000000 ≤ d.xo then { d with clk := { d.clk with snap := none } } else d
  | none => d

/-! ## The quiet slot (R42, R43) -/

/-- The quiet slot in force at a network time: a written value takes effect at the next superframe boundary. -/
def Dev.quietAt (d : Dev) (t : Nat) : Nat :=
  if superOf d.nt < superOf t then d.get R.CLK_CTRL F.CLK_CTRL_quiet_slot else d.clk.quiet

/-! ## PPS_OUT (R53) -/

/-- PPS_OUT runs: enabled, and LOCKED or HOLDOVER. -/
def Dev.ppsRuns (d : Dev) : Bool :=
  d.flag R.CLK_PPS_CTRL F.CLK_PPS_CTRL_out_en && (d.clkState = clkLOCKED || d.clkState = clkHOLDOVER)

/-- The high time of PPS_OUT in ns; 0 acts as 1, above 99 as 99. -/
def Dev.ppsWidth (d : Dev) : Nat := min 99 (max 1 (d.get R.CLK_PPS_CTRL F.CLK_PPS_CTRL_out_width)) * 10000000

/-- PPS_OUT rises where NT stands at a whole second. -/
def Dev.ppsRiseNow (d : Dev) : Dev :=
  if d.ppsRuns && d.nt % 1000000000 = 0 then { d with clk := { d.clk with ppsRise := some d.nt } } else d

/-- PPS_OUT falls once its high time has passed. -/
def Dev.ppsFallNow (d : Dev) : Dev :=
  match d.clk.ppsRise with
  | some r => if r + d.ppsWidth ≤ d.nt then { d with clk := { d.clk with ppsRise := none } } else d
  | none => d

/-! ## References (R44 to R51) -/

/-- The state of a reference. -/
def Dev.refSt (d : Dev) : RefId → RefSt
  | .ptp => d.clk.ptp
  | .pps => d.clk.pps
  | .ref10m => d.clk.ref

/-- The device with the state of a reference replaced. -/
def Dev.setRefSt (d : Dev) (k : RefId) (x : RefSt) : Dev :=
  match k with
  | .ptp => { d with clk := { d.clk with ptp := x } }
  | .pps => { d with clk := { d.clk with pps := x } }
  | .ref10m => { d with clk := { d.clk with ref := x } }

/-- The enable and validity fields of a reference. -/
def refEnFld : RefId → Fld
  | .ptp => F.CLK_CTRL_ptp_en
  | .pps => F.CLK_CTRL_pps_en
  | .ref10m => F.CLK_CTRL_ref10m_en
def refValidFld : RefId → Fld
  | .ptp => F.CLK_STATUS_ptp_valid
  | .pps => F.CLK_STATUS_pps_valid
  | .ref10m => F.CLK_STATUS_ref10m_valid

def Dev.refOn (d : Dev) (k : RefId) : Bool := d.flag R.CLK_CTRL (refEnFld k)
def Dev.refValid (d : Dev) (k : RefId) : Bool := d.flag R.CLK_STATUS (refValidFld k)

/-- The reference in use: the valid one of highest priority, as CLK_STATUS.source codes it (R44). -/
def Dev.clkSource (d : Dev) : Nat :=
  if d.refValid .ptp then 1 else if d.refValid .pps then 2 else if d.refValid .ref10m then 3 else 0

def refSource : RefId → Nat
  | .ptp => 1
  | .pps => 2
  | .ref10m => 3

/-- CLK_STATUS shows the source. One reference gives the 16 offsets of R50, so a change of source starts their count afresh. -/
def Dev.showSource (d : Dev) : Dev :=
  let d := if d.get R.CLK_STATUS F.CLK_STATUS_source = d.clkSource then d else { d with clk := { d.clk with good := 0 } }
  d.put R.CLK_STATUS F.CLK_STATUS_source d.clkSource

/-- A time reference is valid. -/
def Dev.timeValid (d : Dev) : Bool := d.refValid .ptp || d.refValid .pps

/-- A rejected sample is counted, breaks the run of accepted samples, and is remembered as a cause (R47, R48). -/
def Dev.rejectSample (d : Dev) (k : RefId) (cause : Nat) : Dev :=
  let d := match k with
    | .ptp => d.bump R.CLK_REJECTS F.CLK_REJECTS_ptp
    | .pps => d.bump R.CLK_REJECTS F.CLK_REJECTS_pps
    | .ref10m => d.bump R.CLK_REJECTS_REF F.CLK_REJECTS_REF_ref10m
  d.setRefSt k { d.refSt k with run := 0, rej := if cause = 0 then (d.refSt k).rej else cause }

/-- The pending step for the quiet slot is dropped (R51, R55). -/
def Dev.dropStep (d : Dev) : Dev :=
  { d.put R.CLK_STATUS F.CLK_STATUS_step_pending 0 with clk := { d.clk with stepQuiet := none } }

/-- No time reference is valid any more: HOLDOVER after a lock since reset, else FREE (R51). -/
def Dev.timeLost (d : Dev) : Dev :=
  let st := d.clkState
  if d.timeValid || st = clkFREE || st = clkHOLDOVER then d
  else if d.clk.everLocked then
    (d.dropStep.put R.CLK_STATUS F.CLK_STATUS_state clkHOLDOVER).raise 17
  else d.dropStep.put R.CLK_STATUS F.CLK_STATUS_state clkFREE

/-- The followed PTP master is released, with what was learned from it (R45). -/
def Dev.releaseMaster (d : Dev) : Dev :=
  { d with clk := { d.clk with
    master := none, ptpSeq := none, ptpLead := none, sync2 := none, syncT := none, delay := 0, delayReq := none } }

/-- A reference becomes not valid and loses its run; PTP releases its master too (R44, R45, R48). PPS_IN loses its time of day with its run, so that a
new load or PTP is needed (DESIGN CHOICE: R49 does not say, log entry 203). -/
def Dev.refDrop (d : Dev) (k : RefId) : Dev :=
  let d := (d.put R.CLK_STATUS (refValidFld k) 0).setRefSt k RefSt.reset
  let d := match k with
    | .ptp => d.releaseMaster
    | .pps => { d with clk := { d.clk with ppsAgree := 0, ppsLast := none, ppsTod := none } }
    | .ref10m => d
  d.showSource

/-- A reference whose enable is cleared is not processed: not valid, no run, no event 19 (R44). -/
def Dev.refDisable (d : Dev) (k : RefId) : Dev := (d.refDrop k).timeLost

/-- The fault code of a reference that goes 3 s without an accepted sample (R48). -/
def missFault : RefId → Nat
  | .ptp => 5
  | .pps => 2
  | .ref10m => 7

/-- 3 s have passed without an accepted sample (R48). -/
def Dev.refTimeout (d : Dev) (k : RefId) : Dev :=
  match (d.refSt k).at_ with
  | none => d
  | some x =>
    if d.xo < x + 3000000000 then d
    else if d.refValid k then
      let fault := if (d.refSt k).rej = 0 then missFault k else (d.refSt k).rej
      (((d.refDrop k).put R.CLK_STATUS F.CLK_STATUS_last_fault fault).raise 19 0 fault).timeLost
    else d.refDrop k

/-- PPS_OUT goes low and stays low where it no longer runs (R53). -/
def Dev.ppsStop (d : Dev) : Dev := if d.ppsRuns then d else { d with clk := { d.clk with ppsRise := none } }

/-- A reference with 16 accepted samples in a row becomes valid (R48); PPS_IN needs a time of day too. A time reference takes Clockwork from
FREE or HOLDOVER to ACQUIRE (R51), where PPS_OUT does not run. -/
def Dev.becomeValid (d : Dev) (k : RefId) : Dev :=
  let d := (d.put R.CLK_STATUS (refValidFld k) 1).showSource
  if k ≠ .ref10m && (d.clkState = clkFREE || d.clkState = clkHOLDOVER) then
    { d.put R.CLK_STATUS F.CLK_STATUS_state clkACQUIRE with clk := { d.clk with good := 0 } }.ppsStop
  else d

/-- An accepted sample of a reference: its run grows and its timeout starts afresh (R48). -/
def Dev.countSample (d : Dev) (k : RefId) : Dev :=
  let r := d.refSt k
  d.setRefSt k ⟨min (r.run + 1) 16, some d.xo, 0⟩

/-- The limit of R54 in ns; a value outside 1 to 1,000 us acts as the nearer limit. -/
def Dev.slewMax (d : Dev) : Nat := min 1000 (max 1 (d.get R.CLK_SLEW F.CLK_SLEW_slew_max)) * 1000

/-- The disciplining loop moves XO's frequency on a time offset. The spec gives the loop no law: its correction is a free value (R26, R111; DESIGN
CHOICE, log entry 204). -/
def Dev.loopUpdate (d : Dev) : Dev :=
  let (w, d) := d.takeWord
  { d with clk := { d.clk with loopTrim := w.toInt } }

/-- An offset too large to slew: NT runs without correction until its step, which replaces one that waited (R55; DESIGN CHOICE of the replacement, log
entry 205). -/
def Dev.planStep (d : Dev) (off : Int) : Dev :=
  let d := { d.dropStep with clk := { d.dropStep.clk with good := 0, slew := (0, d.nt), stepMs := none } }
  if off.natAbs ≤ 1000000 then { d with clk := { d.clk with stepMs := some off } }
  else { d.put R.CLK_STATUS F.CLK_STATUS_step_pending 1 with clk := { d.clk with stepQuiet := some off } }

/-- An offset of the time reference in use: slew, or schedule a step; 16 in a row within 1 us lock (R50, R54, R55). An offset within slew_max drops a
step that waits (DESIGN CHOICE, log entry 205). -/
def Dev.useOffset (d : Dev) (off : Int) : Dev :=
  let d := (d.setWord R.CLK_OFFSET (satWord off)).loopUpdate
  if d.slewMax < off.natAbs then d.planStep off
  else
    let d := d.dropStep
    let good := if off.natAbs ≤ 1000 then min (d.clk.good + 1) 16 else 0
    let d := { d with clk := { d.clk with stepMs := none, slew := (off, d.nt), good := good } }
    if good = 16 && d.clkState = clkACQUIRE then
      { ((d.put R.CLK_STATUS F.CLK_STATUS_state clkLOCKED).raise 16 0 d.clkSource) with
        clk := { d.clk with everLocked := true, lockedOnce := true } }
    else d

/-- An accepted time sample: it counts toward validity, or it is used when its reference is the one in use (R44, R48). -/
def Dev.timeSample (d : Dev) (k : RefId) (off : Int) (hasTod : Bool) : Dev :=
  let d := d.countSample k
  if d.refValid k then
    if d.clkSource = refSource k then d.useOffset off else d
  else
    let d := if d.timeValid || !hasTod then d else d.setWord R.CLK_OFFSET (satWord off)
    if 16 ≤ (d.refSt k).run && hasTod then d.becomeValid k else d

/-! ## PTP (R45, R47) -/

/-- The plausibility gate of R47 in ns. -/
def Dev.ptpGate (d : Dev) : Nat := max 1 (d.get R.CLK_PTP_CTRL F.CLK_PTP_CTRL_gate) * 1000

/-- The loop's prediction of the next offset: the last accepted one less what slewing and steps have moved NT by against XO since (DEDUCED, log
entry 14). -/
def Dev.ptpPrediction (d : Dev) : Option Int := d.clk.ptpLead.map (fun x => x - ((d.nt : Int) - d.xo))

/-- A PTP offset with its sequenceId (R47). -/
def Dev.ptpSample (d : Dev) (seq : Nat) (off : Int) : Dev :=
  let late := match d.clk.ptpSeq with
    | none => false
    | some s => !(decide (0 < (seq + 65536 - s) % 65536) && decide ((seq + 65536 - s) % 65536 < 32768))
  if late then d.rejectSample .ptp 3
  else
    let far := match d.ptpPrediction with
      | none => false
      | some p => decide (d.ptpGate < (off - p).natAbs)
    if far then d.rejectSample .ptp 4
    else
      let d := { d with clk := { d.clk with ptpSeq := some seq, ptpLead := some (off + ((d.nt : Int) - d.xo)) } }
      d.timeSample .ptp off true

/-- The offset of a Sync, reference minus NT, by delay request-response (PRESUMED of IEEE 1588, log entry 14). -/
def Dev.syncOffset (d : Dev) (origin ingress : Int) : Int := origin + d.clk.delay - ingress

/-- After a Sync whose offset it has formed, Clockwork asks for the delay: a new Delay_Req takes the next sequenceId in place of one unanswered (R45;
DESIGN CHOICE of the moment, log entry 83). -/
def Dev.askDelay (d : Dev) : Dev :=
  { d with clk := { d.clk with delayReq := some (d.clk.delaySeq, none), delaySeq := (d.clk.delaySeq + 1) % 65536 } }

/-- A message of the followed master (R45). -/
def Dev.ptpBody (d : Dev) (seq : Nat) : PtpBody → Dev
  | .announce => d
  | .sync1 t1 t2 =>
    let off := d.syncOffset t1 t2
    ({ d with clk := { d.clk with syncT := some (t1, t2) } }.ptpSample seq off).askDelay
  | .sync2 t2 => { d with clk := { d.clk with sync2 := some (seq, t2.toNat) } }
  | .followUp t1 =>
    match d.clk.sync2 with
    | some (s, t2) =>
      if s = seq then
        let off := d.syncOffset t1 t2
        ({ d with clk := { d.clk with sync2 := none, syncT := some (t1, (t2 : Int)) } }.ptpSample seq off).askDelay
      else d
    | none => d
  | .delayResp mine t4 =>
    match d.clk.syncT, d.clk.delayReq with
    | some (t1, t2), some (s, some t3) =>
      if mine && s == seq then { d with clk := { d.clk with delay := ((t2 - t1) + (t4 - (t3 : Int))) / 2, delayReq := none } } else d
    | _, _ => d

/-- A PTP message on Clockwork's port (R45): another domain or master is a rejected sample, an Announce with no master followed is followed. A Sync
while no master is followed is a rejected sample too (DESIGN CHOICE, log entry 207); a new domain, port or transport in CLK_PTP_CTRL keeps the master
that is followed and its run (DESIGN CHOICE, log entry 208). -/
def Dev.ptpMessage (d : Dev) (m : PtpMsg) : Dev :=
  let port := d.get R.CLK_PTP_CTRL F.CLK_PTP_CTRL_port
  let port := if port < 8 then port else 0
  let tr := d.get R.CLK_PTP_CTRL F.CLK_PTP_CTRL_transport
  if !d.refOn .ptp || m.mac.val != port || !(tr == 3 || tr == m.transport.val) then d
  else
    let isSample := match m.body with
      | .sync1 _ _ | .sync2 _ => true
      | _ => false
    if m.domain != d.get R.CLK_PTP_CTRL F.CLK_PTP_CTRL_domain then
      if isSample then d.rejectSample .ptp 0 else d
    else match d.clk.master with
      | none =>
        if m.body = .announce then
          { d with clk := { d.clk with master := some m.master } }.setRefSt .ptp ⟨0, some d.xo, 0⟩
        else if isSample then d.rejectSample .ptp 0 else d
      | some x =>
        if x = m.master then d.ptpBody m.seq m.body
        else if isSample then d.rejectSample .ptp 0 else d

/-! ## PPS_IN and REF10M_IN (R47, R49) -/

/-- The nearest whole second of a time in ns. -/
def nearSec (t : Int) : Int := (t + 500000000) / 1000000000

/-- The time of day of an accepted edge at NT e, n seconds after the last: loaded, PTP's while PTP is valid, or the last edge's plus the seconds between
(R49). R49 gives each later edge 1 s; after missed or irregular edges n is the nearest whole number of seconds (DESIGN CHOICE, log entry 206). -/
def Dev.edgeTod (d : Dev) (e : Int) (n : Int) : Option Nat :=
  if d.refValid .ptp then some (nearSec (e + d.ptpPrediction.getD 0)).toNat
  else if d.flag R.CLK_TOD_CTRL F.CLK_TOD_CTRL_load then
    some (d.get R.CLK_TOD_SEC_HI F.CLK_TOD_SEC_HI_sec_hi * 2 ^ 32 + d.get R.CLK_TOD_SEC_LO F.CLK_TOD_SEC_LO_sec_lo)
  else d.clk.ppsTod.map (fun s => s + n.toNat)

/-- A filtered edge of PPS_IN at NT t (R47, R49). Edges are spaced on the XO count, so slewing and steps of NT move no expected second. -/
def Dev.ppsEdge (d : Dev) (t : Nat) : Dev :=
  if !d.refOn .pps then d
  else
    let late : Int := sext 12 (d.get R.CLK_PPS_CTRL F.CLK_PPS_CTRL_in_delay)
    let e : Int := (t : Int) - late
    let x : Int := (d.xo : Int) - late
    let (near, n) : Bool × Int := match d.clk.ppsLast with
      | none => (false, 1)
      | some l =>
        let n := nearSec (x - l)
        (decide (1 ≤ n) && decide ((x - l - n * 1000000000).natAbs ≤ 2000), n)
    if d.clk.ppsAgree ≥ 3 && !near then d.rejectSample .pps 1
    else
      let agree := if near && (n == 1 || decide (3 ≤ d.clk.ppsAgree)) then min (d.clk.ppsAgree + 1) 3 else 1
      let tod := d.edgeTod e n
      let d := d.put R.CLK_TOD_CTRL F.CLK_TOD_CTRL_load 0
      let d := { d with clk := { d.clk with ppsAgree := agree, ppsLast := some x, ppsTod := tod } }
      match tod with
      | some s => d.timeSample .pps ((s : Int) * 1000000000 - e) true
      | none => d.timeSample .pps 0 false

/-- A measurement of REF10M_IN over 1 s: its frequency's departure from 10 MHz against XO, ppb (R47). While it is the reference in use, in FREE or
in HOLDOVER, XO's frequency follows it (R44, R51, R111; DEDUCED, log entry 204). -/
def Dev.refMeasure (d : Dev) (ppb : Int) : Dev :=
  if !d.refOn .ref10m then d
  else if 20000 < ppb.natAbs then d.rejectSample .ref10m 6
  else
    let d := d.countSample .ref10m
    if d.refValid .ref10m then
      if d.clkSource = 3 then { d with clk := { d.clk with loopTrim := d.clk.loopTrim + ppb } } else d
    else if 16 ≤ d.clk.ref.run then d.becomeValid .ref10m else d

/-- A reading of a HUB sensor in HOLDOVER, in 1/16 degree: where REF10M_IN does not discipline XO, XO is held at its last disciplined frequency,
corrected for temperature by a law the spec does not give (R51, R111; DESIGN CHOICE, log entry 204). -/
def Dev.holdTemp (d : Dev) (old : Option Int) (v : Int) : Dev :=
  match old with
  | some u =>
    if d.clkState = clkHOLDOVER && d.clkSource != 3 then
      { d with clk := { d.clk with loopTrim := d.clk.loopTrim + (Config.xoDrift u v).toInt } }
    else d
  | none => d

/-- CLK_TOD_CTRL.load is set: the next accepted edge takes the staged seconds (R49). -/
def Dev.todLoad (d : Dev) : Dev := d.put R.CLK_TOD_CTRL F.CLK_TOD_CTRL_load 1

/-! ## Steps (R55) -/

/-- NT steps by an offset: event 18, CLK_LAST_STEP, no slew left, the monitors' windows ended, the trim window discarded (R55, R459,
R490). What is kept in NT moves with it. -/
def Dev.stepNt (d : Dev) (delta : Int) : Dev :=
  let d := ({ d with nt := ((d.nt : Int) + delta).toNat }.setWord R.CLK_LAST_STEP (satWord delta)).raise 18
  let d := { d with clk := { d.clk with
    good := 0
    slew := (0, d.nt)
    stepMs := none
    syncT := none
    sync2 := none } }
  { d.dropStep.monStep with rtc := { d.rtc with trimAt := none } }

/-! ## Holdover feedback (R52) -/

/-- The trim of R52 in force, ppb. -/
def Dev.clkTrim (d : Dev) : Int := sext 32 (d.get R.CLK_TRIM F.CLK_TRIM_trim)

/-- A scheduled burst with LQF of at least 40 gives its frequency offset in ppb of its carrier (R52). -/
def Dev.holdFeed (d : Dev) (ppb : Rat) (lqf : Nat) : Dev :=
  if d.clkState = clkHOLDOVER && 40 ≤ lqf then
    { d with clk := { d.clk with holdSum := d.clk.holdSum + ppb, holdN := d.clk.holdN + 1 } }
  else d

/-- The superframe's end: the mean of its bursts moves the trim in HOLDOVER, else the trim returns to 0 by 1 ppb (R52). -/
def Dev.holdFeedback (d : Dev) : Dev :=
  let w := d.get R.CLK_HOLD F.CLK_HOLD_weight
  let need := max 1 (d.get R.CLK_HOLD F.CLK_HOLD_min_bursts)
  let trim := d.clkTrim
  let trim' :=
    if d.clkState = clkHOLDOVER then
      if w ≠ 0 && need ≤ d.clk.holdN then
        clampInt (-2000) 2000 (trim + roundAway (-(d.clk.holdSum / (d.clk.holdN : Rat)) * (w : Rat) / 256))
      else trim
    else if 0 < trim then trim - 1 else if trim < 0 then trim + 1 else 0
  { d.setWord R.CLK_TRIM (BitVec.ofInt 32 trim') with clk := { d.clk with holdSum := 0, holdN := 0 } }

end Sys2Proof.Machine
end

