-- ==== Sys2Proof/Machine/Ziloth.lean ====
section
/-! DEFINITION. The Ziloth air interface: link modes, burst lengths and runs, whitening, coding, interleaving and symbols, and the layouts of headers,
grants, beacons and join messages (03_ziloth_air_interface.md, R67 to R108). -/

namespace Sys2Proof.Machine

open Sys2Proof

/-! ## Link modes (R70) -/

/-- The size of a bonded group of each two-bit code: one, two, four; 0 for the invalid code (R154). -/
def groupOf : Nat → Nat
  | 0 => 1 | 1 => 2 | 2 => 4 | _ => 0

/-- The group size that a link mode uses (R70). -/
def modeGroup (m : Nat) : Nat := if m ≤ 4 then 1 else if m = 5 then 2 else 4

/-- The two-bit code of a link mode's group size. -/
def modeGroupCode (m : Nat) : Nat := if m ≤ 4 then 0 else if m = 5 then 1 else 2

/-- The symbol rate Rs of a link mode in symbols per second (R70). -/
def modeRate (m : Nat) : Nat :=
  if m = 0 then 1200 else if m = 1 then 2400 else if m ≤ 4 then 4800 else if m = 5 then 9600 else 19200

/-- The mode sends two bits a symbol (R70). -/
def modeFour (m : Nat) : Bool := decide (3 ≤ m)

/-- The inner deviation fd = Rs/4 in Hz (R71). -/
def modeFd (m : Nat) : Nat := modeRate m / 4

/-! ## Lengths and durations (R75, R88, R89, R91 to R93, R95) -/

/-- D: the bits of the coded block of an L-byte payload (R75). -/
def blockBits (len : Nat) : Nat := 8 * (len + 16) + 6

/-- N: the coded bits of a block of D bits (R88, R89). -/
def codedBits (m d : Nat) : Nat :=
  if m = 0 then 8 * d
  else if m ≤ 3 then 2 * d
  else if m ≤ 6 then 4 * (d / 3) + [0, 2, 3].getD (d % 3) 0
  else 8 * (d / 7) + [0, 2, 3, 4, 5, 6, 7].getD (d % 7) 0

/-- M: the data symbols (R91). -/
def dataSymbols (m len : Nat) : Nat :=
  let n := codedBits m (blockBits len)
  if modeFour m then (n + 1) / 2 else n

/-- The symbols of a whole burst, both ramps included (R92, R93). -/
def burstSymbols (m len : Nat) (pilot : Bool) : Nat :=
  let x := dataSymbols m len
  x + (if pilot then 4 * (x / 32) else 0) + 64

/-- A burst's duration in ns, rounded up (R93). -/
def burstNs (m len : Nat) (pilot : Bool) : Nat := ceilDiv (burstSymbols m len pilot * 1000000000) (modeRate m)

/-- The slots of a run (R95). -/
def runSlots (m len : Nat) (pilot : Bool) : Nat := ceilDiv (burstNs m len pilot + 1000000) 20000000

/-- The largest L of a downlink run (R105, R209). -/
def dlMaxL (m : Nat) : Nat := if m = 0 then 67 else 255

/-! ## Frequencies (R67, R68, R166) -/

/-- The nominal centre of a group in Hz; a group of an even size is centred half a sub-channel up, so twice the centre is exact (R68). -/
def groupCentre2 (fc k0 n : Nat) : Int := 2 * (fc : Int) + (2 * k0 + n - 1 - 1536 : Int) * 15000

/-- The nearest integer to a / b, ties towards zero (R166); b is positive. -/
def roundTowardZero (a b : Int) : Int :=
  if 0 ≤ a then (2 * a + b - 1) / (2 * b) else -((2 * -a + b - 1) / (2 * b))

/-- The expected offset in Hz of a burst for an estimate o in ppb (R166). -/
def expectHz (o : Int) (fc k0 n : Nat) : Int := roundTowardZero (o * groupCentre2 fc k0 n) 2000000000

/-- The receive group start k_rx (R166); it may lie outside the band. -/
def rxStart (o : Int) (fc k0 n : Nat) : Int := (k0 : Int) + n * roundTowardZero (expectHz o fc k0 n) (n * 15000)

/-- An offset in Hz as ppb of a group's nominal centre, rounded to nearest, ties towards zero (R174). -/
def toPpb (hz : Int) (fc k0 n : Nat) : Int := roundTowardZero (hz * 2000000000) (groupCentre2 fc k0 n)

/-! ## Whitening (R85, R86) -/

/-- One step of the whitening generator: its output bit and next state. -/
def whiteStep (s : Nat) : Bool × Nat := (s.testBit 0, s / 2 + (bitOf (s.testBit 0 != s.testBit 5)) * 256)

/-- Bits with the generator's output added, and the generator's state after them. -/
def whitenBits : Nat → List Bool → List Bool × Nat
  | s, [] => ([], s)
  | s, b :: rest =>
    let (w, s) := whiteStep s
    let (r, s) := whitenBits s rest
    ((b != w) :: r, s)

/-- The node seed of a header address (R86). -/
def nodeSeed (a : Nat) : Nat :=
  let x := a % 512 ^^^ a / 2 ^ 9 % 512 ^^^ a / 2 ^ 18 % 512 ^^^ a / 2 ^ 27 % 32
  if x = 0 then 511 else x

/-- The bits of a byte string, least significant first (R74). -/
def bitsLsb (bs : Bytes) : List Bool := bs.flatMap (fun b => (List.range 8).map (fun i => b.getLsbD i))

/-- The whitened block with its tail: header, then payload, MIC and CRC under the node seed, then six zero bits (R86). -/
def whiteBlock (block : Bytes) : List Bool :=
  (whitenBits 511 (bitsLsb (block.take 8))).1 ++ (whitenBits (nodeSeed (leAt block 0 4)) (bitsLsb (block.drop 8))).1
    ++ List.replicate 6 false

/-! ## Coding and interleaving (R87 to R90) -/

/-- One input bit of the convolutional encoder: its outputs A and B; h holds the last six bits, newest first (R87). -/
def convBit (u : Bool) (h : List Bool) : Bool × Bool :=
  let t (i : Nat) : Bool := h.getD (i - 1) false
  ((((u != t 2) != t 3) != t 5) != t 6, (((u != t 1) != t 2) != t 3) != t 6)

/-- The encoder over a bit string, punctured by a pattern: index of the bit, last bits, input (R87, R88). -/
def convRun (pa pb : List Bool) : Nat → List Bool → List Bool → List Bool
  | _, _, [] => []
  | i, h, u :: rest =>
    let (a, b) := convBit u h
    (if pa.getD (i % pa.length) true then [a] else []) ++ (if pb.getD (i % pb.length) true then [b] else [])
      ++ convRun pa pb (i + 1) ((u :: h).take 6) rest

/-- The puncture patterns of a mode (R88). -/
def puncture (m : Nat) : List Bool × List Bool :=
  if m ≤ 3 then ([true], [true])
  else if m ≤ 6 then ([true, true, false], [true, false, true])
  else ([true, false, false, false, true, false, true], [true, true, true, true, false, true, false])

/-- The coded bits of a block (R87 to R89). -/
def codeBits (m : Nat) (bits : List Bool) : List Bool :=
  let (pa, pb) := puncture m
  let c := convRun pa pb 0 [] bits
  if m = 0 then c.flatMap (fun b => [b, b, b, b]) else c

/-- The interleaver of R90. -/
def interleave (c : List Bool) : List Bool :=
  let n := c.length
  let rows := (n + 15) / 16
  (List.range 16).flatMap (fun col => (List.range rows).filterMap (fun row =>
    if row * 16 + col < n then some (c.getD (row * 16 + col) false) else none))

/-! ## Symbols (R71 to R73, R91, R92), in the codes of R155: 0 for +1, 1 for -1, 2 for +3, 3 for -3 -/

/-- The symbol of one bit of a ramp, preamble, sync word, training block or pilot (R72). -/
def oneBitSymbol (m : Nat) (b : Bool) : Nat := (if b then 0 else 1) + (if modeFour m then 2 else 0)

/-- The data symbols of the interleaved bits (R71, R91). -/
def dataSyms (four : Bool) : List Bool → List Nat
  | [] => []
  | [a] => if four then [if a then 1 else 0] else [if a then 0 else 1]
  | a :: b :: rest =>
    if four then (match a, b with
      | false, true => 2 | false, false => 0 | true, false => 1 | true, true => 3) :: dataSyms four rest
    else (if a then 0 else 1) :: dataSyms four (b :: rest)

/-- Data symbols with a pilot group after each complete run of 32 (R92). -/
def withPilots (m : Nat) (xs : List Nat) : List Nat :=
  (chunksOf 32 xs).flatMap (fun c => if c.length = 32 then c ++ [true, false, false, true].map (oneBitSymbol m) else c)

/-- Every symbol of a burst: ramp, preamble, sync word, training block, data, ramp (R73). -/
def burstSyms (m w : Nat) (pilot : Bool) (block : Bytes) : List Nat :=
  let data := dataSyms (modeFour m) (interleave (codeBits m (whiteBlock block)))
  let alt (n : Nat) : List Nat := (List.range n).map (fun i => oneBitSymbol m (i % 2 == 0))
  alt 4 ++ alt 16 ++ (List.range 24).map (fun i => oneBitSymbol m (w.testBit i))
    ++ (List.range 16).map (fun i => oneBitSymbol m ((0x0F35 : Nat).testBit i))
    ++ (if pilot then withPilots m data else data) ++ alt 4

/-- Symbols packed four to a byte, the first in the low bits (R155). -/
def packSyms (xs : List Nat) : Bytes :=
  (chunksOf 4 xs).map (fun c => BitVec.ofNat 8 (c.getD 0 0 + 4 * c.getD 1 0 + 16 * c.getD 2 0 + 64 * c.getD 3 0))

/-! ## Headers, nonces, grants and bodies -/

/-- The header control word (R75, R76). -/
def controlWord (flags seq mode len : Nat) : Nat := flags % 256 * 2 ^ 24 + seq % 4096 * 4096 + mode % 8 * 256 + len % 256

/-- The flags of R76 by bit. -/
def flJoin : Nat := 1
def flPilot : Nat := 4
def flDir : Nat := 8
def flMore : Nat := 16
def flBeacon : Nat := 32
def flGrant : Nat := 64

/-- The header's eight bytes. -/
def headerBytes (addr ctl : Nat) : Bytes := toLE 4 addr ++ toLE 4 ctl

/-- The coded block's bytes before the tail: header, body, MIC and CRC (R75, R84). -/
def blockBytes (hdr body mic : Bytes) : Bytes :=
  let x := hdr ++ body ++ mic
  x ++ toLE 4 (crc32 x)

/-- The nonce of R79. -/
def nonceBytes (addr code seq frame w : Nat) : Bytes :=
  toLE 4 addr ++ toLE 2 (code % 16 * 4096 + seq % 4096) ++ toLE 3 (frame % 2 ^ 20) ++ toLE 3 w ++ [0]

/-- A grant entry's ten bytes (R104). -/
def Grant.bytes (g : Grant) (addr : Nat) : Bytes :=
  toLE 4 addr ++ toLE 2 (g.radio * 2 ^ 14 + g.mode * 2 ^ 11 + g.k0) ++ toLE 1 g.slot ++ toLE 1 (2 * bitOf g.pilot + bitOf g.dl)
    ++ toLE 2 g.period

/-- The grant of ten bytes (R104). -/
def Grant.ofBytes (bs : Bytes) : Grant :=
  let w := leAt bs 4 2
  ⟨w / 2 ^ 14, w / 2 ^ 11 % 8, w % 2048, byteAt bs 6, (byteAt bs 7).testBit 1, (byteAt bs 7).testBit 0, leAt bs 8 2⟩

/-- A beacon body (R103). -/
def beaconBody (sf : Nat) (joinOpen freeRun hold : Bool) (gw : Nat) (grants : List Bytes) : Bytes :=
  toLE 4 sf ++ toLE 1 (sf / 2 ^ 32) ++ toLE 1 (4 * bitOf joinOpen + 2 * bitOf freeRun + bitOf hold) ++ toLE 2 gw
    ++ toLE 1 grants.length ++ grants.flatten

/-- A join response payload (R100). -/
def joinRespBody (sf slot : Nat) (ul dl : Bytes) : Bytes := toLE 4 sf ++ toLE 1 (sf / 2 ^ 32) ++ toLE 1 slot ++ ul ++ dl

/-- The fate of a counted burst by its sequence number and the held count (R82, R83): 0 new, 1 duplicate, 2 stale, 3 exhausted, and the
frame counter used. -/
def seqFate (held seq : Nat) : Nat × Nat :=
  let last := held % 4096
  let fc := held / 4096
  let delta := (seq + 4096 - last) % 4096
  if held = 0xFFFFFFFF then (3, fc)
  else if delta = 0 then (1, fc)
  else if delta < 2048 then
    let f := fc + (if seq < last then 1 else 0)
    if 2 ^ 20 ≤ f then (3, f) else (0, f)
  else (2, fc)

end Sys2Proof.Machine
end

