-- ==== Sys2Proof/Machine/Wave.lean ====
section
/-! DEFINITION. The signal processing of the Kaleidoscopes on plain numbers: the DC notch, the analysis bank, the combiner, the bin-merge units, the burst
detectors' correlation and the synthesis bank's carriers (05_kaleidoscope.md, R138 to R144, R151, R155 to R157; R71, R73). -/

namespace Sys2Proof.Machine

open Sys2Proof

/-! ## Sines and cosines -/

/-- pi in units of 2^-60. -/
def pi60 : Int := 3622009729038561421

/-- n terms of the series of sine or cosine from a term t of order i on, for a squared angle in units of 2^-60. -/
def series60 (x2 : Int) : Nat → Nat → Int → Int
  | 0, _, _ => 0
  | n + 1, i, t => t + series60 x2 n (i + 2) (-(t * x2) / 2 ^ 60 / ((i + 1) * (i + 2) : Nat))

/-- Cosine and sine of a / n turns in units of 2^-60. The spec states no precision of the banks' factors (DESIGN CHOICE, log entry 226). -/
def turn60 (a n : Nat) : Int × Int :=
  let x := pi60 * (4 * a % n : Nat) / (2 * n : Nat)
  let x2 := x * x / 2 ^ 60
  let c := series60 x2 14 0 (2 ^ 60)
  let s := series60 x2 14 1 x
  match 4 * a / n % 4 with
  | 0 => (c, s)
  | 1 => (-s, c)
  | 2 => (-c, -s)
  | _ => (s, -c)

/-! ## Levels -/

/-- 10^(k/40) for k = 0 to 39, times 10^40, rounded down. -/
def tenthRoots : List Nat :=
  [10000000000000000000000000000000000000000, 10592537251772888788092803732781086199794,
   11220184543019634355910389464779057367223, 11885022274370184377301224648921772712021,
   12589254117941672104239541063958006060936, 13335214321633240256759317152953310924156,
   14125375446227543021556078639302409297897, 14962356560944334118802851143878871577713,
   15848931924611134852021013733915070132694, 16788040181225603139719500804155830107699,
   17782794100389228012254211951926848447357, 18836490894898005350008911502087496850681,
   19952623149688796013524553967395355579862, 21134890398366467955603453173793280104874,
   22387211385683396119549508524657423337072, 23713737056616552616517527574788898385679,
   25118864315095801110850320677993273941585, 26607250597988096349913117026305600070355,
   28183829312644538191019236991551107186830, 29853826189179596179132769625215725377687] ++
  [31622776601683793319988935444327185337195, 33496543915782765954877261908973733971195,
   35481338923357545843321870226449062049134, 37583740428844416737771095915030739979055,
   39810717055349725077025230508775204348767, 42169650342858224856901335950940637825096,
   44668359215096311855625052431937661637730, 47315125896148047890327111201985926819403,
   50118723362727228500155418688494576806047, 53088444423098835220046186836774826896406,
   56234132519034908039495103977648123146825, 59566214352901046050979828252716554822054,
   63095734448019324943436013662234386467294, 66834391756861460836257446738761346050899,
   70794578438413791080221494218931270935443, 74989420933245582730218427561513643844186,
   79432823472428150206591828283638793258896, 84139514164519509115274189380047643286240,
   89125093813374552995310868107829696398587, 94406087628592338036438049660226718126591]

/-- 10^(q/40) as a rational: a level of q quarter-dB as a ratio. -/
def ratio40 (q : Int) : Rat :=
  let k := (q % 40).toNat
  let e := q / 40
  let m : Rat := (tenthRoots.getD k 0 : Nat)
  if 0 ≤ e then m * (10 ^ e.toNat : Nat) / (10 ^ 40 : Nat) else m / (10 ^ (40 + e.natAbs) : Nat)

/-! ## Samples -/

/-- An exact complex value. -/
abbrev CQ := Rat × Rat

/-- The value of a sample that was not received, 0x8000_8000 (R141). -/
def notRx : IQ := (-32768, -32768)

/-- A component as a sample shows it: rounded to nearest, ties away from zero, and saturated to 32,767 either way (R141). -/
def sampleInt (x : Rat) : Int := max (-32767) (min 32767 (roundAway x))

/-- The four bytes of a sample (R145). -/
def iqBytes (x : IQ) : Bytes := toLE 2 (wrapNat 16 x.1) ++ toLE 2 (wrapNat 16 x.2)

/-- The sample of a word: I in the low half, Q in the high half (R145). -/
def iqOfWord (w : Nat) : IQ := (sext 16 (w % 65536), sext 16 (w / 65536))

/-- |x|^2. -/
def iqPower (x : IQ) : Nat := (x.1 * x.1 + x.2 * x.2).toNat

/-- The mean power of the samples that were received, in sample units squared; 0 of none. -/
def meanPower (xs : List IQ) : Rat :=
  let ys := xs.filter (· != notRx)
  if ys.isEmpty then 0 else ((ys.foldl (fun a x => a + iqPower x) 0 : Nat) : Rat) / (ys.length : Nat)

/-! ## The DC notch (R142) -/

/-- The exponent s of KAL_CTRL.dc_shift: none turns the notch off; 1 to 11 act as 12, above 20 acts as 20. -/
def notchShift (v : Nat) : Option Nat := if v = 0 then none else if v < 12 then some 12 else some (min 20 v)

/-- The notch over a run of input samples: its outputs and d after them. -/
def notch (s : Option Nat) : CQ → List IQ → List CQ × CQ
  | d, [] => ([], d)
  | d, x :: rest =>
    match s with
    | none =>
      let (ys, e) := notch s d rest
      (((x.1 : Rat), (x.2 : Rat)) :: ys, e)
    | some n =>
      let y : CQ := ((x.1 : Rat) - d.1, (x.2 : Rat) - d.2)
      let (ys, e) := notch s (d.1 + y.1 / (2 ^ n : Nat), d.2 + y.2 / (2 ^ n : Nat)) rest
      (y :: ys, e)

/-! ## The analysis bank (R138, R139, R141) -/

/-- The taps of the prototype filter. -/
def bankTaps : Nat := 32768

/-- The FFT bin of a sub-channel (R138). -/
def binOf (k : Nat) : Nat := (k + 1280) % 2048

/-- The inputs of the bank that are not 0, with their places: the others add nothing to any output. -/
def bankInputs (z : List CQ) : List (CQ × Nat) := z.zipIdx.filter (fun p => p.1 != (0, 0))

/-- Output m of a sub-channel's stream from the bank's inputs, the first 32,768 of them history, with coefficients h in units of 2^-17: the input shifted down
by the sub-channel's frequency, filtered and decimated by 1,024 (R138, R139). Tap 16,384 stands at the output's own instant, so the group delay is removed,
and input sample 16,383 of the history stands at a multiple of the slot grid, from which the shift counts its phase (DESIGN CHOICE, log entry 226). -/
def bankOut (h : Nat → Int) (z : List (CQ × Nat)) (k m : Nat) : CQ :=
  z.foldl (fun (acc : CQ) p =>
    let i := 32767 + 1024 * m - p.2
    if 32767 + 1024 * m < p.2 || bankTaps ≤ i then acc
    else
      let (c, s) := turn60 (binOf k * (p.2 + 1) % 2048) 2048
      (acc.1 + h i * (p.1.1 * c + p.1.2 * s) / (2 ^ 77 : Nat), acc.2 + h i * (p.1.2 * c - p.1.1 * s) / (2 ^ 77 : Nat))) (0, 0)

/-- A bank output as the stream's sample at an output scale (R141): each step of out_shift doubles it, 8 being 1. -/
def bankSample (outShift : Nat) (y : CQ) : IQ :=
  let g : Rat := (2 ^ outShift : Nat) / (2 ^ 8 : Nat)
  (sampleInt (y.1 * g), sampleInt (y.2 * g))

/-- The newest 32,768 of a list of inputs, zeros before the first. -/
def bankHistory (z : List CQ) : List CQ := List.replicate (bankTaps - z.length) (0, 0) ++ z.drop (z.length - bankTaps)

/-! ## The combiner (R143) -/

/-- a / sqrt b to the nearest integer, ties away from zero, saturated as a sample. -/
def rootQuot (a b : Rat) : Int :=
  let n : Int := ((Nat.sqrt (4 * a * a / b).floor.toNat + 1) / 2 : Nat)
  max (-32767) (min 32767 (if a < 0 then -n else n))

/-- The combined sample of both ports under the smoothed sums in force (R143). -/
def Divers.out (v : Divers) (x0 x1 : IQ) : IQ :=
  if v.ref1 then
    let b := v.p1 * (v.p0 + v.p1)
    if v.p1 = 0 then x0
    else (rootQuot (v.cRe * x0.1 + v.cIm * x0.2 + v.p1 * x1.1) b, rootQuot (v.cRe * x0.2 - v.cIm * x0.1 + v.p1 * x1.2) b)
  else
    let b := v.p0 * (v.p0 + v.p1)
    if v.p0 = 0 then x1
    else (rootQuot (v.p0 * x0.1 + v.cRe * x1.1 - v.cIm * x1.2) b, rootQuot (v.p0 * x0.2 + v.cRe * x1.2 + v.cIm * x1.1) b)

/-! ## The bin-merge units (R144) -/

/-- The taps of a merge unit for each of its n streams. -/
def mergeTaps (n : Nat) : Nat := 32 * n

/-- Sample j of a merged stream of n sub-channels, counted as the streams' samples are, n to one: each stream's samples shifted to its place about the
group's centre and filtered by the unit's prototype, which the spec does not give (log entry 227). A sample is marked as not received where the streams'
sample of its instant is. -/
def mergeOut (n : Nat) (get : Nat → Nat → IQ) (j : Nat) : IQ :=
  if get 0 (j / n) = notRx then notRx
  else
    let y := (List.range n).foldl (fun (acc : CQ) c =>
      let (co, si) := turn60 ((2 * c + 3 * n + 1) * j % (4 * n)) (4 * n)
      (List.range 32).foldl (fun (acc : CQ) i =>
        let x := get c (j / n - i)
        let g := (Config.mergeTap n (j - n * (j / n - i))).toInt
        if x = notRx then acc
        else (acc.1 + g * (x.1 * co - x.2 * si : Int) / (2 ^ 77 : Nat), acc.2 + g * (x.2 * co + x.1 * si : Int) / (2 ^ 77 : Nat))) acc) (0, 0)
    (sampleInt y.1, sampleInt y.2)

/-! ## The burst detectors (R150, R151) -/

/-- The discriminator's output between two consecutive samples: positive where the phase turns forward (DESIGN CHOICE of the cross product, log
entry 228). -/
def discriminate (x y : IQ) : Int := if x = notRx || y = notRx then 0 else y.2 * x.1 - y.1 * x.2

/-- The correlation of the discriminator's output over the last 16 symbol periods with an alternating pattern (R151), whichever of its
two values comes first; get gives the sample of an age in samples of 30 ksps. -/
def preambleCorr (rate : Nat) (get : Nat → IQ) : Nat :=
  ((List.range (16 * 30000 / rate)).foldl (fun (acc : Int) i =>
    acc + (if i * rate / 30000 % 2 = 0 then 1 else -1) * discriminate (get (i + 1)) (get i)) 0).natAbs

/-! ## The synthesis bank (R71, R73, R155 to R157) -/

/-- The level of a symbol code in a mode: codes 2 and 3 are sent as +1 and -1 in a 2-GFSK mode (R155). -/
def symbolLevel (four : Bool) (code : Nat) : Int :=
  match code % 4 with
  | 0 => 1
  | 1 => -1
  | 2 => if four then 3 else 1
  | _ => if four then -3 else -1

/-- The levels of the first n symbols of a buffer, four to a byte, the first in the low bits (R155). -/
def symbolLevels (four : Bool) (n : Nat) (buf : Bytes) : List Int :=
  (List.range n).map (fun i => symbolLevel four (byteAt buf (i / 4) / 4 ^ (i % 4)))

/-- The shaping table of a link mode (R157). -/
def shapeTable (mode : Nat) : Nat := if mode ≤ 2 then mode else if mode ≤ 4 then 2 else if mode = 5 then 3 else 4

/-- The instantaneous deviation of a burst in Hz during step u of a sixteenth symbol: fd times the sum of each level by its pulse, the pulse spanning the
symbol before, its own and the symbol after, scaled to unit area per symbol (R71, R157). A table of zeros gives none. -/
def deviation (fd : Nat) (levels : List Int) (table : List Nat) (u : Nat) : Rat :=
  let area : Nat := table.sum
  if area = 0 then 0
  else
    let sum := (List.range 3).foldl (fun (acc : Int) i =>
      -- symbol u/16 + 1 - i stands with its pulse's part i at this step
      if u / 16 + 1 < i then acc else acc + levels.getD (u / 16 + 1 - i) 0 * (table.getD (16 * i + u % 16) 0 : Nat)) 0
    (16 * fd * sum : Int) / (area : Nat)

/-- The amplitude of a burst of s symbols at step u of a sixteenth symbol, in units of 2^-60: a raised cosine over the first and the last four symbols, full
between (R73, R155). -/
def envelope60 (s u : Nat) : Int :=
  if u < 64 then (2 ^ 60 - (turn60 u 128).1) / 2
  else if u < 16 * (s - 4) then 2 ^ 60
  else if u < 16 * s then (2 ^ 60 + (turn60 (u - 16 * (s - 4)) 128).1) / 2
  else 0

/-- The NCO word of a carrier at an offset from the radio's centre frequency, given as twice the offset in Hz: steps of 30.72 MHz / 2^32 (R156), to the
nearest. -/
def ncoWord (off2 : Int) : Nat := wrapNat 32 (roundAway ((off2 * 2 ^ 32 : Int) / (61440000 : Nat)))

end Sys2Proof.Machine
end

