-- ==== Sys2Proof/Machine/Radio.lean ====
section
/-! DEFINITION. The radios: synthesiser, states, transmit checks, levels, the Region Profile, the booster group and the antenna ports
(04_radios.md, R109 to R137, R510). -/

namespace Sys2Proof.Machine

open Sys2Proof

/-! ## DRAM bytes as the blocks reach them (R380, R381) -/

/-- DRAM serves a request for n bytes at an address: MEM is up and no byte lies at or above 0xE000_0000 (R381, R441). -/
def Dev.dramOk (d : Dev) (a n : Nat) : Bool := d.memUp && decide (a + n ≤ 0xE0000000)

/-- One DRAM byte. -/
def Dev.dramByte (d : Dev) (a : Nat) : Byte := smGet (fun _ => 0) d.dram a

/-- n DRAM bytes from an address. -/
def Dev.dramRead (d : Dev) (a n : Nat) : Bytes := (List.range n).map (fun i => d.dramByte (a + i))

/-- Bytes written to DRAM from an address; nothing where DRAM does not serve them. A poisoned word that the write covers whole is replaced (R397). -/
def Dev.dramWrite (d : Dev) (a : Nat) (bs : Bytes) : Dev :=
  if d.dramOk a bs.length then
    { d with
      dram := smWrite (fun _ => 0) d.dram a bs
      drc := { d.drc with poison := d.drc.poison.filter (fun w => !(decide (a ≤ 8 * w) && decide (8 * w + 8 ≤ a + bs.length))) } }
  else d

/-! ## A radio's registers and state -/

def Dev.radio (d : Dev) (r : Nat) : Radio := smGet (fun _ => Radio.reset) d.radios r
def Dev.setRadio (d : Dev) (r : Nat) (x : Radio) : Dev := { d with radios := smSet (fun _ => Radio.reset) d.radios r x }
def Dev.kal (d : Dev) (r : Nat) : Kal := smGet (fun _ => Kal.reset) d.kals r
def Dev.setKal (d : Dev) (r : Nat) (x : Kal) : Dev := { d with kals := smSet (fun _ => Kal.reset) d.kals r x }

/-- The state codes of RAD_STATE. -/
def radOFF : Nat := 0
def radREADY : Nat := 1
def radTUNE : Nat := 2
def radRX : Nat := 3
def radTX : Nat := 4
def radVCO : Nat := 5

/-- The present state; a radio whose die is off reads OFF (R439). -/
def Dev.radState (d : Dev) (r : Nat) : Nat := d.get (R.RAD_STATE r) F.RAD_STATE_state
def Dev.radTarget (d : Dev) (r : Nat) : Nat := d.get (R.RAD_STATE r) F.RAD_STATE_target
def Dev.radLocked (d : Dev) (r : Nat) : Bool := d.flag (R.RAD_STATE r) F.RAD_STATE_locked

/-- The radio receives: in RX with its synthesiser locked (R114, R141). -/
def Dev.receiving (d : Dev) (r : Nat) : Bool := d.radState r == radRX && d.radLocked r

/-- How long a change between receiving and not is remembered, in ns: longer than the longest capture (R148). -/
def rxMemory : Nat := 10000000000

/-- What the radio does for the samples' sake: 1 it receives, 2 it is in TX, 0 neither. -/
def Dev.radioDoes (d : Dev) (r : Nat) : Nat := if d.receiving r then 1 else if d.radState r = radTX then 2 else 0

/-- The device after a step of radio r, of which was tells what it did before: a change is remembered with its NT, so that every sample outside
reception can be marked (R141), and a join request that a transmission overlaps is known (R97). -/
def Dev.logRx (d : Dev) (r was : Nat) : Dev :=
  if d.radioDoes r = was then d
  else
    let x := d.radio r
    let recent := x.rxLog.takeWhile (fun e => decide (d.nt ≤ e.1 + rxMemory))
    d.setRadio r { x with rxLog := (d.nt, d.radioDoes r) :: (recent ++ (x.rxLog.drop recent.length).take 1) }

/-- The radio received at an NT: what the latest change at or before it left (R141). -/
def Dev.receivedAt (d : Dev) (r t : Nat) : Bool :=
  match (d.radio r).rxLog.find? (fun e => decide (e.1 ≤ t)) with
  | some e => e.2 == 1
  | none => false

/-- The radio was in TX at some instant from lo up to hi. -/
def Dev.sentIn (d : Dev) (r lo hi : Nat) : Bool :=
  let log := (d.radio r).rxLog
  log.any (fun e => e.2 == 2 && decide (lo ≤ e.1) && decide (e.1 < hi)) || (match log.find? (fun e => decide (e.1 ≤ lo)) with
    | some e => e.2 == 2
    | none => false)

def Dev.setRadState (d : Dev) (r st : Nat) : Dev := (d.put (R.RAD_STATE r) F.RAD_STATE_state st).logRx r (d.radioDoes r)
def Dev.setRadTarget (d : Dev) (r st : Nat) : Dev := d.put (R.RAD_STATE r) F.RAD_STATE_target st
def Dev.setRadLock (d : Dev) (r : Nat) (b : Bool) : Dev := (d.put (R.RAD_STATE r) F.RAD_STATE_locked (bitOf b)).logRx r (d.radioDoes r)

/-- The device with one radio's state changed. -/
def Dev.onRadio (d : Dev) (r : Nat) (f : Radio → Radio) : Dev := d.setRadio r (f (d.radio r))

/-- A change of state is in progress. -/
def Dev.radChanging (d : Dev) (r : Nat) : Bool := d.radState r != d.radTarget r

/-- The radio is in TX, or has started to leave for TX (R117). -/
def Dev.radInTx (d : Dev) (r : Nat) : Bool := d.radState r == radTX || (d.radio r).leaving

/-- The transmit-return state; 0 acts as RX (R120). -/
def Dev.txReturn (d : Dev) (r : Nat) : Nat :=
  let v := d.get (R.RAD_CTRL r) F.RAD_CTRL_tx_return
  if v = 0 then radRX else v

/-! ## Synthesiser (R109 to R113) -/

/-- The range of f_centre of a radio, Hz (R109). -/
def fcLow : Nat → Nat
  | 0 => 148520000 | 1 => 711520000 | _ => 2411520000
def fcHigh : Nat → Nat
  | 0 => 513480000 | 1 => 1008480000 | _ => 2471980000

/-- log2 of the output divider D (R109). -/
def divLog2 (r fc : Nat) : Nat :=
  if r = 0 then (if fc ≤ 272500000 then 4 else 3) else if r = 1 then 2 else 0

/-- n of R110: the nearest multiple of the VCO step (no tie can arise: 2^24 divides the product and not 26,000,000). -/
def synthN (r fc : Nat) : Nat := (fc * 2 ^ divLog2 r fc * 2 ^ 24 + 26000000) / 52000000

/-- The VCO frequency in Hz (R110). -/
def vcoHz (r fc : Nat) : Nat := fc * 2 ^ divLog2 r fc

/-- A VCO calibration becomes due, or is no longer due (R113). -/
def Dev.setVcoDue (d : Dev) (r : Nat) (b : Bool) : Dev := d.put (R.RAD_CTRL r) F.RAD_CTRL_vco_cal_due (bitOf b)
def Dev.vcoDue (d : Dev) (r : Nat) : Bool := d.flag (R.RAD_CTRL r) F.RAD_CTRL_vco_cal_due

/-- The radio enters TUNE and programs its synthesiser from RAD_FC (R110, R112). -/
def Dev.programSynth (d : Dev) (r : Nat) : Dev :=
  let fc := d.get (R.RAD_FC r) F.RAD_FC_fc
  let n := synthN r fc
  let d := d.put (R.RAD_SYN r) F.RAD_SYN_div_log2 (divLog2 r fc)
  let d := d.put (R.RAD_SYN r) F.RAD_SYN_n_int (n / 2 ^ 24)
  let d := d.put (R.RAD_SYN_FRAC r) F.RAD_SYN_FRAC_n_frac (n % 2 ^ 24)
  d.setRadio r { d.radio r with fc := fc }

/-- A write to RAD_FC in range stores it, and makes a VCO calibration due where it needs another VCO band; out of range it changes nothing
(R109, R112, R113). The Boolean says whether the write was accepted. -/
def Dev.writeFc (d : Dev) (r v : Nat) : Dev × Bool :=
  if fcLow r ≤ v && v ≤ fcHigh r then
    let changed := v != d.get (R.RAD_FC r) F.RAD_FC_fc
    let d := d.put (R.RAD_FC r) F.RAD_FC_fc v
    let far := match (d.radio r).vcoAt with
      | none => true
      | some f => decide (4000000 < ((vcoHz r v : Int) - f).natAbs)
    (if changed && far then d.setVcoDue r true else d, true)
  else (d, false)

/-- RAD_CTRL.vco_cal_req is set (R113). -/
def Dev.vcoRequest (d : Dev) (r : Nat) : Dev :=
  (d.put (R.RAD_CTRL r) F.RAD_CTRL_vco_cal_req 1).setVcoDue r true

/-- The reference trim t of R111, ppb. -/
def Dev.trimT (d : Dev) : Int := d.clk.loopTrim + d.clkTrim

/-- At a slot start outside TX a changed trim is applied (R111). -/
def Dev.trimUpdate (d : Dev) (r : Nat) : Dev :=
  if d.radioUp r && d.radState r != radTX then d.setWord (R.RAD_TRIM r) (BitVec.ofInt 32 d.trimT) else d

/-! ## Changes of state (R115 to R120) -/

/-- The state event of a radio (R116). -/
def Dev.radEvent (d : Dev) (r : Nat) : Dev := d.raise (24 + r) 0 (d.radState r)

/-- The next state on the way to a goal (R115). -/
def nextRadState (st goal : Nat) : Nat :=
  if goal ≤ st then goal
  else if st = radOFF then radREADY
  else if st = radREADY then radTUNE
  else if st = radTUNE then goal
  else goal

/-- A READY to TUNE change with a calibration due enters VCO_CAL first (R113, R115). -/
def Dev.enterVco (d : Dev) (r : Nat) : Dev :=
  if d.radState r == radREADY && radTUNE ≤ d.radTarget r && d.radTarget r ≤ radTX && d.vcoDue r then
    (d.setRadState r radVCO).onRadio r (fun x => { x with vcoQuiet := false })
  else d

/-- A change toward a state begins (R115). -/
def Dev.startChange (d : Dev) (r goal : Nat) : Dev := (d.setRadTarget r goal).enterVco r

/-- The attenuation of R160 returns to 0 and the stretch of TX ends. -/
def Dev.leaveTx (d : Dev) (r : Nat) : Dev :=
  (d.put (R.KAL_MASK_STAT r) F.KAL_MASK_STAT_atten 0).setKal r { d.kal r with maskRaised := false }

/-- The change in progress ends in its goal: a commanded or forced one raises the state event (R116). -/
def Dev.changeEnds (d : Dev) (r : Nat) : Dev :=
  let x := d.radio r
  let d := d.setRadio r { x with commanded := false, forced := false, returning := false, leaving := x.leaving && d.radState r != radTX }
  if x.commanded || x.forced then d.radEvent r else d

/-- RX is not entered before the switch of the booster group is released (R133). -/
def Dev.rxBarred (d : Dev) (r st : Nat) : Bool := st == radRX && (d.radio r).xamp.testBit 1

/-- One transition of a change in progress completes (R115): the radio enters the next state on its way. -/
def Dev.transitionDone (d : Dev) (r : Nat) : Dev :=
  if !d.radioUp r || !d.radChanging r || d.radState r == radVCO then d
  else if d.radState r == radTX && !(d.radio r).air.isEmpty then d
  else if d.rxBarred r (nextRadState (d.radState r) (d.radTarget r)) then d
  else if d.radState r == radTUNE && !d.radLocked r && radTUNE < d.radTarget r then d
  else
    let st := d.radState r
    let nx := nextRadState st (d.radTarget r)
    let d := if st == radTX then d.leaveTx r else d
    let d := if st == radREADY && nx == radTUNE then (d.programSynth r).setRadLock r true else d
    let d := if nx ≤ radREADY then d.setRadLock r false else d
    let d := d.setRadState r nx
    if nx == d.radTarget r then
      let d := d.changeEnds r
      -- a burst set held meanwhile makes the radio leave for TX (R118, R121)
      if !(d.radio r).held.isEmpty && nx != radTX && nx != radOFF then
        (d.setRadio r { d.radio r with leaving := true }).startChange r radTX
      else d
    else d.enterVco r

/-! ## Descriptors (R154, R158) -/

/-- The descriptor's word i (R154). -/
def Dev.descWord (d : Dev) (r i w : Nat) : Nat := (d.word (R.KAL_TXDESC r (8 * i + w))).toNat

/-- A transmit descriptor as its 32 bytes give it (R154). -/
def Dev.txDesc (d : Dev) (r i : Nat) : TxDesc :=
  let w0 := d.descWord r i 0
  let w2 := d.descWord r i 2
  { idx := i
    k0 := w0 % 2048
    last := w0.testBit 11
    mode := w0 / 2 ^ 16 % 8
    size := w0 / 2 ^ 22 % 4
    backoff := w0 / 2 ^ 24 % 128
    pre := sext 32 (d.descWord r i 1)
    count := w2 % 8192
    next := w2 / 2 ^ 16 % 1024
    buf := d.descWord r i 3 }

/-- A descriptor meets the rules of R158. -/
def TxDesc.ok (x : TxDesc) : Bool :=
  let n := groupOf x.size
  n != 0 && n == modeGroup x.mode && x.k0 % n == 0 && decide (x.k0 + n ≤ 1536)
    && decide (x.pre.natAbs ≤ 131071) && decide (68 ≤ x.count) && decide (x.count ≤ 6092)

/-- The chain of a burst set from a descriptor: at most 64 descriptors, up to the first repeat; the Boolean says that the chain was cut there
(R158). -/
def Dev.txChain (d : Dev) (r : Nat) : Nat → Nat → List Nat → List TxDesc × Bool
  | 0, _, _ => ([], true)
  | fuel + 1, i, seen =>
    if seen.contains i then ([], true)
    else
      let x := d.txDesc r i
      if x.last then ([x], false)
      else
        let (rest, cut) := d.txChain r fuel x.next (i :: seen)
        (x :: rest, cut)

/-- The burst's duration in ns, rounded up (R93). -/
def TxDesc.ns (x : TxDesc) : Nat := ceilDiv (x.count * 1000000000) (modeRate x.mode)

/-! ## Levels (R123) -/

/-- The PA limit p_pa of a radio in 0.25 dBm (R109). -/
def paLimit (r : Nat) : Nat := if r = 2 then 80 else 108

/-- The share field, 0 acts as 1, above 64 as 64 (R123). -/
def Dev.txShare (d : Dev) (r : Nat) : Nat := min 64 (max 1 (d.get (R.RAD_TX_POWER r) F.RAD_TX_POWER_share))

/-- min(total, p_pa - pa_backoff) in 0.25 dBm (R123). -/
def Dev.txTotal (d : Dev) (r : Nat) : Int :=
  min (d.get (R.RAD_TX_POWER r) F.RAD_TX_POWER_total : Int)
    ((paLimit r : Int) - d.get (R.RAD_TX_POWER r) F.RAD_TX_POWER_pa_backoff)

/-- The power of a carrier in mW behind a gain of g quarter-dB, that of the booster less the attenuation of R160: n sub-channels of p_sub each (R123,
R132). -/
def Carrier.mw (c : Carrier) (g : Int) : Rat := (groupOf c.desc.size : Rat) / (c.share : Rat) * ratio40 (c.level + g)

/-! ## Region Profile (R126 to R132) -/

/-- A fuse word by the address of the register that shows it. -/
def Dev.fuse (d : Dev) (a : Nat) : Nat := (smGet (fun _ => 0) d.fuses a).toNat

/-- A Region Profile entry as its fuses give it (R126); frequencies in Hz. -/
structure RpEntry where
  idx : Nat
  used : Bool
  kill : Bool
  fLow : Nat
  fHigh : Nat
  duty : Nat
  lbt : Bool
  lbtThr : Int
  pwr : Int
deriving DecidableEq, Repr

/-- Entry e of a radio's profile; levels in 0.5 dB (R126). -/
def Dev.rpEntry (d : Dev) (r e : Nat) : RpEntry :=
  let w0 := d.fuse (R.RAD_RP_E r e 0)
  let w1 := d.fuse (R.RAD_RP_E r e 1)
  let w2 := d.fuse (R.RAD_RP_E r e 2)
  { idx := e
    used := w0.testBit 31
    kill := w0.testBit 30
    fLow := w0 % 2 ^ 22 * 1000
    fHigh := (4194303 - w1 % 2 ^ 22) * 1000
    duty := 1000 - w1 / 2 ^ 22
    lbt := w2.testBit 13
    lbtThr := -120 - 2 * (w2 / 2 ^ 7 % 64 : Nat)
    pwr := 63 - (w2 % 64 : Nat) }

/-- The used entries of a profile, in order. -/
def Dev.rpUsed (d : Dev) (r : Nat) : List RpEntry := ((List.range 32).map (d.rpEntry r)).filter (·.used)

def Dev.rpSealed (d : Dev) (r : Nat) : Bool := (d.fuse (R.RAD_RP_HDR r)).testBit 31

/-- boost_g in 0.5 dB (R126, R132). -/
def Dev.boostG (d : Dev) (r : Nat) : Nat := d.fuse (R.RAD_RP_HDR r) / 2 ^ 16 % 64

/-- The nominal band edges of a group in Hz (R67, R68, R129). -/
def bandLow (fc k0 n : Nat) : Int := (fc : Int) + (2 * k0 + n - 1 - 1536 : Int) * 7500 - 7500 * n
def bandHigh (fc k0 n : Nat) : Int := (fc : Int) + (2 * k0 + n - 1 - 1536 : Int) * 7500 + 7500 * n

/-- An entry overlaps a band: they share a span of non-zero width (R129). -/
def RpEntry.overlaps (e : RpEntry) (lo hi : Int) : Bool := decide ((e.fLow : Int) < hi) && decide (lo < (e.fHigh : Int))

/-- A band lies wholly within an entry, edges included (R129). -/
def RpEntry.holds (e : RpEntry) (lo hi : Int) : Bool := decide ((e.fLow : Int) ≤ lo) && decide (hi ≤ (e.fHigh : Int))

/-- The band of a carrier. -/
def Carrier.low (c : Carrier) (fc : Nat) : Int := bandLow fc c.desc.k0 (groupOf c.desc.size)
def Carrier.high (c : Carrier) (fc : Nat) : Int := bandHigh fc c.desc.k0 (groupOf c.desc.size)

/-- The duty meter of an entry in us: the time over the last 3,600 s in which a carrier overlapped its band (R130). -/
def Dev.dutyUs (d : Dev) (r e : Nat) : Nat :=
  let now := d.xo / 1000
  let from_ := now - 3600000000
  let x := d.radio r
  let closed := (x.duty.filter (fun s => s.1 == e)).foldl (fun acc s => acc + (s.2.2 - max s.2.1 from_)) 0
  closed + (match smFind x.dutyOn e with
    | some s => now - max s from_
    | none => 0)

/-- The bands on air changed: each entry's stretch opens or closes (R130). Stretches that left the last 3,600 s are forgotten. -/
def Dev.dutyRefresh (d : Dev) (r : Nat) : Dev :=
  let now := d.xo / 1000
  let x := d.radio r
  let on (e : Nat) : Bool := x.air.any (fun c => (d.rpEntry r e).overlaps (c.low x.fc) (c.high x.fc))
  let x := (List.range 32).foldl (fun x e =>
    match smFind x.dutyOn e with
    | some s => if on e then x else { x with dutyOn := smErase x.dutyOn e, duty := x.duty ++ [(e, s, now)] }
    | none => if on e then { x with dutyOn := smInsert e now x.dutyOn } else x) x
  d.setRadio r { x with duty := x.duty.filter (fun s => decide (now ≤ s.2.2 + 3600000000)) }

/-- The tick of the duty meters: event 30 where a meter passes the warning level, once per passage (R130). -/
def Dev.dutyTick (d : Dev) (r : Nat) : Dev :=
  let warn := d.get (R.RAD_DUTY_CTRL r) F.RAD_DUTY_CTRL_warn
  if warn = 0 || !d.radioUp r then d
  else (List.range 32).foldl (fun d e =>
    let limit := (d.rpEntry r e).duty * 3600000
    let past := (d.rpEntry r e).used && decide (limit * min warn 100 < d.dutyUs r e * 100)
    let x := d.radio r
    if past && !x.warned.testBit e then (d.setRadio r { x with warned := setBit x.warned e true }).raise 30 r e
    else if !past then d.setRadio r { x with warned := setBit x.warned e false }
    else d) d

/-- The occupancy map that listen-before-talk uses at T: the most recent one with at least 5 ms of reception that ended no more than 20 ms before
T (R131). Its number. -/
def Dev.lbtMap (d : Dev) (r t : Nat) : Option Nat :=
  let ok := (d.kal r).maps.filter (fun m =>
    decide (m.2.2 ≤ t) && decide (t ≤ m.2.2 + 20000000) && decide (150 ≤ (d.word (R.KAL_OCC_MAP r m.1 1)).toNat % 65536)
      && ((d.word (R.KAL_OCC_MAP r m.1 1)).getLsbD 16))
  (ok.foldl (fun (best : Option (Nat × Nat)) m => match best with
    | some b => if b.2 < m.2.2 then some (m.1, m.2.2) else best
    | none => some (m.1, m.2.2)) none).map (·.1)

/-- The mean of a bin in a map, in 0.5 dBm (R152). -/
def Dev.binMean (d : Dev) (r m k : Nat) : Int := -300 + ((d.word (R.KAL_OCC_MAP r m (4 + k))).toNat % 256 : Nat)

/-- The Region Profile's verdict on a burst: none where it may start, else the cause and the entry recorded (R127, R129, R131, R132). t is the
burst's T. -/
def Dev.rpVerdict (d : Dev) (r : Nat) (c : Carrier) (t : Nat) : Option (Nat × Nat) :=
  let fc := (d.radio r).fc
  let lo := c.low fc
  let hi := c.high fc
  let n := groupOf c.desc.size
  let es := (d.rpUsed r).filter (fun e => e.overlaps lo hi)
  let boost : Int := 2 * (d.boostG r : Int) - 4 * (d.get (R.KAL_MASK_STAT r) F.KAL_MASK_STAT_atten : Int)
  let sum (e : RpEntry) : Rat :=
    ((d.radio r).air.filter (fun o => e.overlaps (o.low fc) (o.high fc))).foldl (fun (acc : Rat) o => acc + o.mw boost) (c.mw boost)
  let lbts := es.filter (·.lbt)
  let thr := lbts.foldl (fun (m : Int) e => min m e.lbtThr) 0
  if !d.rpSealed r then some (6, 0)
  else if !(d.rpUsed r).any (fun e => e.holds lo hi) then some (1, 0)
  else match es.find? (·.kill) with
    | some e => some (7, e.idx)
    | none => match es.find? (fun e => decide (ratio40 (2 * e.pwr) < sum e)) with
      | some e => some (2, e.idx)
      | none => match es.find? (fun e => decide (e.duty * 3600000000 < d.dutyUs r e.idx * 1000 + c.desc.ns)) with
        | some e => some (3, e.idx)
        | none => match lbts with
          | [] => none
          | l :: _ => match d.lbtMap r t with
            | none => some (5, l.idx)
            | some m =>
              let top := (List.range n).foldl (fun (x : Int) i => max x (d.binMean r m (c.desc.k0 + i))) (-300)
              if thr < top then
                some (4, match lbts.find? (fun e => decide (e.lbtThr < top)) with
                  | some e => e.idx
                  | none => l.idx)
              else none

/-- A burst refused by the Region Profile is counted and raises event 29 (R129). -/
def Dev.rpRefuse (d : Dev) (r cause entry : Nat) : Dev :=
  let d := d.put (R.RAD_REG_REFUSE r) F.RAD_REG_REFUSE_last_cause cause
  let d := d.put (R.RAD_REG_REFUSE r) F.RAD_REG_REFUSE_last_entry entry
  (d.bump (R.RAD_REG_REFUSE r) F.RAD_REG_REFUSE_count).raise 29 r (cause * 4096 + entry)

/-! ## Starting, cancelling and aborting bursts (R119 to R125, R510) -/

/-- A burst cancelled or aborted with a cause is counted and raises event 28. -/
def Dev.txCancel (d : Dev) (r cause : Nat) : Dev :=
  let d := d.put (R.RAD_TX_CANCEL r) F.RAD_TX_CANCEL_last_cause cause
  (d.bump (R.RAD_TX_CANCEL r) F.RAD_TX_CANCEL_count).raise 28 r cause

/-- A number of bursts cancelled with a cause. -/
def Dev.txCancels (d : Dev) (r cause n : Nat) : Dev := (List.range n).foldl (fun d _ => d.txCancel r cause) d

/-- Sub-channels in service (R124). -/
def Radio.subs (x : Radio) : Nat := x.air.foldl (fun n c => n + groupOf c.desc.size) 0

/-- The faults of a port's transmit path. -/
def Dev.txFault (d : Dev) (r p : Nat) : Bool := d.flag (R.RAD_ANT r) (if p = 0 then F.RAD_ANT_p0_tx_fault else F.RAD_ANT_p1_tx_fault)
def Dev.rxFault (d : Dev) (r p : Nat) : Bool := d.flag (R.RAD_ANT r) (if p = 0 then F.RAD_ANT_p0_rx_fault else F.RAD_ANT_p1_rx_fault)

/-- The preferred transmit port. -/
def Dev.txPreferred (d : Dev) (r : Nat) : Nat := d.get (R.RAD_ANT r) F.RAD_ANT_tx_prefer_p1

/-- The port of the next burst set: the preferred one, the other where it is faulty, none where both are (R136). -/
def Dev.txPort (d : Dev) (r : Nat) : Option Nat :=
  let p := d.txPreferred r
  if !d.txFault r p then some p else if !d.txFault r (1 - p) then some (1 - p) else none

/-- A transmit path is marked faulty: the other port takes over with event 62, or event 63 is raised when both are faulty (R135, R136). -/
def Dev.markTx (d : Dev) (r p : Nat) : Dev :=
  if d.txFault r p then d
  else
    let d := d.put (R.RAD_ANT r) (if p = 0 then F.RAD_ANT_p0_tx_fault else F.RAD_ANT_p1_tx_fault) 1
    if d.txFault r (1 - p) then d.fatal 4 r
    else if d.txPreferred r = p then d.recovery 3 else d

/-- A receive path is marked faulty: event 62, or event 63 when both are faulty (R135, R136). -/
def Dev.markRx (d : Dev) (r p : Nat) : Dev :=
  if d.rxFault r p then d
  else
    let d := d.put (R.RAD_ANT r) (if p = 0 then F.RAD_ANT_p0_rx_fault else F.RAD_ANT_p1_rx_fault) 1
    let d := d.setRadio r { d.radio r with rxOut := setBit (d.radio r).rxOut p true }
    if d.rxFault r (1 - p) then d.fatal 4 r else d.recovery 3

/-- The amplifier fault block of R134. -/
def Dev.ampBlocked (d : Dev) (r : Nat) : Bool :=
  if d.flag (R.RAD_XAMP_CTRL r) F.RAD_XAMP_CTRL_flt_latch then d.flag (R.RAD_XAMP_CTRL r) F.RAD_XAMP_CTRL_flt_seen
  else (d.radio r).fltAt.isSome

/-- The guard of R122 in ns: units of 50 us, 5 to 100. -/
def Dev.txGuard (d : Dev) (r : Nat) : Nat := min 100 (max 5 (d.get (R.RAD_TX_GUARD r) F.RAD_TX_GUARD_tx_guard)) * 50000

/-- The symbols of a burst: fetched ahead, or fetched at the start (R155). -/
def Dev.txSymbols (d : Dev) (r : Nat) (x : TxDesc) : Bytes :=
  match smFind (d.kal r).bufs x.idx with
  | some b => b
  | none => d.dramRead x.buf (ceilDiv x.count 4)

/-- The shaping table in force for a burst that starts at t: a word written less than 1 ms before still stands as it was (R157). -/
def Dev.shapeInForce (d : Dev) (r table t : Nat) : List Nat :=
  (List.range 48).map (fun k =>
    let late := (d.kal r).shapeLog.filter (fun w => w.word == 48 * table + k && decide (t < w.at_ + 1000000))
    ((late.getLast?.map (·.old)).getD (d.word (R.KAL_SHAPING r table k))).toNat % 65536)

/-- A word of a shaping table is written: what it held stands for another 1 ms (R157). -/
def Dev.shapeWrite (d : Dev) (r table k : Nat) (w : Word) : Dev :=
  let x := d.kal r
  let a := R.KAL_SHAPING r table k
  let recent := x.shapeLog.filter (fun e => decide (d.nt < e.at_ + 1000000))
  (d.setKal r { x with shapeLog := ⟨d.nt, 48 * table + k, d.word a⟩ :: recent }).setWord a w

/-- What the scheduler remembers of a burst set is dropped. -/
def Dev.dropOwn (d : Dev) (r handle : Nat) : Dev := { d with sched := { d.sched with own := smErase d.sched.own (r * 1024 + handle) } }

/-- The carrier of a burst that starts at an instant on a port (R123, R155 to R157). -/
def Dev.carrierOf (d : Dev) (r handle port t : Nat) (x : TxDesc) : Carrier :=
  let buf := d.txSymbols r x
  { desc := x, set := handle, port := port, start := t, stop := t + x.ns, level := d.txTotal r - x.backoff, share := d.txShare r, symbols := buf
    levels := symbolLevels (modeFour x.mode) x.count buf, shape := d.shapeInForce r (shapeTable x.mode) t
    nco := ncoWord (groupCentre2 0 x.k0 (groupOf x.size) + 2 * x.pre) }

/-- A burst starts at an instant on a port, after checks 7 and 8; the verdict of either refusal is recorded (R510). T is the set's own T. -/
def Dev.startBurst (d : Dev) (r handle port t tset : Nat) (x : TxDesc) : Dev :=
  let c := d.carrierOf r handle port t x
  if d.txShare r < (d.radio r).subs + groupOf x.size then d.txCancel r 2
  else match d.rpVerdict r c tset with
    | some (cause, entry) => d.rpRefuse r cause entry
    | none => d.setRadio r { d.radio r with air := (d.radio r).air ++ [c] }

/-- The bursts of a set start, in the order of the chain (R120, R124). -/
def Dev.startSet (d : Dev) (r handle t tset : Nat) (bursts : List TxDesc) : Dev :=
  match d.txPort r with
  | none => d.txCancels r 4 bursts.length
  | some p =>
    let d := d.put (R.RAD_ANT r) F.RAD_ANT_tx_port p
    let d := bursts.foldl (fun d x => d.startBurst r handle p t tset x) d
    let d := d.setKal r { d.kal r with bufs := bursts.foldl (fun m x => smErase m x.idx) (d.kal r).bufs }
    let d := if (d.radio r).air.any (fun c => c.set == handle) then d else d.dropOwn r handle
    d.dutyRefresh r

/-- The sample instant at or after a time: every 32.55 ns, four CONV cycles of 122.88 MHz (R60). The spec does not place the grid of sample instants in
NT: it is taken to have an instant at NT 0, and the instant is rounded up to whole ns (DESIGN CHOICE, log entry 211). -/
def sampleInstant (t : Nat) : Nat := ceilDiv (ceilDiv (t * 3072) 100000 * 100000) 3072

/-- The radio can transmit now: in TX with its synthesiser locked (R121). -/
def Dev.canSend (d : Dev) (r : Nat) : Bool := d.radState r == radTX && !d.radChanging r && d.radLocked r

/-- Every burst of the radio's air ends now with a cause: carriers ramp down within 5 us (R114, R125, R134, R160). -/
def Dev.abortAir (d : Dev) (r cause : Nat) : Dev :=
  let air := (d.radio r).air
  let d := air.foldl (fun d c => d.dropOwn r c.set) (d.setRadio r { d.radio r with air := [] })
  (d.txCancels r cause air.length).dutyRefresh r

/-- The held burst sets are given up (R122, R125, R134, R510). -/
def Dev.dropHeld (d : Dev) (r cause : Nat) : Dev :=
  (d.radio r).held.foldl (fun d h => (d.txCancels r cause h.bursts.length).dropOwn r h.handle) (d.setRadio r { d.radio r with held := [] })

/-- The radio has ended its stretch of TX and is on its way out of TX (R118). -/
def Dev.radOutOfTx (d : Dev) (r : Nat) : Bool := d.radState r == radTX && d.radChanging r

/-- The carriers are gone at an instant: the XAMP group releases from it, unless it is being released already (R134), and the radio goes to the state of
R117 or R120. A radio on its way out of TX stays on it. -/
def Dev.stretchEnds (d : Dev) (r e : Nat) (enOff forced : Bool) : Dev :=
  let x := d.radio r
  let out := d.radOutOfTx r
  let goal := if out then d.radTarget r else x.after.getD (d.txReturn r)
  let d := d.setRadio r { x with
    after := none
    commanded := if out then x.commanded else x.after.isSome
    forced := if out then x.forced else forced && d.radState r == radTX
    leaving := false
    release := if x.xamp = 0 then none else if x.release.isSome && !enOff then x.release else some (e, enOff)
    xamp := if enOff then setBit x.xamp 2 false else x.xamp }
  let d := d.startChange r goal
  if d.radChanging r then d else d.changeEnds r

/-- The armed RAD_TX_START of a radio with the earliest time. -/
def Dev.nextTx (d : Dev) (r : Nat) : Option Nat :=
  (d.acts.filter (fun a => a.2.ty == 1 && a.2.target == r)).foldl (fun best a => match best with
    | some t => some (min t a.2.time)
    | none => some a.2.time) none

/-- The last carrier of a radio ended at e: it stays in TX for a RAD_TX_START less than 100 us ahead, else it leaves (R117, R120). -/
def Dev.lastEnds (d : Dev) (r e : Nat) : Dev :=
  if (d.radio r).after.isSome then d.stretchEnds r e false false
  else match d.nextTx r with
    | some t => if t < e + 100000 then d else d.stretchEnds r e false false
    | none => d.stretchEnds r e false false

/-- A time field of RAD_XAMP_TIME in ns; t_bs and t_se of 0 act as 1. -/
def Dev.tBs (d : Dev) (r : Nat) : Nat := max 1 (d.get (R.RAD_XAMP_TIME r) F.RAD_XAMP_TIME_t_bs) * 1000
def Dev.tSe (d : Dev) (r : Nat) : Nat := max 1 (d.get (R.RAD_XAMP_TIME r) F.RAD_XAMP_TIME_t_se) * 1000
def Dev.tLead (d : Dev) (r : Nat) : Nat := d.get (R.RAD_XAMP_TIME r) F.RAD_XAMP_TIME_t_lead * 1000
def Dev.tLag (d : Dev) (r : Nat) : Nat := d.get (R.RAD_XAMP_TIME r) F.RAD_XAMP_TIME_t_lag * 1000
def Dev.xampOn (d : Dev) (r : Nat) : Bool := d.flag (R.RAD_XAMP_CTRL r) F.RAD_XAMP_CTRL_enable

/-- The time from the group's first assert step to T, ns (R133). -/
def Dev.xampLead (d : Dev) (r : Nat) : Nat := d.tBs r + d.tSe r + d.tLead r

/-- The group stands asserted for a set that came to nothing, and no other set's first step is due: it is released from t (R133, log entry 92). -/
def Dev.xampIdle (d : Dev) (r t : Nat) : Dev :=
  let x := d.radio r
  let waits := match d.nextTx r with
    | some u => decide (u ≤ t + d.xampLead r)
    | none => false
  if x.xamp = 0 || x.release.isSome || waits then d else d.setRadio r { x with release := some (t, false) }

/-- The stretch of TX of a radio that runs ends where nothing is on air and nothing is held. -/
def Dev.settleTx (d : Dev) (r t : Nat) : Dev :=
  if d.radioUp r && (d.radio r).air.isEmpty && (d.radio r).held.isEmpty then
    if d.radInTx r then (if d.radOutOfTx r then d else d.lastEnds r t) else d.xampIdle r t
  else d

/-- Return loss of a burst set that a port sent, in 0.25 dB: three in a row below tx_rl mark the port's path (R135). -/
def Dev.judgeLoss (d : Dev) (r p : Nat) (rl : Int) : Dev :=
  let thr : Int := 4 * (min 20 (max 3 (d.get (R.RAD_ANT r) F.RAD_ANT_tx_rl)) : Nat)
  let x := d.radio r
  let n := if rl < thr then (if p = 0 then x.rl0 else x.rl1) + 1 else 0
  let d := d.setRadio r (if p = 0 then { x with rl0 := min n 3 } else { x with rl1 := min n 3 })
  if 3 ≤ n then d.markTx r p else d

/-- A carrier on sub-channel k0 ended: it counts as sent; the burst set whose last carrier it is gets judged (R120, R135). The Boolean says that no
carrier is left. -/
def Dev.carrierEnds (d : Dev) (r k0 : Nat) (rl : Int) : Dev × Bool :=
  let x := d.radio r
  match x.air.find? (fun c => c.desc.k0 == k0 && decide (c.stop ≤ d.nt)) with
  | none => (d, false)
  | some c =>
    let air := x.air.filter (fun o => o.desc.k0 != k0)
    let d := (d.setRadio r { x with air := air }).bump (R.RAD_TX_STATS r) F.RAD_TX_STATS_sent
    let d := if air.any (fun o => o.set == c.set) then d
      else (d.judgeLoss r c.port rl).dropOwn r c.set
    (d.dutyRefresh r, air.isEmpty)

/-- The receive-path check of a quiet slot: port 0's wideband power less port 1's, in 0.25 dB (R135). -/
def Dev.rxCheck (d : Dev) (r : Nat) (diff : Int) : Dev :=
  let m : Int := 4 * (max 1 (d.get (R.RAD_ANT r) F.RAD_ANT_rx_fault) : Nat)
  let x := d.radio r
  let n0 := if diff < -m then x.rx0 + 1 else 0
  let n1 := if m < diff then x.rx1 + 1 else 0
  -- a path whose mark was cleared returns to service (R137)
  let d := d.setRadio r { x with rx0 := min n0 3, rx1 := min n1 3, rxOut := bitOf (d.rxFault r 0) + 2 * bitOf (d.rxFault r 1) }
  let d := if 3 ≤ n0 then d.markRx r 0 else d
  if 3 ≤ n1 then d.markRx r 1 else d

/-! ## Leaving for TX (R118) -/

/-- The sum of the greatest transition times from a state to TX, ns (R115, R118). -/
def Dev.txPath (d : Dev) (r st : Nat) : Nat :=
  let tune := if d.vcoDue r then 700000 else 150000
  if st = radRX then 50000
  else if st = radTUNE then 35000
  else if st = radREADY then tune + 35000
  else if st = radVCO then 735000
  else 500000 + tune + 35000

/-- The lead of R118 in ns for a state. -/
def Dev.lead (d : Dev) (r st : Nat) : Nat :=
  max (d.txPath r st) (if d.xampOn r then d.xampLead r else 0)

/-- A radio held in TX between two stretches, with nothing on air, nothing held, and no set begun: the 100 us hold of R120 does not apply once a
RAD_STATE has fired (R117). -/
def Dev.idleInTx (d : Dev) (r : Nat) : Bool :=
  let lead := if d.xampOn r then d.xampLead r else 0
  d.radState r == radTX && !d.radChanging r && (d.radio r).air.isEmpty && (d.radio r).held.isEmpty
    && (match d.nextTx r with
      | some t => decide (d.nt + lead < t)
      | none => true)

/-- A RAD_STATE action fires (R116, R117). One that names the state the radio still holds completes at once, and takes back a change in progress
(DESIGN CHOICE: R115 gives it up to 10 us). One that fires on the way out of TX gives that way its target. -/
def Dev.radStateAction (d : Dev) (r arg : Nat) : Dev :=
  if !d.radioUp r then d
  else if 4 ≤ arg then
    (d.put (R.RAD_TX_CANCEL r) F.RAD_TX_CANCEL_last_cause 8).bump (R.RAD_TX_CANCEL r) F.RAD_TX_CANCEL_count
  else if d.radInTx r && !d.radOutOfTx r then
    let d := d.setRadio r { d.radio r with after := some arg }
    if d.idleInTx r then d.stretchEnds r d.nt false false else d
  else if d.radState r == arg && (!d.radChanging r || arg != radTUNE || d.radLocked r) then
    ((d.setRadio r { d.radio r with commanded := false, forced := false }).setRadTarget r arg).radEvent r
  else (d.setRadio r { d.radio r with commanded := true }).startChange r arg

/-- The radio leaves its state for TX (R118): from here it counts as in TX. A change that was commanded or forced and is not yet complete is completed
after the stretch of TX, as R117 has it for one commanded in it (DEDUCED, log entry 214). -/
def Dev.leaveForTx (d : Dev) (r : Nat) : Dev :=
  let x := d.radio r
  let d := d.setRadio r { x with
    leaving := true
    after := if x.commanded || x.forced then some (d.radTarget r) else x.after
    commanded := false
    forced := false }
  if d.radState r == radVCO then d.setRadTarget r radTX else d.startChange r radTX

/-- T - lead is reached for the next RAD_TX_START of the radio (R118), with lead taken for the state that it holds. A radio on its way from TX to its
transmit-return state completes that change first. -/
def Dev.txLeave (d : Dev) (r : Nat) : Dev :=
  match d.nextTx r with
  | none => d
  | some t =>
    if d.radioUp r && d.radState r != radOFF && d.radTarget r != radOFF && !d.radInTx r && !(d.radio r).returning
        && decide (t ≤ d.nt + d.lead r (d.radState r)) then
      d.leaveForTx r
    else d

/-! ## The booster group (R133, R134) -/

/-- The instant T around which the group's assert steps stand: of the held set, of the set on air, or of the next RAD_TX_START. -/
def Dev.xampT (d : Dev) (r : Nat) : Option Nat :=
  match (d.radio r).held with
  | h :: _ => some h.time
  | [] => d.nextTx r

/-- The next due step of the group's sequence (R133): release steps while a stretch has ended, else the assert steps toward T. A radio that is OFF or on
its way there has no stretch of TX ahead (R119). -/
def Dev.xampStep (d : Dev) (r : Nat) : Dev :=
  let x := d.radio r
  if !d.xampOn r then d
  else match x.release with
    | some (e, early) =>
      let lag := if early then 0 else d.tLag r
      if x.xamp.testBit 2 then
        if e + lag ≤ d.nt then d.setRadio r { x with xamp := setBit x.xamp 2 false } else d
      else if x.xamp.testBit 1 then
        if e + lag + d.tSe r ≤ d.nt then d.setRadio r { x with xamp := setBit x.xamp 1 false } else d
      else if e + lag + d.tSe r + d.tBs r ≤ d.nt then d.setRadio r { x with xamp := 0, release := none }
      else d
    | none =>
      if d.radState r == radOFF || d.radTarget r == radOFF then d
      else match d.xampT r with
      | none => d
      | some t =>
        if !x.xamp.testBit 0 then
          if t ≤ d.nt + d.xampLead r then d.setRadio r { x with xamp := setBit x.xamp 0 true } else d
        else if !x.xamp.testBit 1 then
          if t ≤ d.nt + d.tSe r + d.tLead r then d.setRadio r { x with xamp := setBit x.xamp 1 true } else d
        else if !x.xamp.testBit 2 then
          if t ≤ d.nt + d.tLead r then d.setRadio r { x with xamp := setBit x.xamp 2 true } else d
        else d

/-- XAMP_FLT counts (R134): EN off, every burst aborted or given up with cause 3, steps 6 and 7 from now, event 31, and the block. -/
def Dev.xampFault (d : Dev) (r : Nat) : Dev :=
  if !d.radioUp r || !d.xampOn r || !(d.radio r).xamp.testBit 0 then d
  else
    let d := d.put (R.RAD_XAMP_CTRL r) F.RAD_XAMP_CTRL_flt_seen 1
    let inTx := d.radInTx r
    let d := (d.abortAir r 3).dropHeld r 3
    let d := d.setRadio r { d.radio r with fltAt := some d.xo }
    let d := if inTx then d.stretchEnds r d.nt true true
      else d.setRadio r { d.radio r with release := some (d.nt, true), xamp := setBit (d.radio r).xamp 2 false }
    d.raise 31 r

/-- flt_hold has passed since XAMP_FLT counted, and since NT last, at which it was last seen active (R134). -/
def Dev.xampHoldExpire (d : Dev) (r last : Nat) : Dev :=
  let hold := d.get (R.RAD_XAMP_CTRL r) F.RAD_XAMP_CTRL_flt_hold * 1000000
  match (d.radio r).fltAt with
  | none => d
  | some x =>
    if x + hold ≤ d.xo && decide (min last d.nt + hold ≤ d.nt) then d.setRadio r { d.radio r with fltAt := none } else d

/-! ## The temperature trip (R125) -/

/-- R125 for one radio: the PA and EN off, every burst aborted or given up with cause 6, the group released from now. -/
def Dev.tripRadio (d : Dev) (r : Nat) : Dev :=
  if !d.radioUp r then d
  else
    let inTx := d.radInTx r
    let d := (d.abortAir r 6).dropHeld r 6
    if inTx then d.stretchEnds r d.nt true true
    else
      let x := d.radio r
      if x.xamp = 0 then d else d.setRadio r { x with release := some (d.nt, true), xamp := setBit x.xamp 2 false }

/-! ## Loss and return of lock (R114) -/

/-- The synthesiser loses lock (R114). -/
def Dev.synthUnlock (d : Dev) (r : Nat) : Dev :=
  if !d.radioUp r || !d.radLocked r then d
  else
    let st := d.radState r
    let d := d.setRadLock r false
    if st == radTX then
      let d := (d.raise 27 r).abortAir r 7
      let d := (d.stretchEnds r d.nt false true).leaveTx r
      (d.setRadState r radTUNE).onRadio r (fun x => { x with returning := true })
    else if st == radRX then
      let goal := if d.radChanging r then d.radTarget r else radRX
      let d := (d.raise 27 r).setRadState r radTUNE
      (d.setRadTarget r goal).setRadio r { d.radio r with forced := goal == radRX && !(d.radio r).commanded }
    else d

/-- The synthesiser relocks: the radio goes to the state the change ends in, and raises the state event there (R114, R116). A held burst set makes it
leave for TX (R121). -/
def Dev.synthRelock (d : Dev) (r : Nat) : Dev :=
  if !d.radioUp r || d.radLocked r || d.radState r != radTUNE then d
  else
    let d := d.setRadLock r true
    if d.radTarget r == radTX || d.rxBarred r (d.radTarget r) then d
    else
      let d := (d.setRadState r (d.radTarget r)).changeEnds r
      let d := if d.radState r ≤ radREADY then d.setRadLock r false else d
      if !(d.radio r).held.isEmpty && d.radState r != radOFF then d.leaveForTx r else d

/-! ## Region Profile fuses (R128) -/

/-- The bits of a profile word that exist: word 0 to 2 of an entry, 3 the header (R126). -/
def rpFields (w : Nat) : Nat :=
  if w = 0 then 0xC03FFFFF else if w = 1 then 0xFFFFFFFF else if w = 2 then 0x00003FBF else 0x803FFFFF

/-- The bits that may be blown after the seal: kill, duty, lbt, lbt_thr, pwr, boost_g (R128). -/
def rpAfterSeal (w : Nat) : Nat :=
  if w = 0 then 0x40000000 else if w = 1 then 0xFFC00000 else if w = 2 then 0x00003FBF else 0x003F0000

/-- RAD_RP_PROG.go is set: the blow starts, or is refused with result 2 (R128). -/
def Dev.rpGo (d : Dev) (r : Nat) : Dev :=
  if (d.radio r).blow.isSome then d
  else
    let e := d.get (R.RAD_RP_PROG r) F.RAD_RP_PROG_entry
    let w := d.get (R.RAD_RP_PROG r) F.RAD_RP_PROG_word
    let bits := d.get (R.RAD_RP_BITS r) F.RAD_RP_BITS_bits
    let sealed_ := d.rpSealed r
    let okBits := if sealed_ then rpAfterSeal w else rpFields w
    if bits &&& okBits != bits || (sealed_ && w != 3 && !(d.rpEntry r e).used) then
      d.put (R.RAD_RP_PROG r) F.RAD_RP_PROG_result 2
    else
      let a := if w = 3 then R.RAD_RP_HDR r else R.RAD_RP_E r e w
      let d := d.put (R.RAD_RP_PROG r) F.RAD_RP_PROG_go 1
      d.setRadio r { d.radio r with blow := some (a, bits) }

/-- The fuse blow ends (R128): the bits that blew are set, and the result says whether all verified. -/
def Dev.rpBlown (d : Dev) (r : Nat) (failed : Nat) : Dev :=
  match (d.radio r).blow with
  | none => d
  | some (a, bits) =>
    let blown := bits &&& (bits ^^^ (bits &&& failed))
    let d := { d with fuses := smSet (fun _ => 0) d.fuses a (BitVec.ofNat 32 (d.fuse a ||| blown)) }
    let d := d.setRadio r { d.radio r with blow := none }
    (d.put (R.RAD_RP_PROG r) F.RAD_RP_PROG_go 0).put (R.RAD_RP_PROG r) F.RAD_RP_PROG_result (if d.fuse a &&& bits = bits then 1 else 3)

end Sys2Proof.Machine
end

