-- ==== Sys2Proof/Machine/Packet.lean ====
section
/-! DEFINITION. Frames: the parser and its key, checksums, edits, PTP event messages and template datagrams (12_classifier.md, R304 to R306, R309,
R319; 14_ethernet_macs.md, R357 to R361). -/

namespace Sys2Proof.Machine

open Sys2Proof

/-! ## Parsing (R304, R305) -/

/-- What the parser read of a frame; a field it did not reach is 0. Offsets are bytes from the frame's start. -/
structure Pkt where
  stop : Nat := 0
  vlanN : Nat := 0
  l3 : Nat := 0
  l4 : Nat := 0
  frag : Nat := 0
  ext : Nat := 0
  dscp : Nat := 0
  dmac : Nat := 0
  smac : Nat := 0
  etype : Nat := 0
  vid0 : Nat := 0
  vid1 : Nat := 0
  proto : Nat := 0
  sip : Bytes := []
  dip : Bytes := []
  sport : Nat := 0
  dport : Nat := 0
  tunnel : Nat := 0
  /-- Start of the IP header, of the L4 header and of the UDP payload. -/
  l3off : Nat := 0
  l4off : Nat := 0
  payload : Nat := 0
  /-- Start of what a GRE or VXLAN header carries, and the GRE protocol where it is an IP packet, else 0. -/
  inner : Nat := 0
  innerEt : Nat := 0
  /-- Identification and protocol of a fragment (R321). -/
  fragId : Bytes := []
  fragProto : Nat := 0
deriving DecidableEq, Repr, Inhabited

/-- Parsing ends with a stop code. -/
def Pkt.halt (p : Pkt) (code : Nat) : Pkt := { p with stop := code }

/-- The bytes of a GRE header by its flags: checksum, key and sequence number add four bytes each. -/
def greLen (flags : Nat) : Nat := 4 + 4 * bitOf (flags.testBit 15) + 4 * bitOf (flags.testBit 13) + 4 * bitOf (flags.testBit 12)

/-- The L4 header of a protocol at an offset; lim is the end of what the parser reads (R304). vx and zil are the ports of CLS_PARSE. -/
def parseL4 (vx zil : Nat) (bs : Bytes) (lim : Nat) (p : Pkt) (proto off : Nat) : Pkt :=
  if p.frag = 2 then p
  else if proto = 17 || proto = 6 then
    if lim < off + 4 then p.halt 4
    else
      let p := { p with l4 := if proto = 17 then 1 else 2, l4off := off, sport := beAt bs off 2, dport := beAt bs (off + 2) 2, payload := off + 8 }
      if proto = 17 && p.dport == vx then
        if lim < off + 16 then p.halt 4 else { p with l4 := 4, tunnel := beAt bs (off + 12) 3, inner := off + 16 }
      else if proto = 17 && zil != 0 && p.dport == zil then
        if lim < off + 12 then p.halt 4 else { p with l4 := 5, tunnel := leAt bs (off + 8) 4 }
      else p
  else if proto = 47 then
    if lim < off + 4 then p.halt 4
    else
      let flags := beAt bs off 2
      let n := greLen flags
      let et := beAt bs (off + 2) 2
      if lim < off + n then p.halt 4
      else
        let keyAt := off + 4 + 4 * bitOf (flags.testBit 15)
        { p with l4 := 3, l4off := off, dport := et, tunnel := if flags.testBit 13 then beAt bs keyAt 4 else 0, inner := off + n
                 innerEt := if et = 0x0800 || et = 0x86DD then et else 0 }
  else { p with l4 := 6 }

/-- An IPv4 header at an offset (R304, R305). Its first byte, where it lies within the limit, is judged before the header's end: code 5 stands before
code 4 in the table. -/
def parseV4 (vx zil : Nat) (bs : Bytes) (lim : Nat) (p : Pkt) (off : Nat) : Pkt :=
  if lim ≤ off then p.halt 4
  else
    let b := byteAt bs off
    let ihl := b % 16
    if b / 16 != 4 || ihl < 5 then p.halt 5
    else if lim < off + 4 * ihl then p.halt 4
    else
      let fw := beAt bs (off + 6) 2
      let proto := byteAt bs (off + 9)
      let frag := if fw % 8192 != 0 then 2 else if fw.testBit 13 then 1 else 0
      let p := { p with l3 := 1, dscp := byteAt bs (off + 1) / 4, proto := proto, sip := sliceB bs (off + 12) 4, dip := sliceB bs (off + 16) 4
                        l3off := off, frag := frag, fragId := sliceB bs (off + 4) 2, fragProto := proto }
      parseL4 vx zil bs lim p proto (off + 4 * ihl)

/-- The extension headers of an IPv6 packet, up to two. The fuel is one more than that. -/
def parseExt (vx zil : Nat) (bs : Bytes) (lim : Nat) : Nat → Pkt → Nat → Nat → Pkt
  | 0, p, _, _ => p.halt 3
  | fuel + 1, p, next, off =>
    if next = 50 || next = 51 then p.halt 3
    else if next = 0 || next = 43 || next = 60 || next = 44 then
      if fuel = 0 then p.halt 3
      else if lim < off + 8 then p.halt 4
      else
        let n := if next = 44 then 8 else (byteAt bs (off + 1) + 1) * 8
        if lim < off + n then p.halt 4
        else
          let p := { p with ext := p.ext + 1 }
          let p := if next = 44 then
              { p with frag := if beAt bs (off + 2) 2 / 8 != 0 then 2 else 1, fragId := sliceB bs (off + 4) 4, fragProto := byteAt bs off }
            else p
          parseExt vx zil bs lim fuel p (byteAt bs off) (off + n)
    else parseL4 vx zil bs lim p next off

/-- An IPv6 header at an offset. badV is the stop code of a version other than 6, which the spec leaves open. -/
def parseV6 (vx zil badV : Nat) (bs : Bytes) (lim : Nat) (p : Pkt) (off : Nat) : Pkt :=
  if lim < off + 40 then p.halt 4
  else if byteAt bs off / 16 != 6 then p.halt badV
  else
    let p := { p with l3 := 2, dscp := beAt bs off 2 / 64 % 64, sip := sliceB bs (off + 8) 16, dip := sliceB bs (off + 24) 16, l3off := off }
    parseExt vx zil bs lim 3 p (byteAt bs (off + 6)) (off + 40)

/-- The EtherType at an offset, after n tags. The fuel is one more than the tags allowed. -/
def parseTags (vx zil badV : Nat) (bs : Bytes) (lim : Nat) : Nat → Pkt → Nat → Pkt
  | 0, p, _ => p
  | fuel + 1, p, off =>
    if lim < off + 2 then p.halt 4
    else
      let et := beAt bs off 2
      if et = 0x8100 || et = 0x88A8 then
        if p.vlanN = 2 then p.halt 2
        else if lim < off + 4 then p.halt 4
        else
          let vid := beAt bs (off + 2) 2 % 4096
          let p := if p.vlanN = 0 then { p with vid0 := vid } else { p with vid1 := vid }
          parseTags vx zil badV bs lim fuel { p with vlanN := p.vlanN + 1 } (off + 4)
      else
        let p := { p with etype := et }
        if et < 0x0600 then p.halt 1
        else if et = 0x0800 then parseV4 vx zil bs lim p (off + 2)
        else if et = 0x86DD then parseV6 vx zil badV bs lim p (off + 2)
        else { p with l3 := 3 }.halt 1

/-- The parser over a frame's bytes, within the first lim bytes (R304). -/
def parsePkt (vx zil badV lim : Nat) (bs : Bytes) : Pkt :=
  let lim := min lim bs.length
  if lim < 14 then ({} : Pkt).halt 4
  else parseTags vx zil badV bs lim 3 { dmac := beAt bs 0 6, smac := beAt bs 6 6 } 12

/-- The parser as the MACs use it for checksums and event messages. -/
def parseMac (bs : Bytes) : Pkt := parsePkt 65536 0 0 192 bs

/-- The 320-bit key of a parsed frame (R306). -/
def Pkt.key (p : Pkt) (port pass : Nat) : Nat :=
  let common := port % 16 * 2 ^ 28 + pass % 2 * 2 ^ 27 + p.vlanN * 2 ^ 25 + p.l3 * 2 ^ 23 + p.l4 * 2 ^ 20 + p.frag * 2 ^ 18 + p.ext * 2 ^ 16
    + p.stop * 2 ^ 13 + p.dscp * 2 ^ 7
  common * 2 ^ 288 +
    if p.l3 = 2 then ofBE p.sip * 2 ^ 160 + ofBE p.dip * 2 ^ 32 + p.sport * 2 ^ 16 + p.dport
    else p.dmac * 2 ^ 240 + p.smac * 2 ^ 192 + p.etype * 2 ^ 176 + p.vid0 * 2 ^ 164 + p.vid1 * 2 ^ 152 + p.proto * 2 ^ 144
      + ofBE p.sip * 2 ^ 112 + ofBE p.dip * 2 ^ 80 + (if p.l4 = 3 then 0 else p.sport) * 2 ^ 64 + p.dport * 2 ^ 48 + p.tunnel * 2 ^ 16

/-- The key of the fragment table (R321). -/
def Pkt.fragKey (p : Pkt) : Bytes := p.sip ++ p.dip ++ p.fragId ++ toLE 1 p.fragProto

/-- The address of a source as table 3 holds it, its 16 bytes (R313). -/
def Pkt.source6 (p : Pkt) : Bytes :=
  if p.l3 = 2 then p.sip
  else if p.l3 = 1 then List.replicate 10 0 ++ [0xFF, 0xFF] ++ p.sip
  else List.replicate 16 0

/-- The UDP payload of a frame: what the UDP length gives, within the frame. -/
def Pkt.udpBody (p : Pkt) (bs : Bytes) : Bytes :=
  if p.l4 = 1 || p.l4 = 4 || p.l4 = 5 then sliceB bs p.payload (beAt bs (p.l4off + 4) 2 - 8) else []

/-! ## Checksums (R357, R358) -/

/-- The sum of a string's 16-bit words, the last padded with a zero byte. -/
def wordSum : Bytes → Nat
  | [] => 0
  | [a] => a.toNat * 256
  | a :: b :: rest => a.toNat * 256 + b.toNat + wordSum rest

/-- A sum folded to 16 bits with end-around carry. -/
def fold16 (n : Nat) : Nat := if n = 0 then 0 else (n - 1) % 65535 + 1

/-- The checksum over a string whose own checksum bytes are 0. -/
def csum16 (bs : Bytes) (extra : Nat) : Nat := 65535 - fold16 (wordSum bs + extra)

/-- A checksum updated for a word that changes from old to new. -/
def csumUpdate (c old new : Nat) : Nat := 65535 - fold16 ((65535 - c) + (65535 - old) + new)

/-- The bytes of the IPv4 header at an offset. -/
def v4Header (bs : Bytes) (off : Nat) : Bytes := sliceB bs off (4 * (byteAt bs off % 16))

/-- The IPv4 header checksum is bad; false for a frame without one. -/
def Pkt.ipBad (p : Pkt) (bs : Bytes) : Bool := p.l3 == 1 && fold16 (wordSum (v4Header bs p.l3off)) != 65535

/-- The bytes from the L4 header to the end of the IP packet. -/
def Pkt.l4Len (p : Pkt) (bs : Bytes) : Nat :=
  (if p.l3 = 1 then beAt bs (p.l3off + 2) 2 else beAt bs (p.l3off + 4) 2 + 40) - (p.l4off - p.l3off)

/-- The sum of the pseudo-header for a length and protocol. -/
def Pkt.pseudo (p : Pkt) (len proto : Nat) : Nat := wordSum (p.sip ++ p.dip) + len + proto

/-- The TCP or UDP checksum is bad (R357): not checked on fragments; a UDP checksum of 0 is absent over IPv4 and bad over IPv6. -/
def Pkt.l4Bad (p : Pkt) (bs : Bytes) : Bool :=
  if p.frag != 0 || (p.l3 != 1 && p.l3 != 2) then false
  else if p.l4 = 2 then
    let n := p.l4Len bs
    decide (bs.length < p.l4off + n) || fold16 (wordSum (sliceB bs p.l4off n) + p.pseudo n 6) != 65535
  else if p.l4 = 1 || p.l4 = 4 || p.l4 = 5 then
    let n := beAt bs (p.l4off + 4) 2
    if beAt bs (p.l4off + 6) 2 = 0 then p.l3 == 2
    else decide (bs.length < p.l4off + n) || fold16 (wordSum (sliceB bs p.l4off n) + p.pseudo n 17) != 65535
  else false

/-- A frame with its IPv4 header checksum computed over the header as it stands. -/
def fixV4 (bs : Bytes) (off : Nat) : Bytes :=
  let z := spliceB bs (off + 10) [0, 0]
  spliceB z (off + 10) (toBE 2 (csum16 (v4Header z off) 0))

/-- A frame with its UDP checksum computed; a result of 0 is sent as 0xFFFF (R358). -/
def Pkt.fixUdp (p : Pkt) (bs : Bytes) : Bytes :=
  let n := beAt bs (p.l4off + 4) 2
  let z := spliceB bs (p.l4off + 6) [0, 0]
  let c := csum16 (sliceB z p.l4off n) (p.pseudo n 17)
  spliceB z (p.l4off + 6) (toBE 2 (if c = 0 then 65535 else c))

/-! ## Edits of a forwarded frame (R309) -/

/-- TTL or hop limit; none for a frame without an IP header. -/
def Pkt.ttl (p : Pkt) (bs : Bytes) : Option Nat :=
  if p.l3 = 1 then some (byteAt bs (p.l3off + 8)) else if p.l3 = 2 then some (byteAt bs (p.l3off + 7)) else none

/-- The frame with its TTL or hop limit decremented; a header checksum is updated incrementally, so a bad one stays bad (R358). -/
def Pkt.decTtl (p : Pkt) (bs : Bytes) : Bytes :=
  if p.l3 = 1 then
    let old := beAt bs (p.l3off + 8) 2
    let c := csumUpdate (beAt bs (p.l3off + 10) 2) old (old - 256)
    spliceB (spliceB bs (p.l3off + 8) (toBE 1 (byteAt bs (p.l3off + 8) - 1))) (p.l3off + 10) (toBE 2 c)
  else if p.l3 = 2 then spliceB bs (p.l3off + 7) (toBE 1 (byteAt bs (p.l3off + 7) - 1))
  else bs

/-- The VLAN edit of an action: 1 removes, 2 pushes, 3 replaces the outer tag; removing or replacing needs a tag. -/
def vlanEdit (op tagged tci : Nat) (bs : Bytes) : Bytes :=
  if op = 1 && tagged != 0 then bs.take 12 ++ bs.drop 16
  else if op = 2 then bs.take 12 ++ [0x81, 0x00] ++ toBE 2 tci ++ bs.drop 12
  else if op = 3 && tagged != 0 then spliceB bs 14 (toBE 2 tci)
  else bs

/-! ## PTP event messages (R359, R361) -/

/-- The offset of the PTP message of an event message, and whether it travels over UDP. -/
def Pkt.ptpAt (p : Pkt) (bs : Bytes) : Option (Nat × Bool) :=
  let at_ : Option (Nat × Bool) :=
    if p.etype = 0x88F7 then some (14 + 4 * p.vlanN, false)
    else if p.l4 = 1 && p.dport = 319 && p.frag = 0 then some (p.payload, true)
    else none
  at_.filter (fun o => decide (o.1 + 34 ≤ bs.length) && byteAt bs (o.1 + 1) % 16 == 2 && decide (byteAt bs o.1 % 16 ≤ 3))

/-- The correctionField with a residence time in ns added, saturating (R361). -/
def addResidence (field ns : Nat) : Nat :=
  if field = 0x7FFFFFFFFFFFFFFF then field
  else
    let v := sext 64 field + ns * 65536
    if 0x7FFFFFFFFFFFFFFF < v then 0x7FFFFFFFFFFFFFFF else wrapNat 64 v

/-- A UDP checksum updated for a run of bytes at an even offset from the header; over IPv4 a checksum of 0 stays 0 (R361). -/
def Pkt.udpUpdate (p : Pkt) (bs : Bytes) (old new : Bytes) : Bytes :=
  let c := beAt bs (p.l4off + 6) 2
  if c = 0 && p.l3 = 1 then bs
  else
    let c' := 65535 - fold16 ((65535 - c) + (65535 - fold16 (wordSum old)) + wordSum new)
    spliceB bs (p.l4off + 6) (toBE 2 (if c' = 0 then 65535 else c'))

/-- A forwarded event message with its residence time added (R46, R361). -/
def Pkt.correct (p : Pkt) (bs : Bytes) (off : Nat) (udp : Bool) (ns : Nat) : Bytes :=
  let old := sliceB bs (off + 8) 8
  let new := toBE 8 (addResidence (ofBE old) ns)
  let bs := spliceB bs (off + 8) new
  if udp then p.udpUpdate bs old new else bs

/-! ## Template datagrams (R319) -/

/-- The Ethernet frame of a template around a UDP payload, without FCS; the egress MAC sets the source address and the checksums. -/
def datagram (t : List Nat) (body : Bytes) : Bytes :=
  let w (i : Nat) : Nat := t.getD i 0
  let v6 := (w 0).testBit 24
  let tagged := (w 0).testBit 9
  let dscp := w 0 / 2 ^ 10 % 64
  let ttl := w 0 / 2 ^ 16 % 256
  let ulen := 8 + body.length
  let addr (i : Nat) : Bytes := (List.range 4).flatMap (fun k => toLE 4 (w (i + k)))
  let eth := toBE 2 (w 3 % 65536) ++ toBE 4 (w 2) ++ List.replicate 6 0
    ++ (if tagged then [0x81, 0x00] ++ toBE 2 (w 1 / 2 ^ 12 % 8 * 8192 + w 1 % 4096) else [])
  let ip := if v6 then
      [0x86, 0xDD] ++ toBE 4 (6 * 2 ^ 28 + dscp * 2 ^ 22) ++ toBE 2 ulen ++ toBE 1 17 ++ toBE 1 ttl ++ addr 5 ++ addr 9
    else
      [0x08, 0x00, 0x45] ++ toBE 1 (dscp * 4) ++ toBE 2 (20 + ulen) ++ toBE 2 0 ++ toBE 2 0x4000 ++ toBE 1 ttl ++ toBE 1 17 ++ toBE 2 0
        ++ toLE 4 (w 5) ++ toLE 4 (w 9)
  eth ++ ip ++ toBE 2 (w 3 / 65536) ++ toBE 2 (w 4 % 65536) ++ toBE 2 ulen ++ toBE 2 0 ++ body

end Sys2Proof.Machine
end

