-- ==== Sys2Proof/Machine/Tm.lean ====
section
/-! DEFINITION. The traffic manager and the transmit side of the MACs: policing, admission, fair scheduling, time gates, preemption, pause frames and the
edits at egress (13_traffic_manager.md, R323 to R342; 14_ethernet_macs.md, R348 to R355, R358 to R361). -/

namespace Sys2Proof.Machine

open Sys2Proof

/-! ## MACs, queues, ports -/

def Dev.mac (d : Dev) (n : Nat) : Mac := smGet (fun _ => Mac.reset) d.macs n
def Dev.setMac (d : Dev) (n : Nat) (x : Mac) : Dev := { d with macs := smSet (fun _ => Mac.reset) d.macs n x }
def Dev.queue (d : Dev) (g : Nat) : EQueue := smGet (fun _ => EQueue.reset) d.queues g
def Dev.setQueue (d : Dev) (g : Nat) (x : EQueue) : Dev := { d with queues := smSet (fun _ => EQueue.reset) d.queues g x }
def Dev.port (d : Dev) (n : Nat) : Port := smGet (fun _ => Port.reset) d.ports n
def Dev.setPort (d : Dev) (n : Nat) (x : Port) : Dev := { d with ports := smSet (fun _ => Port.reset) d.ports n x }

/-- A MAC's mode bits choose the slower of its two modes (R343). -/
def Dev.macSlow (d : Dev) (n : Nat) : Bool := d.get (R.MAC_CTRL n) F.MAC_CTRL_mode == 1

/-- A MAC's line rate in 100 Mb/s (R343). -/
def Dev.macRate (d : Dev) (n : Nat) : Nat :=
  if n < 2 then (if d.macSlow n then 100 else 250) else (if d.macSlow n then 10 else 25)

/-- The time of a number of bytes on a port, ns, rounded up. -/
def Dev.wireNs (d : Dev) (n bytes : Nat) : Nat := ceilDiv (bytes * 80) (d.macRate n)

/-- MAC_CTRL.max_len as it acts. -/
def Dev.macMax (d : Dev) (n : Nat) : Nat := min 9216 (max 64 (d.get (R.MAC_CTRL n) F.MAC_CTRL_max_len))

/-- The SerDes of a MAC is powered and clocked (R28, R437, R441). -/
def Dev.serOn (d : Dev) (n : Nat) : Bool :=
  d.hubUp && (d.dom 8 == 1 || (d.pwr.mode == .vigil && n == d.pwr.mgmtMac)) && !(d.clkOff.contains (if n < 2 then .ser25 else .ser2g5, 0))

def Dev.macOn (d : Dev) (n : Nat) : Bool := d.flag (R.MAC_CTRL n) F.MAC_CTRL_enable
def Dev.macLink (d : Dev) (n : Nat) : Bool := d.flag (R.MAC_STATUS n) F.MAC_STATUS_link

/-- The port may send: its MAC runs and its link is up (R340, R344). -/
def Dev.portUp (d : Dev) (n : Nat) : Bool := d.hubUp && d.macOn n && d.macLink n

/-- A received pause is in force (R351). -/
def Dev.paused (d : Dev) (n : Nat) : Bool := match (d.mac n).pauseUntil with
  | some u => decide (d.xo < u)
  | none => false

/-- The station address as its six bytes. -/
def Dev.macAddr (d : Dev) (n : Nat) : Bytes :=
  toBE 2 (d.get (R.MAC_ADDR_HI n) F.MAC_ADDR_HI_addr_hi) ++ toBE 4 (d.word (R.MAC_ADDR_LO n)).toNat

/-- A counter of a MAC grows by k modulo 2^48; passing half range sets its flag and raises event 52 (R362, R363). -/
def Dev.macCount (d : Dev) (n c k : Nat) : Dev :=
  let x := d.mac n
  let old := smGet (fun _ => 0) x.cnt c
  let new := (old + k) % 2 ^ 48
  let d := d.setMac n { x with cnt := smSet (fun _ => 0) x.cnt c new }
  if !old.testBit 47 && new.testBit 47 then
    let a := if c < 32 then R.MAC_CNT_HALF_LO n else R.MAC_CNT_HALF_HI n
    (d.setWord a (d.word a ||| BitVec.ofNat 32 (2 ^ (c % 32)))).raise 52 n c
  else d

/-- The size bin of a length, 0 to 8 (R362). -/
def sizeBin (len : Nat) : Nat :=
  if len ≤ 64 then 0 else if len ≤ 127 then 1 else if len ≤ 255 then 2 else if len ≤ 511 then 3 else if len ≤ 1023 then 4
  else if len ≤ 1518 then 5 else if len ≤ 2047 then 6 else if len ≤ 4095 then 7 else 8

/-- The counters of a good frame from base 0 (receive) or 32 (transmit): frames, bytes, address kind, size (R362). -/
def Dev.countFrame (d : Dev) (n base : Nat) (data : Bytes) (len : Nat) : Dev :=
  let kind := if beAt data 0 6 = 0xFFFFFFFFFFFF then 4 else if (byteAt data 0).testBit 0 then 3 else 2
  (((d.macCount n base 1).macCount n (base + 1) len).macCount n (base + kind) 1).macCount n (base + 16 + sizeBin len) 1

/-! ## Time gates (R335 to R337, R339) -/

/-- A stretch of a cycle: its entry, gate states and length in ns. -/
structure GateSeg where
  entry : Nat
  states : Nat
  len : Nat
deriving DecidableEq, Repr, Inhabited

/-- Entry e of a bank: interval and gate states (R335). -/
def Dev.gateEntry (d : Dev) (n b e : Nat) : GateSeg :=
  ⟨e, (d.word (R.SHP_GATE_LIST (1024 * n + 512 * b + 2 * e + 1))).toNat % 256, (d.word (R.SHP_GATE_LIST (1024 * n + 512 * b + 2 * e))).toNat⟩

/-- The bank that acts on a port. -/
def Dev.gateBank (d : Dev) (n : Nat) : Nat := d.get (R.SHP_PORT_CTRL n) F.SHP_PORT_CTRL_bank

/-- The list of a port's active bank. -/
def Dev.gateList (d : Dev) (n : Nat) : List GateSeg :=
  let b := d.gateBank n
  let len := d.get (R.SHP_PORT_LEN n) (if b = 0 then F.SHP_PORT_LEN_len0 else F.SHP_PORT_LEN_len1) + 1
  (List.range len).map (d.gateEntry n b)

/-- The cycle time of the active bank (R335). -/
def Dev.gateCycle (d : Dev) (n : Nat) : Nat :=
  let c := (d.word (if d.gateBank n = 0 then R.SHP_PORT_CYC0 n else R.SHP_PORT_CYC1 n)).toNat
  if c = 0 then (d.gateList n).foldl (fun s e => s + e.len) 0 else c

/-- The stretches of a cycle: entries of interval 0 are skipped, the list is cut at the cycle's end, or its last entry holds to it (R336). -/
def cutSegs : Nat → List GateSeg → List GateSeg
  | _, [] => []
  | left, [e] => if left = 0 then [] else [{ e with len := left }]
  | left, e :: rest => if left ≤ e.len then (if left = 0 then [] else [{ e with len := left }]) else e :: cutSegs (left - e.len) rest

def Dev.gateSegs (d : Dev) (n : Nat) : List GateSeg :=
  let es := d.gateList n
  let live := es.filter (fun e => e.len != 0)
  cutSegs (d.gateCycle n) (if live.isEmpty then (es.getLast?).toList else live)

/-- The gates follow a list (R336). -/
def Dev.gatesRun (d : Dev) (n : Nat) : Bool :=
  d.flag (R.SHP_PORT_CTRL n) F.SHP_PORT_CTRL_gate_en && d.flag (R.SHP_PORT_CTRL n) F.SHP_PORT_CTRL_has_list

/-- The instant of the last takeover. -/
def Dev.gateT0 (d : Dev) (n : Nat) : Nat :=
  (d.get (R.SHP_PORT_T0_HI n) F.SHP_PORT_T0_HI_sec_hi * 2 ^ 32 + (d.word (R.SHP_PORT_T0_LO n)).toNat) * 1000000000
    + d.get (R.SHP_PORT_T0_NS n) F.SHP_PORT_T0_NS_ns

/-- The stretches from a phase of the cycle on. -/
def dropNs : Nat → List GateSeg → List GateSeg
  | _, [] => []
  | x, e :: rest => if x < e.len then { e with len := e.len - x } :: rest else dropNs (x - e.len) rest

/-- The stretches from now to the end of the next cycle. -/
def Dev.gateAhead (d : Dev) (n : Nat) : List GateSeg :=
  let segs := d.gateSegs n
  let x := (((d.nt : Int) - d.gateT0 n) % (d.gateCycle n : Int)).toNat
  dropNs x (segs ++ segs)

/-- The entry in force and its gate states (R336). -/
def Dev.gateNow (d : Dev) (n : Nat) : Nat × Nat :=
  if !d.gatesRun n then (0, 255)
  else if d.gateCycle n = 0 then (0, (d.gateEntry n (d.gateBank n) 0).states)
  else match d.gateAhead n with
    | [] => (0, 255)
    | e :: _ => (e.entry, e.states)

/-- How long a queue's gate stays open from the head of a list of stretches. -/
def openRun (q : Nat) : List GateSeg → Nat
  | [] => 0
  | e :: rest => if e.states.testBit q then e.len + openRun q rest else 0

/-- The longest open span among the suffixes of a list of stretches. -/
def longestRun (q : Nat) : List GateSeg → Nat
  | [] => 0
  | e :: rest => max (openRun q (e :: rest)) (longestRun q rest)

/-- A queue's gate never closes: no list runs, or every stretch opens it. -/
def Dev.alwaysOpen (d : Dev) (n q : Nat) : Bool :=
  !d.gatesRun n || (if d.gateCycle n = 0 then (d.gateNow n).2.testBit q else (d.gateSegs n).all (fun e => e.states.testBit q))

/-- A frame's occupancy fits in a span in ns (R324, R339). -/
def Dev.fitsIn (d : Dev) (n len span : Nat) : Bool := decide ((len + 20) * 80 ≤ span * d.macRate n)

/-- A frame of a queue passes the fit test now. -/
def Dev.fitsNow (d : Dev) (n q len : Nat) : Bool :=
  d.alwaysOpen n q || (d.gateCycle n != 0 && d.fitsIn n len (openRun q (d.gateAhead n)))

/-- A frame of a queue can never pass the fit test. -/
def Dev.neverFits (d : Dev) (n q len : Nat) : Bool :=
  !d.alwaysOpen n q && !(d.gateCycle n != 0 && d.fitsIn n len (longestRun q (d.gateSegs n ++ d.gateSegs n)))

/-! ## Queues (R323 to R326, R332) -/

/-- Tags are compared in serial-number arithmetic modulo 2^48 (R332). -/
def serialLt (a b : Nat) : Bool := a != b && decide ((b + 2 ^ 48 - a) % 2 ^ 48 < 2 ^ 47)

/-- The finish tag of a frame with a start tag (R332). -/
def Dev.finishTag (d : Dev) (g s len : Nat) : Nat := (s + len * 256 / max 1 (d.get (R.SHP_Q_CFG g) F.SHP_Q_CFG_weight)) % 2 ^ 48

/-- A queue with its head's tags set from a start tag. -/
def Dev.retag (d : Dev) (g : Nat) (x : EQueue) (s : Nat) : EQueue :=
  match x.frames with
  | [] => x
  | h :: _ => { x with s := s, f := d.finishTag g s h.len }

/-- Bytes queued. -/
def EQueue.depth (x : EQueue) : Nat := x.frames.foldl (fun s f => s + f.len) 0

/-- Cells in use in a memory (R325). -/
def Dev.cellsUsed (d : Dev) (dram : Bool) : Nat :=
  d.queues.foldl (fun s q => q.2.frames.foldl (fun s f => if f.dram == dram then s + ceilDiv f.len 256 else s) s) 0

/-- The depth register and probe of a queue (R341). -/
def Dev.showDepth (d : Dev) (g : Nat) : Dev :=
  let n := (d.queue g).depth
  (d.setWord (R.SHP_Q_DEPTH g) (BitVec.ofNat 32 n)).sample 1 g n

/-- Where an admitted frame goes: some false SRAM, some true DRAM, none no_buf (R325, R327). -/
def Dev.placeFrame (d : Dev) (g len : Nat) : Option Bool :=
  let cells := ceilDiv len 256
  let sram := (d.queue g).frames.foldl (fun s f => if f.dram then s else s + f.len) 0
  if sram + len ≤ min 512 (d.get (R.SHP_Q_CFG g) F.SHP_Q_CFG_sram_max) * 16384 && d.cellsUsed false + cells ≤ 32768 then some false
  else if d.flag R.SHP_BUF_BASE F.SHP_BUF_BASE_dram_en && d.memUp && d.cellsUsed true + cells ≤ 2097152 then some true
  else none

/-- A frame is admitted to queue g, or dropped (R325, R326, R342). -/
def Dev.enqueue (d : Dev) (g : Nat) (f : QFrame) : Dev :=
  let x := d.queue g
  let qmax := min 8192 (max 1 (d.get (R.SHP_Q_CFG g) F.SHP_Q_CFG_q_max)) * 65536
  let drop := d.bump (R.SHP_Q_DROP g) F.SHP_Q_DROP_admit
  if x.isolated || decide (qmax < x.depth + f.len) then drop
  else match d.placeFrame g f.len with
    | none => drop
    | some dram =>
      let y := { x with frames := x.frames ++ [{ f with dram := dram, cameIn := d.xo }] }
      (d.setQueue g (if x.frames.isEmpty then d.retag g y (d.port (g / 8)).v else y)).showDepth g

/-- The head of queue g leaves it, sent or dropped; the next frame becomes the head, its start tag the finish tag of the one that left (R332). -/
def Dev.popQueue (d : Dev) (g : Nat) : Dev :=
  let x := d.queue g
  (d.setQueue g (d.retag g { x with frames := x.frames.tail, busy := false } x.f)).showDepth g

/-- The frame of queue g that is on the wire, or held there, is over. -/
def Dev.wireDone (d : Dev) (g : Nat) : Dev := if (d.queue g).busy then d.popQueue g else d

/-! ## Preemption (R353 to R355) -/

def Dev.peActive (d : Dev) (n : Nat) : Bool := d.flag (R.MAC_STATUS n) F.MAC_STATUS_pe_active

/-- A queue is preemptable on its port (R354). -/
def Dev.preemptable (d : Dev) (n q : Nat) : Bool := d.peActive n && !(d.get (R.MAC_PE_CTRL n) F.MAC_PE_CTRL_express).testBit q

/-- A queue's head may start: its gate is open, it fits or is preemptable, and the port is neither paused nor down (R333). -/
def Dev.headReady (d : Dev) (n q : Nat) : Bool :=
  match (d.queue (8 * n + q)).frames with
  | [] => false
  | h :: _ => !(d.queue (8 * n + q)).busy && d.portUp n && !d.paused n && (d.gateNow n).2.testBit q && (d.preemptable n q || d.fitsNow n q h.len)

/-- The preemptable frame in progress is split at the first point that R354 allows; with no such point it runs on. -/
def Dev.cutFrame (d : Dev) (n : Nat) : Dev :=
  let p := d.port n
  match p.now with
  | none => d
  | some x =>
    if !x.preemptable || x.upTo < x.frame.len then d
    else
      let sentNow := (d.xo - x.start) * d.macRate n / 80 - 8
      let least := 64 * (1 + d.get (R.MAC_PE_CTRL n) F.MAC_PE_CTRL_add_frag) - 4
      let point := x.sent + max sentNow least
      if point + 64 ≤ x.frame.len then
        d.setPort n { p with now := some { x with upTo := point, stop := x.start + d.wireNs n (point - x.sent + 24) } }
      else d

/-- An express frame or a pause frame is ready: the preemptable frame in progress gives way (R354). -/
def Dev.preemptFor (d : Dev) (n : Nat) : Dev :=
  if d.peActive n && (!(d.mac n).pauseOut.isEmpty || (List.range 8).any (fun q => !d.preemptable n q && d.headReady n q)) then d.cutFrame n else d

/-- The gates as they stand now: newly opened queues' heads wake, a closed queue's preemptable frame is held, and the registers show the states
(R332, R336, R355). -/
def Dev.gateSync (d : Dev) (n : Nat) : Dev :=
  let (entry, states) := d.gateNow n
  let old := (d.port n).gates
  let d := d.setPort n { d.port n with gates := states }
  let d := (d.put (R.SHP_PORT_GSTAT n) F.SHP_PORT_GSTAT_entry entry).put (R.SHP_PORT_GSTAT n) F.SHP_PORT_GSTAT_states states
  let d := (List.range 8).foldl (fun d q =>
    if states.testBit q && !old.testBit q && !(d.queue (8 * n + q)).busy then
      let x := d.queue (8 * n + q)
      let v := (d.port n).v
      d.setQueue (8 * n + q) (d.retag (8 * n + q) x (if serialLt x.s v then v else x.s))
    else d) d
  let d := match (d.port n).now with
    | some x => if x.preemptable && !states.testBit x.queue then d.cutFrame n else d
    | none => d
  d.preemptFor n

/-! ## Pause frames (R349, R350) -/

/-- The 60 bytes of a PAUSE frame before its FCS (R350). -/
def Dev.pauseFrame (d : Dev) (n time : Nat) : Bytes :=
  padTo 60 ([0x01, 0x80, 0xC2, 0x00, 0x00, 0x01] ++ d.macAddr n ++ [0x88, 0x08, 0x00, 0x01] ++ toBE 2 time)

/-- The queue that a frame of the MAC's or Clockwork's own counts as: none of the port's eight. -/
def ownQueue : Nat := 8

/-- Clockwork's Delay_Req starts when the port is free: its egress timestamp is written into its originTimestamp, latched as every event message's is,
and kept for its response (R45, R360, R361). -/
def Dev.pumpDelay (d : Dev) (n : Nat) : Dev :=
  match (d.mac n).delayOut with
  | none => d
  | some (bs, off) =>
    if !d.portUp n || (d.port n).now.isSome then d
    else
      let t := d.nt + d.wireNs n 8 + d.get (R.MAC_PTP_LAT n) F.MAC_PTP_LAT_tx_lat
      let bs := spliceB bs (off + 34) (toBE 6 (t / 1000000000) ++ toBE 4 (t % 1000000000))
      let p := parseMac bs
      let bs := if p.l4 = 1 then p.fixUdp bs else bs
      let len := bs.length + 4
      let x : TxNow := ⟨ownQueue, ⟨bs, len, true, false, false, 0, d.xo, false⟩, d.xo, d.xo + d.wireNs n (len + 20), false, 0, len, false, false⟩
      let d := d.setMac n { d.mac n with delayOut := none, ptpTx := some (t, 1, beAt bs (off + 30) 2) }
      let d := (d.put (R.MAC_PTP_TX_ID n) F.MAC_PTP_TX_ID_valid 1).setPort n { d.port n with now := some x }
      { d with clk := { d.clk with delayReq := d.clk.delayReq.map (fun r => (r.1, some t)) } }

/-- The next pause frame starts when the port is free; a preemptable frame in progress gives way to it. With no pause frame to send, Clockwork's
Delay_Req is next. -/
def Dev.pumpPause (d : Dev) (n : Nat) : Dev :=
  match (d.mac n).pauseOut with
  | [] => d.pumpDelay n
  | time :: rest =>
    if !d.portUp n then d
    else if (d.port n).now.isSome then d.preemptFor n
    else
      let f : QFrame := ⟨d.pauseFrame n time, 64, false, false, false, 0, d.xo, false⟩
      let x : TxNow := ⟨0, f, d.xo, d.xo + d.wireNs n 84, false, 0, 64, true, false⟩
      (d.setMac n { d.mac n with pauseOut := rest }).setPort n { d.port n with now := some x }

/-! ## Policing (R328 to R331) -/

/-- CORE cycles of 800 MHz up to an XO count. -/
def coreCycles (xo : Nat) : Nat := xo * 4 / 5

/-- The policer's bucket refilled up to now: whole tokens and the fraction kept, in 1/800,000,000 (R329). -/
def Dev.refill (d : Dev) (p : Nat) : Dev :=
  let x := smGet (fun _ => (⟨0, 0⟩ : Policer)) d.policers p
  let now := coreCycles d.xo
  let cbs := (d.word (R.SHP_POL_CBS p)).toNat % 2 ^ 24
  let sum := (d.word (R.SHP_POL_RATE p)).toNat * (now - x.at_) + x.frac
  let tokens := (d.word (R.SHP_POL_TOKENS p)).toNat + sum / 800000000
  let full := decide (cbs ≤ tokens)
  let d := d.setWord (R.SHP_POL_TOKENS p) (BitVec.ofNat 32 (if full then cbs else tokens))
  { d with policers := smSet (fun _ => (⟨0, 0⟩ : Policer)) d.policers p ⟨now, if full then 0 else sum % 800000000⟩ }

/-- A frame of length len reaches policer p: whether it conforms (R329, R330). -/
def Dev.police (d : Dev) (p len : Nat) : Dev × Bool :=
  let d := d.refill p
  let tokens := (d.word (R.SHP_POL_TOKENS p)).toNat
  if len ≤ tokens then (d.setWord (R.SHP_POL_TOKENS p) (BitVec.ofNat 32 (tokens - len)), true)
  else
    let d := (d.bump (R.SHP_POL_DROPS p) ⟨31, 0⟩).bump R.SHP_POL_DROP F.SHP_POL_DROP_drops
    if d.flag (R.SHP_POL_CBS p) ⟨31, 31⟩ then ((d.put (R.SHP_POL_CBS p) ⟨31, 31⟩ 0).raise 50 0 p, false) else (d, false)

/-- A write to a word of policer p (R328, R330). -/
def Dev.policerWrite (d : Dev) (p word : Nat) (w : Word) : Dev :=
  if word = 0 then d.setWord (R.SHP_POL_RATE p) w
  else if word = 1 then
    let alarm := d.flag (R.SHP_POL_CBS p) ⟨31, 31⟩ || w.getLsbD 31
    let cbs := w.toNat % 2 ^ 24
    (d.setWord (R.SHP_POL_CBS p) (BitVec.ofNat 32 (bitOf alarm * 2 ^ 31 + cbs))).setWord (R.SHP_POL_TOKENS p) (BitVec.ofNat 32 cbs)
  else if word = 3 then d.setWord (R.SHP_POL_DROPS p) w
  else d

/-- A frame is offered to queue q of port n: metered, admitted, and able to preempt (R329, R331, R354). -/
def Dev.offer (d : Dev) (n q : Nat) (policer : Option Nat) (f : QFrame) : Dev :=
  let (d, ok) := match policer with
    | some p => d.police p f.len
    | none => (d, true)
  if ok then (d.enqueue (8 * n + q) f).preemptFor n else d

/-- A frame as a queue takes it: its length counts the FCS and the padding (R324, R348). -/
def mkFrame (data : Bytes) (tmpl macRw ipBad : Bool) (rxXo : Nat) : QFrame := ⟨data, max 64 (data.length + 4), tmpl, macRw, ipBad, rxXo, 0, false⟩

/-! ## Starting and ending frames (R333, R339, R342, R348) -/

/-- Heads that can never start are dropped, one after another, each a gap that its queue counts (R323, R339, R348). The fuel is the number of frames. -/
def Dev.purgeQueue (d : Dev) (n q : Nat) : Nat → Dev
  | 0 => d
  | fuel + 1 =>
    match (d.queue (8 * n + q)).frames with
    | [] => d
    | h :: _ =>
      if (d.queue (8 * n + q)).busy then d
      else if d.macMax n < h.len then
        (((d.popQueue (8 * n + q)).bump (R.SHP_Q_DROP (8 * n + q)) F.SHP_Q_DROP_oversize).macCount n 39 1).purgeQueue n q fuel
      else if !d.preemptable n q && d.neverFits n q h.len then
        ((d.popQueue (8 * n + q)).bump (R.SHP_Q_DROP (8 * n + q)) F.SHP_Q_DROP_oversize).purgeQueue n q fuel
      else d

def Dev.purgeHeads (d : Dev) (n : Nat) : Dev :=
  (List.range 8).foldl (fun d q => d.purgeQueue n q (d.queue (8 * n + q)).frames.length) d

/-- The ready queue with the smallest start tag, the lower number on a tie (R333). -/
def Dev.pickQueue (d : Dev) (n : Nat) (ok : Nat → Bool) : Option Nat :=
  ((List.range 8).filter (fun q => ok q && d.headReady n q)).foldl (fun best q => match best with
    | none => some q
    | some b => if serialLt (d.queue (8 * n + q)).s (d.queue (8 * n + b)).s then some q else some b) none

/-- The frame as the MAC sends it (R348, R358): padded, its source address set, its header checksum and a template's checksums in place. -/
def Dev.egressEdit (d : Dev) (n : Nat) (f : QFrame) : Bytes :=
  let bs := f.data ++ List.replicate (60 - f.data.length) 0
  let bs := if f.tmpl || f.macRw then spliceB bs 6 (d.macAddr n) else bs
  let p := parseMac bs
  let bs := if p.l3 = 1 && !f.ipBad then fixV4 bs p.l3off else bs
  if f.tmpl then p.fixUdp bs else bs

/-- The egress timestamp of an event message is latched (R360); a forwarded one gets its residence time (R361). -/
def Dev.egressPtp (d : Dev) (n : Nat) (f : QFrame) (bs : Bytes) : Dev × Bytes :=
  let p := parseMac bs
  match p.ptpAt bs with
  | none => (d, bs)
  | some (off, udp) =>
    let lag := d.wireNs n 8 + d.get (R.MAC_PTP_LAT n) F.MAC_PTP_LAT_tx_lat
    let d := d.setMac n { d.mac n with ptpTx := some (d.nt + lag, byteAt bs off % 16, beAt bs (off + 30) 2) }
    let d := d.put (R.MAC_PTP_TX_ID n) F.MAC_PTP_TX_ID_valid 1
    if f.tmpl then (d, bs) else (d.macCount n 43 1, p.correct bs off udp (d.xo + lag - f.rxXo))

/-- The head of queue q starts on its port (R333, R341). -/
def Dev.startFrame (d : Dev) (n q : Nat) (bad : Bool) : Dev :=
  let x := d.queue (8 * n + q)
  match x.frames with
  | [] => d
  | f :: _ =>
    let d := d.setPort n { d.port n with v := x.s }
    let d := d.setQueue (8 * n + q) { x with busy := true }
    let soj := d.xo - f.cameIn
    let d := (d.setWord (R.SHP_Q_SOJ (8 * n + q)) (BitVec.ofNat 32 (min soj (2 ^ 32 - 1)))).sample 2 (8 * n + q) soj
    let (d, bs) := d.egressPtp n f (d.egressEdit n f)
    let now : TxNow := ⟨q, { f with data := bs }, d.xo, d.xo + d.wireNs n (f.len + 20), d.preemptable n q, 0, f.len, false, bad⟩
    d.setPort n { d.port n with now := some now }

/-- A cell's data is lost (R342). -/
def Dev.cellLost (d : Dev) (g : Nat) : Dev :=
  ((d.bump (R.SHP_Q_DROP g) F.SHP_Q_DROP_ecc).bump R.SHP_ECC F.SHP_ECC_uncorrected).recovery 5

/-- Both copies of a queue's links are lost: the queue is isolated (R342, R481). -/
def Dev.isolateQueue (d : Dev) (g : Nat) : Dev := ((d.setQueue g { EQueue.reset with isolated := true }).showDepth g).fatal 13 g

/-- Errors of the queues' links and tags (R342). -/
def Dev.linkErr (d : Dev) (n : Nat) : QErr → Dev
  | .linkOne => (d.bump R.SHP_RECOVER F.SHP_RECOVER_restored).recovery 5
  | .linkBoth q => d.isolateQueue (8 * n + q.val)
  | _ => d

/-- The chosen head starts, as an error in its cells lets it (R342). -/
def Dev.serveQueue (d : Dev) (n q : Nat) : QErr → Dev
  | .corrected => (d.bump R.SHP_ECC F.SHP_ECC_corrected).startFrame n q false
  | .headLost => (d.popQueue (8 * n + q)).cellLost (8 * n + q)
  | .lateLost => (d.startFrame n q true).cellLost (8 * n + q)
  | _ => d.startFrame n q false

/-- The held remainder resumes where its gate is open (R354, R355). -/
def Dev.resumeHeld (d : Dev) (n : Nat) (x : TxNow) : Dev :=
  if (d.gateNow n).2.testBit x.queue then
    let y := { x with start := d.xo, stop := d.xo + d.wireNs n (x.frame.len - x.sent + 20), upTo := x.frame.len }
    d.setPort n { d.port n with now := some y, held := none }
  else d

/-- Port n can start a frame (R333, R340, R354, R355). -/
def Dev.egressStart (d : Dev) (n : Nat) (e : QErr) : Dev :=
  let d := (d.gateSync n).linkErr n e
  if !d.portUp n || (d.port n).now.isSome || !(d.mac n).pauseOut.isEmpty then d
  else
    let d := d.purgeHeads n
    match (d.port n).held with
    | some x => match if d.peActive n then d.pickQueue n (fun q => !d.preemptable n q) else none with
      | some q => d.serveQueue n q e
      | none => d.resumeHeld n x
    | none => match d.pickQueue n (fun _ => true) with
      | some q => (d.serveQueue n q e).preemptFor n
      | none => d

/-- A boundary of port n's gate list is reached: the gates change, and where the port is free a head that can never fit is dropped and a held
remainder resumes in its open gate, unless an express frame is ready (R336, R339, R354, R355). -/
def Dev.gateBoundary (d : Dev) (n : Nat) : Dev :=
  let d := d.gateSync n
  if !d.portUp n || (d.port n).now.isSome || !(d.mac n).pauseOut.isEmpty then d
  else
    let d := d.purgeHeads n
    match (d.port n).held with
    | some x => if d.peActive n && (d.pickQueue n (fun q => !d.preemptable n q)).isSome then d else d.resumeHeld n x
    | none => d

/-- The frame, fragment or pause frame on the wire ends (R348, R350, R354). -/
def Dev.egressEnd (d : Dev) (n : Nat) : Dev :=
  match (d.port n).now with
  | none => d
  | some x =>
    if d.xo < x.stop then d
    else
      let d := d.setPort n { d.port n with now := none }
      let d := if x.sent = 0 then d else d.macCount n 41 1
      let d := if x.upTo < x.frame.len then d.setPort n { d.port n with held := some { x with sent := x.upTo } }
        else
          let d := if x.ctrl then d.macCount n 37 1 else d
          let d := if x.bad then d.macCount n 38 1 else d.countFrame n 32 x.frame.data x.frame.len
          let d := d.setMac n { d.mac n with wire := x.frame.data }
          if x.ctrl || x.queue = ownQueue then d else d.wireDone (8 * n + x.queue)
      d.pumpPause n

/-- Frames on the wire or held are lost with the link (R345, R355). -/
def Dev.loseWire (d : Dev) (n : Nat) : Dev :=
  let p := d.port n
  let d := if p.now.isSome then d.macCount n 40 1 else d
  let d := if p.held.isSome then d.macCount n 40 1 else d
  let d := (List.range 8).foldl (fun d q => d.wireDone (8 * n + q)) d
  (d.setPort n { d.port n with now := none, held := none }).setMac n { d.mac n with pauseOut := [], delayOut := none }

/-! ## Takeover and latched reads (R333, R337) -/

/-- A SHP_GATE_TAKEOVER action fires at NT t (R337). -/
def Dev.gateTakeover (d : Dev) (n b t : Nat) : Dev :=
  let d := (d.put (R.SHP_PORT_CTRL n) F.SHP_PORT_CTRL_bank (b % 2)).put (R.SHP_PORT_CTRL n) F.SHP_PORT_CTRL_has_list 1
  let d := (d.put (R.SHP_PORT_T0_HI n) F.SHP_PORT_T0_HI_sec_hi (t / 1000000000 / 2 ^ 32)).setWord (R.SHP_PORT_T0_LO n) (ntSecLoOf t)
  let d := d.put (R.SHP_PORT_T0_NS n) F.SHP_PORT_T0_NS_ns (t % 1000000000)
  ((d.bump (R.SHP_PORT_STAT n) F.SHP_PORT_STAT_takeovers).raise 51 n (b % 2)).gateSync n
where
  ntSecLoOf (t : Nat) : Word := BitVec.ofNat 32 (t / 1000000000)

/-- A read of SHP_PORT_n_VT_HI returns V [47:32] and latches the low word (R333). -/
def Dev.readVtHi (d : Dev) (n : Nat) : Dev :=
  let v := (d.port n).v
  (d.setPort n { d.port n with vLatch := some (v % 2 ^ 32) }).answer (BitVec.ofNat 32 (v / 2 ^ 32))

/-- V [31:0] as latched. -/
def Dev.vtLo (d : Dev) (n : Nat) : Word := BitVec.ofNat 32 ((d.port n).vLatch.getD ((d.port n).v % 2 ^ 32))

end Sys2Proof.Machine
end

