-- ==== Sys2Proof/Machine/Cal.lean ====
section
/-! DEFINITION. Calibration from the signal itself: units and their triggers, live- and shadow-verified runs, VCO calibration in the quiet slot
(17_calibration.md). -/

namespace Sys2Proof.Machine

open Sys2Proof

/-! ## Units and temperatures (R399, R400) -/

/-- The family of a unit: 0 radio, 1 SerDes, 2 DRAM. -/
def calFam (u : Nat) : Nat := u / 64

/-- A radio unit's radio, port and kind: 0 DC, 1 image, 2 filter, 3 VCO. -/
def calRadio (u : Nat) : Nat := bitsOf 5 4 u
def calPort (u : Nat) : Nat := bitsOf 3 3 u
def calKind (u : Nat) : Nat := bitsOf 2 0 u

/-- The unit code names a unit (R399). -/
def calValid (u : Nat) : Bool :=
  match calFam u with
  | 0 => calRadio u != 3 && decide (calKind u ≤ 3) && (calKind u != 3 || calPort u == 0)
  | 1 => bitsOf 5 3 u == 0
  | 2 => bitsOf 5 2 u == 0
  | _ => false

/-- The unit is a radio's VCO. -/
def calVco (u : Nat) : Bool := calFam u == 0 && calKind u == 3

/-- The code of a radio's VCO unit. -/
def vcoUnit (r : Nat) : Nat := 16 * r + 3

/-- The units that runs start of without a command: every one but the VCOs. -/
def calUnits : List Nat :=
  ((List.range 3).flatMap (fun r => (List.range 2).flatMap (fun p => (List.range 3).map (fun k => 16 * r + 8 * p + k)))) ++
  (List.range 8).map (64 + ·) ++ (List.range 4).map (128 + ·)

/-- The units that run one at a time with u, in the order of R403. -/
def calGroup (u : Nat) : List Nat :=
  match calFam u with
  | 0 => (List.range 3).map (u / 8 * 8 + ·)
  | 2 => [128 + u % 2, 130 + u % 2]
  | _ => [u]

/-- A reading that R400 keeps: from -55 to +150 degrees. -/
def tempOk (v : Int) : Bool := decide (-880 ≤ v) && decide (v ≤ 2400)

/-- A sensor's valid reading. -/
def Dev.tempOf (d : Dev) (s : Nat) : Option Int := (smFind d.temps s).filter tempOk

/-- Twice the mean of the valid sensors of a die. -/
def Dev.dieTemp (d : Dev) (die : Nat) : Option Int :=
  match d.tempOf (2 * die), d.tempOf (2 * die + 1) with
  | some a, some b => some (a + b)
  | some a, none => some (2 * a)
  | none, some b => some (2 * b)
  | none, none => none

/-- A unit's temperatures (R400). -/
def Dev.calTemp (d : Dev) (u : Nat) : CalTemps :=
  match calFam u with
  | 0 => (d.dieTemp (calRadio u + 1), none)
  | 1 => (d.dieTemp 0, none)
  | _ => (d.dieTemp 0, d.dieTemp 6)

/-- cal_dt in 1/32 degree (R401); 0 acts as 1. -/
def Dev.calDt (d : Dev) : Nat := max 1 (d.get R.CAL_CTRL F.CAL_CTRL_cal_dt) * 32

/-- One temperature has moved by more than cal_dt from another. -/
def movedBy (dt : Nat) : Option Int → Option Int → Bool
  | some a, some b => decide (dt < (a - b).natAbs)
  | _, _ => false

/-- Either temperature of a unit has moved (R401). -/
def Dev.calMoved (d : Dev) (old now : CalTemps) : Bool := movedBy d.calDt old.1 now.1 || movedBy d.calDt old.2 now.2

/-! ## Starting a run (R401 to R403) -/

/-- The family's enable (R403). -/
def Dev.calEnabled (d : Dev) (u : Nat) : Bool :=
  match calFam u with
  | 0 => d.flag R.CAL_CTRL F.CAL_CTRL_rad_en
  | 1 => d.flag R.CAL_CTRL F.CAL_CTRL_ser_en
  | _ => d.flag R.CAL_CTRL F.CAL_CTRL_dram_en

/-- The unit's die or link is in service. -/
def Dev.calServes (d : Dev) (u : Nat) : Bool :=
  match calFam u with
  | 0 => d.radioUp (calRadio u)
  | 1 => d.macLink (u % 8)
  | _ => d.memUp

/-- A unit's run. -/
def Dev.calRun (d : Dev) (u : Nat) : Option CalRun := smFind d.cal.runs u

/-- The device with a unit's run replaced. -/
def Dev.setRun (d : Dev) (u : Nat) (x : CalRun) : Dev := { d with cal := { d.cal with runs := smInsert u x d.cal.runs } }

/-- CAL_STATUS shows how many units run. -/
def Dev.calShow (d : Dev) : Dev := d.put R.CAL_STATUS F.CAL_STATUS_running d.cal.runs.length

/-- A unit's run begins. -/
def Dev.calBegin (d : Dev) (u : Nat) : Dev :=
  let d := d.setRun u ⟨0, 0, none, (0, 0), 0, d.calTemp u⟩
  ({ d with cal := { d.cal with retryAt := smErase d.cal.retryAt u } }).calShow

/-- A unit is to run: at once, or once the unit of its group that runs has ended (R403). -/
def Dev.calStart (d : Dev) (u : Nat) : Dev :=
  if !d.calEnabled u || !d.calServes u || (d.calRun u).isSome || d.cal.waiting.contains u then d
  else if (calGroup u).any (fun v => (d.calRun v).isSome) then { d with cal := { d.cal with waiting := d.cal.waiting ++ [u] } }
  else d.calBegin u

/-- The first unit of a group that waits begins, where it may still run (R403). -/
def Dev.calNext (d : Dev) (u : Nat) : Dev :=
  match (calGroup u).find? (fun v => d.cal.waiting.contains v) with
  | none => d
  | some v => ({ d with cal := { d.cal with waiting := d.cal.waiting.filter (· != v) } }).calStart v

/-! ## Ending a run (R401, R402, R404, R413, R414) -/

/-- The final figure of a unit breaks its limit (R414): the figure of a radio unit in its register's unit, else the eye as its register shows it. -/
def Dev.calBelow (d : Dev) (u : Nat) (x : CalRun) : Bool :=
  match calFam u with
  | 0 =>
    match x.fig with
    | none => false
    | some f =>
      if calKind u = 0 then decide (-(d.get R.CAL_THR_RAD F.CAL_THR_RAD_dc_max : Int) < f)
      else if calKind u = 1 then decide (-(d.get R.CAL_THR_RAD F.CAL_THR_RAD_img_max : Int) < f)
      else decide (d.get R.CAL_THR_RAD F.CAL_THR_RAD_bw_max < f.natAbs)
  | 1 => x.fig.isSome && (decide (x.eye.1 < d.get R.CAL_THR_SER F.CAL_THR_SER_width_min) ||
      decide (x.eye.2 < d.get R.CAL_THR_SER F.CAL_THR_SER_height_min))
  | _ => x.fig.isSome && decide (x.eye.1 < d.get R.CAL_THR_DRAM F.CAL_THR_DRAM_eye_min)

/-- The unit's figures appear in its register (R413). -/
def Dev.calFigures (d : Dev) (u : Nat) (x : CalRun) : Dev :=
  match x.fig with
  | none => d
  | some f =>
    match calFam u with
    | 0 =>
      let a := R.CAL_RAD_FIG (calRadio u) (calPort u)
      if calKind u = 0 then d.put a F.CAL_RAD_FIG_dc (min 255 (-f).toNat)
      else if calKind u = 1 then d.put a F.CAL_RAD_FIG_image (min 255 (-f).toNat)
      else d.put a F.CAL_RAD_FIG_bw_err (wrapNat 8 (satS 8 f))
    | 1 => (d.put (R.CAL_SER_FIG (u % 8)) F.CAL_SER_FIG_width (min 127 x.eye.1)).put (R.CAL_SER_FIG (u % 8)) F.CAL_SER_FIG_height (min 1023 x.eye.2)
    | _ =>
      let a := R.CAL_DRAM_FIG (u % 2)
      if u / 2 % 2 = 0 then (d.put a F.CAL_DRAM_FIG_rd_min x.eye.1).put a F.CAL_DRAM_FIG_rd_bit x.eye.2
      else (d.put a F.CAL_DRAM_FIG_wr_min x.eye.1).put a F.CAL_DRAM_FIG_wr_bit x.eye.2

/-- A run ends (R413): its outcome, its figures, its temperature, a retry where it ends below threshold (R402, R414); the next unit of the group follows,
the unit itself again where its temperature moved during the run (R401). -/
def Dev.calEnd (d : Dev) (u : Nat) (x : CalRun) (outcome : Nat) : Dev :=
  let below := d.calBelow u x
  let moved := d.calMoved x.start (d.calTemp u)
  let d := d.calFigures u x
  let d := { d with cal := { d.cal with
    runs := smErase d.cal.runs u
    temps := smInsert u (d.calTemp u) d.cal.temps
    waiting := if moved && !d.cal.waiting.contains u then d.cal.waiting ++ [u] else d.cal.waiting } }
  let d := (d.bump R.CAL_STAT F.CAL_STAT_runs).calShow
  let d := ((d.put R.CAL_LAST F.CAL_LAST_outcome outcome).put R.CAL_LAST F.CAL_LAST_below (bitOf below)).put R.CAL_LAST F.CAL_LAST_unit u
  let d := d.raise 59 u
  let retry := d.get R.CAL_CTRL F.CAL_CTRL_retry
  let d := if below then
      let d := (d.bump R.CAL_STAT F.CAL_STAT_quality_low).raise 60 u
      if retry = 0 then d else { d with cal := { d.cal with retryAt := smInsert u (d.xo + retry * 1000000000) d.cal.retryAt } }
    else d
  d.calNext u

/-! ## Live-verified runs (R405, R407) -/

/-- A code of a radio unit: its register, field, and whether it is signed. -/
def calCode (u item : Nat) : Nat × Fld × Bool :=
  let r := calRadio u
  let p := calPort u
  if calKind u = 0 then (R.CAL_RAD_CODE0 r p, if item = 0 then F.CAL_RAD_CODE0_dc_i else F.CAL_RAD_CODE0_dc_q, true)
  else if calKind u = 1 then (R.CAL_RAD_CODE1 r p, if item = 0 then F.CAL_RAD_CODE1_img_gain else F.CAL_RAD_CODE1_img_phase, true)
  else (R.CAL_RAD_CODE1 r p, F.CAL_RAD_CODE1_bw, false)

/-- The number of codes of a radio unit (R407). -/
def calCodes (u : Nat) : Nat := if calKind u = 2 then 1 else 2

/-- A code as it stands, or as it will from the next slot start (R405). -/
def Dev.codeOf (d : Dev) (u item : Nat) : Int :=
  let (a, f, signed) := calCode u item
  let raw := match d.cal.codes.find? (fun c => c.1 == a && c.2.2.1 == f.lo) with
    | some c => c.2.2.2
    | none => d.get a f
  if signed then sext (f.hi - f.lo + 1) raw else raw

/-- A code changes at the next slot start (R405). -/
def Dev.setCode (d : Dev) (u item : Nat) (v : Int) : Dev :=
  let (a, f, _) := calCode u item
  { d with cal := { d.cal with
      codes := d.cal.codes.filter (fun c => !(c.1 == a && c.2.2.1 == f.lo)) ++ [(a, f.hi, f.lo, wrapNat (f.hi - f.lo + 1) v)] } }

/-- The slot start: changed codes take effect (R405). -/
def Dev.calSlot (d : Dev) : Dev :=
  let d' := d.cal.codes.foldl (fun d c => d.put c.1 ⟨c.2.1, c.2.2.1⟩ c.2.2.2) d
  { d' with cal := { d'.cal with codes := [] } }

/-- A code is in its range (R407). -/
def codeIn (u : Nat) (v : Int) : Bool :=
  if calKind u = 2 then decide (0 ≤ v) && decide (v ≤ 63) else decide (-128 ≤ v) && decide (v ≤ 127)

/-- g improves on f by at least the unit's hysteresis (R405, R407): 0.5 dB, or 0.2%. -/
def calBetter (u : Nat) (g f : Int) : Bool :=
  if calKind u = 2 then decide (g.natAbs + 2 ≤ f.natAbs) else decide (g + 2 ≤ f)

/-- The step of a direction. -/
def dirStep (dir : Nat) : Int := if dir = 1 then 1 else -1

/-- The next step in a direction, or the end of the run at 64 steps or the code's range (R405). -/
def Dev.calTry (d : Dev) (u : Nat) (x : CalRun) (dir : Nat) : Dev :=
  let c := d.codeOf u x.item + dirStep dir
  if 64 ≤ x.steps || !codeIn u c then d.calEnd u x 2
  else (d.setCode u x.item c).setRun u { x with dir := dir, steps := x.steps + 1 }

/-- A measurement window of a live-verified unit ends with a figure (R405). -/
def Dev.calLive (d : Dev) (u : Nat) (g : Int) : Dev :=
  match d.calRun u with
  | none => d
  | some x =>
    if calFam u != 0 then d
    else
      let better := match x.fig with
        | some f => calBetter u g f
        | none => true
      if x.dir = 0 then d.calTry u { x with fig := some g } 1
      else if better then d.calTry u { x with fig := some g } x.dir
      else
        let d := (d.setCode u x.item (d.codeOf u x.item - dirStep x.dir)).bump R.CAL_STAT F.CAL_STAT_reverted
        if x.dir = 1 then d.calTry u x 2
        else if x.item + 1 < calCodes u then d.setRun u { x with item := x.item + 1, dir := 0 }
        else d.calEnd u x 1

/-! ## Shadow-verified runs (R406, R411, R412) -/

/-- The DFE taps of a MAC's lane (R411). -/
def dfeTaps (n : Nat) : Nat := if n < 2 then 5 else 2

/-- A DFE tap, and the device with it replaced. -/
def dfeFld (t : Nat) : Fld := ⟨6 * t + 5, 6 * t⟩
def Dev.dfe (d : Dev) (n t : Nat) : Int := sext 6 (d.get (R.CAL_SER_TAPS n) (dfeFld t))
def Dev.setDfe (d : Dev) (n t : Nat) (v : Int) : Dev := d.put (R.CAL_SER_TAPS n) (dfeFld t) (wrapNat 6 v)

/-- One step from a code toward the centre of a passing region, where the centre lies more than 2 codes away (R406). -/
def towardCentre (lo hi c : Int) : Option Int :=
  if 4 < (lo + hi - 2 * c).natAbs then some (if 2 * c < lo + hi then c + 1 else c - 1) else none

/-- An eye measurement of a SerDes lane ends (R411): the tap steps toward the centre where neither figure worsens; else the next tap has its turn. -/
def Dev.calSerdes (d : Dev) (u : Nat) (x : CalRun) (lo hi : Int) (w h w' h' : Nat) : Dev :=
  let n := u % 8
  match (towardCentre lo hi (d.dfe n x.item)).filter (fun v => decide (w ≤ w') && decide (h ≤ h') && decide (-32 ≤ v) && decide (v ≤ 31)) with
  | some v => (d.setDfe n x.item v).setRun u { x with eye := (w', h'), fig := some 0, steps := x.steps + 1 }
  | none =>
    let x := { x with eye := (w, h), fig := some 0 }
    if x.item + 1 < dfeTaps n then d.setRun u { x with item := x.item + 1 } else d.calEnd u x 1

/-- The taps and eye widths of a DQ bit (R412). -/
def Dev.dqBit (d : Dev) (k : Nat) : Nat × Nat × Nat × Nat := smGet (fun _ => (0, 0, 0, 0)) d.cal.bits k
def Dev.setDqBit (d : Dev) (k : Nat) (x : Nat × Nat × Nat × Nat) : Dev :=
  { d with cal := { d.cal with bits := smSet (fun _ => (0, 0, 0, 0)) d.cal.bits k x } }

/-- A passing span of codes in ps: 2.44 ps each (R412). -/
def spanPs (lo hi : Nat) : Nat := min 255 ((hi + 1 - lo) * 244 / 100)

/-- The least eye width of a channel's bits, and the lowest bit with it. -/
def Dev.worstBit (d : Dev) (c : Nat) (write : Bool) : Nat × Nat :=
  let width (b : Nat) : Nat := let x := d.dqBit (32 * c + b); if write then x.2.2.2 else x.2.1
  (List.range 32).foldl (fun best b => if width b < best.1 then (width b, b) else best) (256, 0)

/-- An eye measurement of a DQ bit ends (R412): its width is known, and its tap steps toward the centre, or the next bit has its turn. -/
def Dev.calDram (d : Dev) (u : Nat) (x : CalRun) (lo hi : Nat) : Dev :=
  let c := u % 2
  let write := u / 2 % 2 == 1
  let k := 32 * c + x.item
  let (rt, rw, wt, ww) := d.dqBit k
  let ps := spanPs lo hi
  let put (t : Nat) : Dev := d.setDqBit k (if write then (rt, rw, t, ps) else (t, ps, wt, ww))
  match towardCentre lo hi (if write then wt else rt) with
  | some v => (put v.toNat).setRun u { x with steps := x.steps + 1 }
  | none =>
    let d := put (if write then wt else rt)
    if x.item + 1 < 32 then d.setRun u { x with item := x.item + 1 }
    else
      let (w, b) := d.worstBit c write
      d.calEnd u { x with fig := some 0, eye := (w, b) } 1

/-- A shadow-verified measurement ends (R406). -/
def Dev.calShadow (d : Dev) (u : Nat) (e : CalEye) : Dev :=
  match d.calRun u with
  | none => d
  | some x =>
    match e with
    | .serdes lo hi w h w' h' => if calFam u = 1 then d.calSerdes u x lo hi w h w' h' else d
    | .dram lo hi => if calFam u = 2 then d.calDram u x lo hi else d

/-! ## Triggers, commands and faults -/

/-- A run is broken off with an outcome (R404): a live step that no measurement has verified is reverted. -/
def Dev.calBreak (d : Dev) (u outcome : Nat) : Dev :=
  match d.calRun u with
  | none => { d with cal := { d.cal with waiting := d.cal.waiting.filter (· != u) } }
  | some x =>
    let d := if calFam u = 0 && x.dir != 0 then d.setCode u x.item (d.codeOf u x.item - dirStep x.dir) else d
    d.calEnd u x outcome

/-- The units of a radio, a link or the MEM die are out of service (R404). -/
def Dev.calLost (d : Dev) (p : Nat → Bool) : Dev := (calUnits.filter p).foldl (fun d u => d.calBreak u 4) d

/-- The units of a radio. -/
def ofRadio (r u : Nat) : Bool := calFam u == 0 && calRadio u == r

/-- A radio's power-up or reset: factory codes, a calibration due, and its units run (R113, R402). -/
def Dev.calRadioUp (d : Dev) (r : Nat) : Dev :=
  let d := (List.range 2).foldl (fun d p =>
    (d.setWord (R.CAL_RAD_CODE0 r p) (smGet (fun _ => 0) d.fuses (R.CAL_RAD_CODE0 r p))).setWord (R.CAL_RAD_CODE1 r p)
      (smGet (fun _ => 0) d.fuses (R.CAL_RAD_CODE1 r p))) d
  (calUnits.filter (ofRadio r)).foldl Dev.calStart (d.setVcoDue r true)

/-- A lane adapts its taps freely at link up (R411): they are free values. Its unit then runs (R402). -/
def Dev.calLinkUp (d : Dev) (n : Nat) : Dev :=
  let (w, d) := d.takeWord
  (d.setWord (R.CAL_SER_TAPS n) (BitVec.ofNat 32 (w.toNat % 2 ^ (6 * dfeTaps n)))).calStart (64 + n)

/-- Initial training of the DRAM channels (R412): the taps and eyes it finds are free values. -/
def Dev.dramTrain (d : Dev) : Dev :=
  let d := (List.range 64).foldl (fun d k =>
    let (w, d) := d.takeWord
    d.setDqBit k (w.toNat % 256, w.toNat / 2 ^ 8 % 256, w.toNat / 2 ^ 16 % 256, w.toNat / 2 ^ 24)) d
  (d.put R.DRC_STATUS F.DRC_STATUS_ch0_ready 1).put R.DRC_STATUS F.DRC_STATUS_ch1_ready 1

/-- Once a second (R400, R401): units whose temperature has moved run; a unit without a sensor runs every 60 s, and raises event 60 once. -/
def Dev.calTickUnit (d : Dev) (u : Nat) : Dev :=
  if !d.calEnabled u || !d.calServes u then d
  else if d.calTemp u = (none, none) then
    let d := if d.cal.blind.contains u then d
      else ({ d with cal := { d.cal with blind := d.cal.blind ++ [u] } }).raise 60 u
    match smFind d.cal.blindAt u with
    | some t => if t + 60000000000 ≤ d.xo then ({ d with cal := { d.cal with blindAt := smInsert u d.xo d.cal.blindAt } }).calStart u else d
    | none => { d with cal := { d.cal with blindAt := smInsert u d.xo d.cal.blindAt } }
  else
    let d := { d with cal := { d.cal with blind := d.cal.blind.filter (· != u), blindAt := smErase d.cal.blindAt u } }
    match smFind d.cal.temps u with
    | some old => if (d.calRun u).isNone && d.calMoved old (d.calTemp u) then d.calStart u else d
    | none => d

def Dev.calTick (d : Dev) : Dev := calUnits.foldl Dev.calTickUnit d

/-- A unit that ended below its threshold runs again (R402). -/
def Dev.calRetry (d : Dev) (u : Nat) : Dev :=
  match smFind d.cal.retryAt u with
  | some t => if t ≤ d.xo then ({ d with cal := { d.cal with retryAt := smErase d.cal.retryAt u } }).calStart u else d
  | none => d

/-- The result of a CAL_CMD command; go clears. -/
def Dev.calResult (d : Dev) (r : Nat) : Dev := (d.put R.CAL_CMD F.CAL_CMD_result r).put R.CAL_CMD F.CAL_CMD_go 0

/-- A CAL_CMD command on a unit (R403, R404): what both operations check. -/
def Dev.calCommand (d : Dev) (u op : Nat) (f : Dev → Dev) : Dev :=
  let d := (d.put R.CAL_CMD F.CAL_CMD_unit u).put R.CAL_CMD F.CAL_CMD_op op
  if !calValid u then d.calResult 5
  else if !calVco u && !d.calEnabled u then d.calResult 3
  else if !d.calServes u then d.calResult 4
  else f d

/-- CAL_CMD op 1 (R403). -/
def Dev.calRunCmd (d : Dev) (u : Nat) : Dev := d.calCommand u 1 (fun d =>
  if calVco u then (d.setVcoDue (calRadio u) true).calResult 1
  else if (d.calRun u).isSome then d.calResult 2
  else (d.calStart u).calResult 1)

/-- CAL_CMD op 2 (R404). -/
def Dev.calStopCmd (d : Dev) (u : Nat) : Dev := d.calCommand u 2 (fun d => (d.calBreak u 3).calResult 1)

/-- CAL_CMD with another op reports result 5. -/
def Dev.calOther (d : Dev) (u op : Nat) : Dev := ((d.put R.CAL_CMD F.CAL_CMD_unit u).put R.CAL_CMD F.CAL_CMD_op op).calResult 5

/-- A write to CAL_DRAM_IDX snapshots a bit (R412). -/
def Dev.dramIdx (d : Dev) (c b : Nat) : Dev :=
  let (rt, rw, wt, ww) := d.dqBit (32 * c + b)
  let d := (d.put R.CAL_DRAM_IDX F.CAL_DRAM_IDX_ch c).put R.CAL_DRAM_IDX F.CAL_DRAM_IDX_bit b
  d.setWord R.CAL_DRAM_BIT (BitVec.ofNat 32 (ww * 2 ^ 24 + wt * 2 ^ 16 + rw * 2 ^ 8 + rt))

/-! ## VCO calibration (R408, R409) -/

/-- The result of a VCO calibration. -/
def Dev.vcoResult (d : Dev) (r res : Nat) : Dev := d.put (R.CAL_RAD_VCO r) F.CAL_RAD_VCO_result res

/-- A CAL_QUIET action fires on a radio (R408). -/
def Dev.calQuiet (d : Dev) (r arg : Nat) : Dev :=
  if arg != 1 && arg != 2 then d.vcoResult r 3
  else if !d.radioUp r || d.radChanging r || !(d.radState r == radRX || d.radState r == radTUNE) || (arg == 1 && !d.vcoDue r) then d.vcoResult r 2
  else ((d.setRadState r radVCO).setRadLock r false).onRadio r (fun x => { x with vcoQuiet := true })

/-- A VCO calibration ends with a band, or with none that locks (R409, R113): the radio goes on to TUNE, where the loop starts to lock. -/
def Dev.vcoDone (d : Dev) (r : Nat) (band : Option Nat) : Dev :=
  if !d.radioUp r || d.radState r != radVCO then d
  else
    let d := if (d.radio r).vcoQuiet then d else d.programSynth r
    let d := (d.setRadState r radTUNE).onRadio r (fun x => { x with vcoQuiet := false })
    match band with
    | none => (d.vcoResult r 4).raise 60 (vcoUnit r)
    | some b =>
      let d := (d.setVcoDue r false).put (R.RAD_CTRL r) F.RAD_CTRL_vco_cal_req 0
      let d := d.setRadio r { d.radio r with vcoAt := some (vcoHz r (d.get (R.RAD_FC r) F.RAD_FC_fc)), vcoTemp := d.dieTemp (r + 1) }
      ((d.put (R.CAL_RAD_VCO r) F.CAL_RAD_VCO_band b).vcoResult r 1).raise 59 (vcoUnit r)

/-- The radio's temperature has moved by more than cal_dt since its last VCO calibration, which becomes due (R113). -/
def Dev.vcoTempCheck (d : Dev) (r : Nat) : Dev :=
  if d.radioUp r && movedBy d.calDt (d.radio r).vcoTemp (d.dieTemp (r + 1)) then d.setVcoDue r true else d

end Sys2Proof.Machine
end

