-- ==== Sys2Proof/Machine/Mac.lean ====
section
/-! DEFINITION. The receive side of the MACs, their links, pause, verification, counters and latched reads (14_ethernet_macs.md, R344 to R347, R349 to
R353, R356, R357, R359, R360, R362 to R364). -/

namespace Sys2Proof.Machine

open Sys2Proof

/-! ## Receive buffer and pause (R347, R349, R352) -/

/-- The receive buffer in bytes (R343). -/
def rxBufSize (n : Nat) : Nat := if n < 2 then 524288 else 131072

/-- Bytes of the receive buffer in use (R347). -/
def Dev.rxUsed (d : Dev) (n : Nat) : Nat :=
  (d.mac n).rx.foldl (fun s f => s + f.data.length + 4) 0 + (match (d.mac n).partial_ with
    | some (bs, _) => bs.length
    | none => 0)

/-- A direction of pause may act (R351): its enable, and with auto-negotiation its resolution. -/
def Dev.macAn (d : Dev) (n : Nat) : Bool := decide (2 ≤ n) && d.macSlow n && d.flag (R.MAC_CTRL n) F.MAC_CTRL_an_en
def Dev.txPauseOn (d : Dev) (n : Nat) : Bool := d.flag (R.MAC_CTRL n) F.MAC_CTRL_tx_pause_en && (!d.macAn n || (d.mac n).anTx)
def Dev.rxPauseOn (d : Dev) (n : Nat) : Bool := d.flag (R.MAC_CTRL n) F.MAC_CTRL_rx_pause_en && (!d.macAn n || (d.mac n).anRx)

/-- Quanta of 512 bit times as ns on a MAC, rounded up. -/
def Dev.quantaNs (d : Dev) (n q : Nat) : Nat := ceilDiv (q * 5120) (d.macRate n)

/-- The watermarks in bytes; lo_wm at or above hi_wm acts as hi_wm - 1. -/
def Dev.hiWm (d : Dev) (n : Nat) : Nat := d.get (R.MAC_WM n) F.MAC_WM_hi_wm * 1024
def Dev.loWm (d : Dev) (n : Nat) : Nat := min (d.get (R.MAC_WM n) F.MAC_WM_lo_wm) (d.get (R.MAC_WM n) F.MAC_WM_hi_wm - 1) * 1024

/-- A pause frame is sent; none while the link is down (R349). -/
def Dev.sendPause (d : Dev) (n time : Nat) : Dev :=
  if !d.portUp n then d else (d.setMac n { d.mac n with pauseOut := (d.mac n).pauseOut ++ [time] }).pumpPause n

/-! ## Clockwork's Delay_Req (R45, R361) -/

/-- The PTP message of Clockwork's Delay_Req, its originTimestamp still 0: 44 bytes with the identity formed from the port's MAC address (PRESUMED of
IEEE 1588-2019, log entry 83). -/
def Dev.delayMsg (d : Dev) (n seq : Nat) : Bytes :=
  let m := d.macAddr n
  [1, 2] ++ toBE 2 44 ++ toBE 1 (d.get R.CLK_PTP_CTRL F.CLK_PTP_CTRL_domain) ++ [0] ++ List.replicate 14 0 ++ m.take 3 ++ [0xFF, 0xFE] ++ m.drop 3 ++ toBE 2 1 ++
    toBE 2 seq ++ [1, 0x7F] ++ List.replicate 10 0

/-- Clockwork's Delay_Req over a transport, and the offset of its PTP message: to the PTP multicast address of the transport (PRESUMED of IEEE 1588-2019),
from an IP address that the spec does not give (log entry 83). -/
def Dev.delayFrame (d : Dev) (n seq tr : Nat) : Bytes × Nat :=
  let msg := d.delayMsg n seq
  let udp (k : Nat) : Bytes := toBE 2 319 ++ toBE 2 319 ++ toBE 2 (8 + k) ++ [0, 0]
  if tr = 0 then (padTo 60 ([0x01, 0x1B, 0x19, 0, 0, 0] ++ d.macAddr n ++ [0x88, 0xF7] ++ msg), 14)
  else if tr = 1 then
    let h := [0x45, 0] ++ toBE 2 72 ++ [0, 0, 0, 0, 1, 17, 0, 0] ++ toBE 4 (Config.ptpSource4 n).toNat ++ [224, 0, 1, 129]
    (fixV4 ([0x01, 0, 0x5E, 0, 1, 129] ++ d.macAddr n ++ [0x08, 0] ++ h ++ udp 44 ++ msg) 14, 42)
  else
    let h := [0x60, 0, 0, 0] ++ toBE 2 52 ++ [17, 1] ++ toBE 16 (Config.ptpSource6 n).toNat ++ [0xFF, 0x0E] ++ List.replicate 12 0 ++ [1, 0x81]
    ([0x33, 0x33, 0, 0, 1, 0x81] ++ d.macAddr n ++ [0x86, 0xDD] ++ h ++ udp 44 ++ msg, 62)

/-- The Delay_Req that Clockwork has just asked for leaves on its port, over the transport of the Sync; none while the link is down (R45). -/
def Dev.sendDelayReq (d : Dev) (n tr : Nat) : Dev :=
  match d.clk.delayReq with
  | some (seq, none) => if !d.portUp n then d else (d.setMac n { d.mac n with delayOut := some (d.delayFrame n seq tr) }).pumpPause n
  | _ => d

/-- A PTP message reaches Clockwork, and the Delay_Req that follows a Sync leaves (R45). -/
def Dev.ptpTaken (d : Dev) (m : PtpMsg) : Dev :=
  let e := d.ptpMessage m
  if e.clk.delaySeq = d.clk.delaySeq then e else e.sendDelayReq m.mac.val m.transport.val

/-- The pause time that a MAC sends; 0 acts as 1. -/
def Dev.pauseQuanta (d : Dev) (n : Nat) : Nat := max 1 (d.get (R.MAC_PAUSE n) F.MAC_PAUSE_quanta)

/-- Use of the receive buffer has changed: above hi_wm a pause goes out, at lo_wm or below it ends (R349, R352). -/
def Dev.checkMarks (d : Dev) (n : Nat) : Dev :=
  match (d.mac n).pauseSent with
  | none =>
    if d.txPauseOn n && d.portUp n && d.hiWm n < d.rxUsed n then
      let d := d.setMac n { d.mac n with pauseSent := some d.xo }
      let d := (d.put (R.MAC_STATUS n) F.MAC_STATUS_pause_tx 1).raise 54 n 0
      d.sendPause n (d.pauseQuanta n)
    else d
  | some _ =>
    if d.rxUsed n ≤ d.loWm n then
      let d := d.setMac n { d.mac n with pauseSent := none }
      (d.put (R.MAC_STATUS n) F.MAC_STATUS_pause_tx 0).sendPause n 0
    else d

/-- refresh quanta have passed since the last pause and use is still above lo_wm (R349). -/
def Dev.pauseRefresh (d : Dev) (n : Nat) : Dev :=
  match (d.mac n).pauseSent with
  | none => d
  | some x =>
    if d.xo < x + d.quantaNs n (max 1 (d.get (R.MAC_PAUSE n) F.MAC_PAUSE_refresh)) || d.rxUsed n ≤ d.loWm n || !d.txPauseOn n then d
    else (d.setMac n { d.mac n with pauseSent := some d.xo }).sendPause n (d.pauseQuanta n)

/-- A received pause with its pause time in quanta (R351, R352). -/
def Dev.honourPause (d : Dev) (n time : Nat) : Dev :=
  if !d.rxPauseOn n then d
  else if time = 0 then ((d.setMac n { d.mac n with pauseUntil := none }).put (R.MAC_STATUS n) F.MAC_STATUS_pause_rx 0).preemptFor n
  else
    let was := d.paused n
    let d := d.setMac n { d.mac n with pauseUntil := some (d.xo + d.quantaNs n time) }
    let d := d.put (R.MAC_STATUS n) F.MAC_STATUS_pause_rx 1
    if was then d else d.raise 54 n 1

/-- The pause time runs out (R351). -/
def Dev.pauseExpire (d : Dev) (n : Nat) : Dev :=
  match (d.mac n).pauseUntil with
  | none => d
  | some u =>
    if d.xo < u then d
    else ((d.setMac n { d.mac n with pauseUntil := none }).put (R.MAC_STATUS n) F.MAC_STATUS_pause_rx 0).preemptFor n

/-! ## Receiving (R346, R347, R351, R356, R357, R359) -/

/-- A MAC control frame (R351). -/
def Dev.controlFrame (d : Dev) (n : Nat) (bs : Bytes) : Dev :=
  let dst := bs.take 6
  if beAt bs 14 2 = 1 && (dst == [0x01, 0x80, 0xC2, 0x00, 0x00, 0x01] || dst == d.macAddr n) then
    (d.macCount n 5 1).honourPause n (beAt bs 16 2)
  else d.macCount n 6 1

/-- A frame that is passed on: counted, checked, timestamped and buffered (R346, R347, R357, R359). -/
def Dev.bufferFrame (d : Dev) (n : Nat) (bs : Bytes) (ago : Nat) : Dev :=
  let len := bs.length + 4
  if rxBufSize n < d.rxUsed n + len then d.macCount n 11 1
  else
    let p := parseMac bs
    let d := d.countFrame n 0 bs len
    let d := if p.ipBad bs then d.macCount n 12 1 else d
    let d := if p.l4Bad bs then d.macCount n 13 1 else d
    let d := if (p.ptpAt bs).isSome then d.macCount n 44 1 else d
    let lag := ago + d.get (R.MAC_PTP_LAT n) F.MAC_PTP_LAT_rx_lat
    let f : RxFrame := ⟨bs, n, d.nt - lag, d.xo - lag⟩
    (d.setMac n { d.mac n with rx := (d.mac n).rx ++ [f] }).checkMarks n

/-- A whole frame arrives (R346): the first of its faults in the order of R346 is counted. -/
def Dev.frameIn (d : Dev) (n : Nat) (bs : Bytes) (good codeErr : Bool) (ago : Nat) : Dev :=
  let len := bs.length + 4
  if !good then d.macCount n 7 1
  else if len < 64 then d.macCount n 8 1
  else if d.macMax n < len then d.macCount n 9 1
  else if codeErr then d.macCount n 10 1
  else if beAt bs 12 2 = 0x8808 then d.controlFrame n bs
  else d.bufferFrame n bs ago

/-- The frame in reassembly is dropped (R356). -/
def Dev.dropPartial (d : Dev) (n : Nat) : Dev :=
  if (d.mac n).partial_.isSome then (d.setMac n { d.mac n with partial_ := none }).macCount n 15 1 else d

/-- A respond mPacket makes preemption active while verification runs (R353). -/
def Dev.verified (d : Dev) (n : Nat) : Dev :=
  if (d.mac n).verifies = 0 then d
  else (d.setMac n { d.mac n with verifies := 0 }).put (R.MAC_STATUS n) F.MAC_STATUS_pe_active 1

/-- A frame or mPacket arrives at MAC n. -/
def Dev.macReceive (d : Dev) (n : Nat) (w : WireRx) : Dev :=
  if !d.portUp n then d
  else
    let d := (d.macCount n 25 w.fecFixed).macCount n 26 w.fecBad
    match w.kind with
    | .whole => d.frameIn n w.data w.good w.codeErr w.ago
    | .first c last =>
      let d := d.dropPartial n
      if last then d.frameIn n w.data w.good w.codeErr w.ago
      else if !w.good || w.codeErr then d.macCount n 15 1
      else d.setMac n { d.mac n with partial_ := some (w.data, c.val, 1) }
    | .later c k last =>
      match (d.mac n).partial_ with
      | none => d.macCount n 15 1
      | some (bs, c', frags) =>
        if c.val != c' || k.val != (frags - 1) % 4 || w.codeErr || (!w.good && !last) then d.dropPartial n
        else if last then
          ((d.setMac n { d.mac n with partial_ := none }).macCount n 14 (frags + 1)).frameIn n (bs ++ w.data) w.good false w.ago
        else d.setMac n { d.mac n with partial_ := some (bs ++ w.data, c', frags + 1) }
    | .verify => d
    | .respond => d.verified n

/-! ## Link and verification (R345, R353) -/

/-- A verify mPacket leaves (R353). -/
def Dev.sendVerify (d : Dev) (n : Nat) : Dev :=
  (d.setMac n { d.mac n with verifies := (d.mac n).verifies + 1, verifyAt := d.xo }).macCount n 42 1

/-- Preemption at link up, or at a write to MAC_PE_CTRL (R353): where it is active and stays enabled it stays active. -/
def Dev.startVerify (d : Dev) (n : Nat) : Dev :=
  let d := d.setMac n { d.mac n with verifies := 0 }
  let d := d.put (R.MAC_STATUS n) F.MAC_STATUS_pe_verify_failed 0
  if !d.portUp n || !d.flag (R.MAC_PE_CTRL n) F.MAC_PE_CTRL_pe_en then d.put (R.MAC_STATUS n) F.MAC_STATUS_pe_active 0
  else if d.peActive n then d
  else if d.flag (R.MAC_PE_CTRL n) F.MAC_PE_CTRL_verify_dis then d.put (R.MAC_STATUS n) F.MAC_STATUS_pe_active 1
  else d.sendVerify n

/-- verify_time has passed since the last verify mPacket (R353). -/
def Dev.verifyTimer (d : Dev) (n : Nat) : Dev :=
  let x := d.mac n
  let t := min 128 (max 1 (d.get (R.MAC_PE_CTRL n) F.MAC_PE_CTRL_verify_time)) * 1000000
  if x.verifies = 0 || d.xo < x.verifyAt + t || !d.portUp n then d
  else if x.verifies < 3 then d.sendVerify n
  else (d.setMac n { x with verifies := 0 }).put (R.MAC_STATUS n) F.MAC_STATUS_pe_verify_failed 1

/-- FEC is selected: RS-FEC or BASE-R FEC on MAC0 and MAC1 (R343). -/
def Dev.fecOn (d : Dev) (n : Nat) : Bool :=
  let f := d.get (R.MAC_CTRL n) F.MAC_CTRL_fec
  decide (n < 2) && (f == 2 || (f == 1 && !d.macSlow n))

/-- PCS or FEC lock changes (R345). -/
def Dev.lockChange (d : Dev) (n : Nat) (pcs fec : Bool) : Dev :=
  let fec := fec || !d.fecOn n
  let d := (d.put (R.MAC_STATUS n) F.MAC_STATUS_pcs_lock (bitOf pcs)).put (R.MAC_STATUS n) F.MAC_STATUS_fec_lock (bitOf fec)
  if (d.mac n).lock == (pcs && fec) then d else d.setMac n { d.mac n with lock := pcs && fec, lockAt := d.xo }

/-- The link goes up once lock has held for up_hold, and auto-negotiation has completed where it runs (R345). an gives its outcome: whether pause may
be sent and honoured. -/
def Dev.linkUp (d : Dev) (n : Nat) (an : Option (Bool × Bool)) : Dev :=
  let hold := max 1 (d.get (R.MAC_LINK n) F.MAC_LINK_up_hold) * 1000000
  if !d.serOn n || !d.macOn n || d.macLink n || !(d.mac n).lock || d.xo < (d.mac n).lockAt + hold || (d.macAn n && an.isNone) then d
  else
    let d := d.setMac n { d.mac n with anTx := (an.getD (false, false)).1, anRx := (an.getD (false, false)).2 }
    let d := (d.put (R.MAC_STATUS n) F.MAC_STATUS_link 1).raise 53 n 1
    (d.startVerify n).checkMarks n

/-- The link goes down. -/
def Dev.dropLink (d : Dev) (n : Nat) : Dev :=
  let d := (d.put (R.MAC_STATUS n) F.MAC_STATUS_link 0).raise 53 n 0
  let d := (d.put (R.MAC_STATUS n) F.MAC_STATUS_pe_active 0).loseWire n
  d.setMac n { d.mac n with verifies := 0, partial_ := none }

/-- The link goes down once lock has been lost for down_hold (R345). -/
def Dev.linkDown (d : Dev) (n : Nat) : Dev :=
  let hold := max 1 (d.get (R.MAC_LINK n) F.MAC_LINK_down_hold) * 1000
  if !d.macLink n || (d.mac n).lock || d.xo < (d.mac n).lockAt + hold then d else d.dropLink n

/-! ## Counters and latched reads (R360, R362, R364) -/

/-- MAC_CNT_CLR.clear is set (R364). -/
def Dev.clearCounters (d : Dev) (n : Nat) : Dev :=
  ((d.setMac n { d.mac n with cnt := [] }).setWord (R.MAC_CNT_HALF_LO n) 0).setWord (R.MAC_CNT_HALF_HI n) 0

def Dev.macCnt (d : Dev) (n c : Nat) : Nat := smGet (fun _ => 0) (d.mac n).cnt c

/-- A read of MAC_CNT_c_HI latches the low word (R362). -/
def Dev.readCntHi (d : Dev) (n c : Nat) : Dev :=
  let v := d.macCnt n c
  (d.setMac n { d.mac n with cntLatch := smInsert c (v % 2 ^ 32) (d.mac n).cntLatch }).answer (BitVec.ofNat 32 (v / 2 ^ 32))

/-- A read of MAC_CNT_c_LO returns the latched low word and releases it (R362). -/
def Dev.readCntLo (d : Dev) (n c : Nat) : Dev :=
  let v := (smFind (d.mac n).cntLatch c).getD (d.macCnt n c % 2 ^ 32)
  (d.setMac n { d.mac n with cntLatch := smErase (d.mac n).cntLatch c }).answer (BitVec.ofNat 32 v)

/-- The egress timestamp that reads of MAC_PTP_TX_* see. -/
def Dev.ptpSeen (d : Dev) (n : Nat) : Nat × Nat × Nat := ((d.mac n).ptpLatch.or (d.mac n).ptpTx).getD (0, 0, 0)

/-- A read of MAC_PTP_TX_SEC_HI latches the other three registers (R360). -/
def Dev.readPtpHi (d : Dev) (n : Nat) : Dev :=
  let x := (d.mac n).ptpTx.getD (0, 0, 0)
  (d.setMac n { d.mac n with ptpLatch := some x }).answer (BitVec.ofNat 32 (x.1 / 1000000000 / 2 ^ 32 % 65536))

/-- The other words of the egress timestamp. -/
def Dev.ptpLo (d : Dev) (n : Nat) : Word := BitVec.ofNat 32 ((d.ptpSeen n).1 / 1000000000)
def Dev.ptpNs (d : Dev) (n : Nat) : Word := BitVec.ofNat 32 ((d.ptpSeen n).1 % 1000000000)
def Dev.ptpId (d : Dev) (n : Nat) : Word :=
  BitVec.ofNat 32 (d.get (R.MAC_PTP_TX_ID n) F.MAC_PTP_TX_ID_valid * 2 ^ 31 + (d.ptpSeen n).2.1 * 65536 + (d.ptpSeen n).2.2)

/-- A read of MAC_PTP_TX_ID returns the identity and releases the latch (R360). -/
def Dev.readPtpId (d : Dev) (n : Nat) : Dev :=
  let w := d.ptpId n
  (d.setMac n { d.mac n with ptpLatch := none }).answer w

end Sys2Proof.Machine
end

