-- ==== Sys2Proof/Machine/Crypto.lean ====
section
/-! DEFINITION. The algorithms that R366, R373, R416 and R431 name by their standards: AES (FIPS 197), the modes of SP 800-38A to 38D, AES key wrap
(RFC 3394), SHA-256 (FIPS 180-4) and ECDSA P-256 verification (FIPS 186-4). A block is a list of 16 byte values. -/

namespace Sys2Proof.Machine

open Sys2Proof

/-! ## AES -/

/-- Multiplication by x in GF(2^8) of AES. -/
def gfDouble (a : Nat) : Nat := if 128 ≤ a then (2 * a - 256) ^^^ 0x1B else 2 * a

/-- Multiplication in GF(2^8); the fuel counts the bits of b. -/
def gfMulAux : Nat → Nat → Nat → Nat
  | 0, _, _ => 0
  | n + 1, a, b => (if b % 2 = 1 then a else 0) ^^^ gfMulAux n (gfDouble a) (b / 2)

def gfMul (a b : Nat) : Nat := gfMulAux 8 a b

/-- a^254, the inverse in GF(2^8) and 0 for 0. -/
def gfInv (a : Nat) : Nat :=
  let a2 := gfMul a a
  let a4 := gfMul a2 a2
  let a8 := gfMul a4 a4
  let a16 := gfMul a8 a8
  let a32 := gfMul a16 a16
  let a64 := gfMul a32 a32
  let a128 := gfMul a64 a64
  gfMul (gfMul (gfMul a2 a4) (gfMul a8 a16)) (gfMul (gfMul a32 a64) a128)

/-- A byte rotated left. -/
def rotByte (k a : Nat) : Nat := (a * 2 ^ k) % 256 + a / 2 ^ (8 - k)

/-- The AES substitution of a byte. -/
def aesSub (a : Nat) : Nat :=
  let b := gfInv a
  b ^^^ rotByte 1 b ^^^ rotByte 2 b ^^^ rotByte 3 b ^^^ rotByte 4 b ^^^ 0x63

/-- The substitution as a table, and its inverse. -/
def aesSbox : List Nat := (List.range 256).map aesSub
def aesInvSbox : List Nat := (List.range 256).map (fun v => aesSbox.idxOf v)

def subByte (a : Nat) : Nat := aesSbox.getD a 0
def invSubByte (a : Nat) : Nat := aesInvSbox.getD a 0

/-- Two lists of byte values combined by exclusive or, as long as the shorter. -/
def xorL (a b : List Nat) : List Nat := a.zipWith (· ^^^ ·) b

/-- Round constants. -/
def aesRcon : Nat → Nat
  | 0 => 1
  | n + 1 => gfDouble (aesRcon n)

/-- The key schedule's next word: i counts words, nk the words of the key; earlier words newest first. -/
def aesNextWord (nk i : Nat) (ws : List (List Nat)) : List Nat :=
  let prev := ws.headD []
  let t := if i % nk = 0 then
      xorL ((prev.drop 1 ++ prev.take 1).map subByte) [aesRcon (i / nk - 1), 0, 0, 0]
    else if nk = 8 ∧ i % 8 = 4 then prev.map subByte else prev
  xorL (ws.getD (nk - 1) []) t

/-- The words of the key schedule, newest first; the fuel counts the words still to make. -/
def aesExpand (nk : Nat) : Nat → Nat → List (List Nat) → List (List Nat)
  | 0, _, ws => ws
  | n + 1, i, ws => aesExpand nk n (i + 1) (aesNextWord nk i ws :: ws)

/-- The round keys of a 16- or 32-byte key, first round first. -/
def aesRoundKeys (key : List Nat) : List (List Nat) :=
  let nk := key.length / 4
  let ws := aesExpand nk (4 * (nk + 7) - nk) nk (chunksOf 4 key).reverse
  (chunksOf 4 ws.reverse).map (·.flatten)

/-- ShiftRows and its inverse on 16 bytes, column by column. -/
def shiftRows (s : List Nat) : List Nat := (List.range 16).map (fun i => s.getD ((i + 4 * (i % 4)) % 16) 0)
def invShiftRows (s : List Nat) : List Nat := (List.range 16).map (fun i => s.getD ((i + 16 - 4 * (i % 4)) % 16) 0)

/-- A column multiplied by a circulant matrix row. -/
def mixColumn (m c : List Nat) : List Nat :=
  (List.range 4).map (fun r => (List.range 4).foldl (fun a j => a ^^^ gfMul (m.getD ((j + 4 - r) % 4) 0) (c.getD j 0)) 0)

def mixColumns (m s : List Nat) : List Nat := ((chunksOf 4 s).map (mixColumn m)).flatten

/-- AES encryption of a block under round keys. -/
def aesEncK (ks : List (List Nat)) (block : List Nat) : List Nat :=
  let s := xorL block (ks.headD [])
  let mid := (ks.drop 1).dropLast
  let s := mid.foldl (fun s k => xorL (mixColumns [2, 3, 1, 1] (shiftRows (s.map subByte))) k) s
  xorL (shiftRows (s.map subByte)) (ks.getLastD [])

/-- AES decryption of a block under round keys. -/
def aesDecK (ks : List (List Nat)) (block : List Nat) : List Nat :=
  let s := xorL block (ks.getLastD [])
  let mid := ((ks.drop 1).dropLast).reverse
  let s := mid.foldl (fun s k => mixColumns [14, 11, 13, 9] (xorL ((invShiftRows s).map invSubByte) k)) s
  xorL ((invShiftRows s).map invSubByte) (ks.headD [])

/-- Bytes as values and back. -/
def toNats (bs : Bytes) : List Nat := bs.map (·.toNat)
def toBytes (xs : List Nat) : Bytes := xs.map (BitVec.ofNat 8)

/-- Zero padding of a list of byte values to a multiple of 16. -/
def pad16 (xs : List Nat) : List Nat := xs ++ List.replicate ((16 - xs.length % 16) % 16) 0

/-- A number as n byte values, most significant first. -/
def beNats (n v : Nat) : List Nat := toNats (toBE n v)

/-! ## Modes (R373) -/

/-- The counter blocks that follow an initial block: the last w bytes count modulo 2^(8w). -/
def ctrBlock (w : Nat) (iv : List Nat) (i : Nat) : List Nat :=
  iv.take (16 - w) ++ beNats w ((ofBE (toBytes (iv.drop (16 - w))) + i) % 2 ^ (8 * w))

/-- Counter-mode processing of a byte string from a counter block; w bytes of it count. -/
def aesCtr (ks : List (List Nat)) (w : Nat) (iv : List Nat) (xs : List Nat) : List Nat :=
  (((chunksOf 16 xs).zipIdx).map (fun p => xorL p.1 (aesEncK ks (ctrBlock w iv p.2)))).flatten

/-- CBC encryption of whole blocks. -/
def cbcEnc (ks : List (List Nat)) : List Nat → List (List Nat) → List (List Nat)
  | _, [] => []
  | prev, b :: rest =>
    let c := aesEncK ks (xorL b prev)
    c :: cbcEnc ks c rest

/-- CBC decryption of whole blocks. -/
def cbcDec (ks : List (List Nat)) : List Nat → List (List Nat) → List (List Nat)
  | _, [] => []
  | prev, b :: rest => xorL (aesDecK ks b) prev :: cbcDec ks b rest

/-- CBC-MAC of whole blocks from a zero block. -/
def cbcMac (ks : List (List Nat)) (bs : List (List Nat)) : List Nat :=
  bs.foldl (fun acc b => aesEncK ks (xorL acc b)) (List.replicate 16 0)

/-- PKCS#7 padding. -/
def pkcsPad (xs : List Nat) : List Nat :=
  let n := 16 - xs.length % 16
  xs ++ List.replicate n n

/-- The text without its PKCS#7 padding, where the padding is good. -/
def pkcsStrip (xs : List Nat) : Option (List Nat) :=
  let n := xs.getLastD 0
  if 1 ≤ n && n ≤ 16 && n ≤ xs.length && (xs.drop (xs.length - n)).all (· == n) then some (xs.take (xs.length - n)) else none

/-- The CCM tag before encryption, and the encryption of the tag and the text (SP 800-38C). -/
def ccmMac (ks : List (List Nat)) (nonce aad text : List Nat) (t : Nat) : List Nat :=
  let q := 15 - nonce.length
  let b0 := ((if aad.isEmpty then 0 else 64) + (t - 2) / 2 * 8 + (q - 1)) :: (nonce ++ beNats q text.length)
  let a := if aad.isEmpty then [] else pad16 (beNats 2 aad.length ++ aad)
  cbcMac ks (chunksOf 16 (b0 ++ a ++ pad16 text))

def ccmCounter (nonce : List Nat) : List Nat := (14 - nonce.length) :: (nonce ++ List.replicate (15 - nonce.length) 0)

/-- CCM: the processed text, and the t tag bytes over the plaintext. -/
def ccmRun (ks : List (List Nat)) (nonce aad xs : List Nat) (t : Nat) (dec : Bool) : List Nat × List Nat :=
  let c0 := ccmCounter nonce
  let w := 15 - nonce.length
  let ys := aesCtr ks w (ctrBlock w c0 1) xs
  let plain := if dec then ys else xs
  (ys, (xorL (ccmMac ks nonce aad plain t) (aesEncK ks c0)).take t)

/-- Multiplication in GF(2^128) as GCM numbers its bits. -/
def gcmMulAux : Nat → Nat → Nat → Nat → Nat
  | 0, _, _, z => z
  | n + 1, x, v, z =>
    let z := if x.testBit n then z ^^^ v else z
    gcmMulAux n x (if v % 2 = 1 then (v / 2) ^^^ (0xE1 * 2 ^ 120) else v / 2) z

def ghash (h : Nat) (bs : List (List Nat)) : Nat := bs.foldl (fun y b => gcmMulAux 128 (y ^^^ ofBE (toBytes b)) h 0) 0

/-- GCM with a 12-byte nonce: the processed text, and the t tag bytes over the ciphertext (SP 800-38D). -/
def gcmRun (ks : List (List Nat)) (nonce aad xs : List Nat) (t : Nat) (dec : Bool) : List Nat × List Nat :=
  let h := ofBE (toBytes (aesEncK ks (List.replicate 16 0)))
  let j0 := nonce.take 12 ++ [0, 0, 0, 1]
  let ys := aesCtr ks 4 (ctrBlock 4 j0 1) xs
  let ct := if dec then xs else ys
  let s := ghash h (chunksOf 16 (pad16 aad ++ pad16 ct ++ beNats 8 (8 * aad.length) ++ beNats 8 (8 * ct.length)))
  (ys, (xorL (beNats 16 s) (aesEncK ks j0)).take t)

/-- Doubling of a CMAC subkey (SP 800-38B). -/
def cmacDouble (l : Nat) : Nat := if l.testBit 127 then ((2 * l) % 2 ^ 128) ^^^ 0x87 else 2 * l

/-- The 16 bytes of the CMAC of a message. -/
def cmacRun (ks : List (List Nat)) (msg : List Nat) : List Nat :=
  let k1 := cmacDouble (ofBE (toBytes (aesEncK ks (List.replicate 16 0))))
  let full := msg.length % 16 = 0 && !msg.isEmpty
  let n := if full then msg.length - 16 else msg.length / 16 * 16
  let last := if full then xorL (msg.drop n) (beNats 16 k1)
    else xorL ((msg.drop n ++ [0x80] ++ List.replicate 16 0).take 16) (beNats 16 (cmacDouble k1))
  cbcMac ks (chunksOf 16 (msg.take n) ++ [last])

/-! ## AES key wrap (R366) -/

/-- One step of the unwrap: t counts down. -/
def unwrapStep (ks : List (List Nat)) (n : Nat) (st : List Nat × List (List Nat)) (t : Nat) : List Nat × List (List Nat) :=
  let i := (t - 1) % n
  let b := aesDecK ks (xorL st.1 (beNats 8 t) ++ st.2.getD i [])
  (b.take 8, st.2.set i (b.drop 8))

/-- The key that a wrapped key holds, where its integrity check passes (RFC 3394). -/
def keyUnwrap (kek : Bytes) (wrapped : Bytes) : Option Bytes :=
  let parts := chunksOf 8 (toNats wrapped)
  let n := parts.length - 1
  let ks := aesRoundKeys (toNats kek)
  let r := (((List.range (6 * n)).map (· + 1)).reverse).foldl (unwrapStep ks n) (parts.headD [], parts.drop 1)
  if r.1 = List.replicate 8 0xA6 then some (toBytes r.2.flatten) else none

/-! ## A job of the cipher engine -/

/-- The kind of a job: mode code, direction, tag bytes, nonce bytes (R373). -/
structure CipSpec where
  mode : Nat
  dec : Bool
  tag : Nat
  nonce : Nat
deriving DecidableEq, Repr, Inhabited

/-- The limits of R373 hold. -/
def CipSpec.ok (x : CipSpec) (len aadLen : Nat) : Bool :=
  decide (len ≤ 65535) && decide (aadLen ≤ 1024) &&
  match x.mode with
  | 1 => aadLen == 0
  | 2 => aadLen == 0 && (!x.dec || (len != 0 && len % 16 == 0))
  | 3 => decide (7 ≤ x.nonce) && decide (x.nonce ≤ 13) && decide (4 ≤ x.tag) && decide (x.tag ≤ 16) && x.tag % 2 == 0
  | 4 => x.tag == 4 || x.tag == 8 || (decide (12 ≤ x.tag) && decide (x.tag ≤ 16))
  | 5 => aadLen == 0 && decide (1 ≤ x.tag) && decide (x.tag ≤ 16)
  | _ => false

/-- The output length of a job; a CBC decryption's is known once its padding is (R373). -/
def CipSpec.outLen (x : CipSpec) (len : Nat) : Nat :=
  if x.mode = 5 then 0 else if x.mode = 2 && !x.dec then 16 * (len / 16) + 16 else len

/-- The result of a job on its data: the data output, the tag, and whether CBC padding was good. -/
def CipSpec.run (x : CipSpec) (key iv aad text : Bytes) : Bytes × Bytes × Bool :=
  let ks := aesRoundKeys (toNats key)
  let ivn := toNats (padTo 16 iv)
  let tn := toNats text
  match x.mode with
  | 1 => (toBytes (aesCtr ks 16 ivn tn), [], true)
  | 2 =>
    if x.dec then
      match pkcsStrip (cbcDec ks ivn (chunksOf 16 tn)).flatten with
      | some p => (toBytes p, [], true)
      | none => (List.replicate text.length 0, [], false)
    else (toBytes (cbcEnc ks ivn (chunksOf 16 (pkcsPad tn))).flatten, [], true)
  | 3 =>
    let r := ccmRun ks (ivn.take x.nonce) (toNats aad) tn x.tag x.dec
    (toBytes r.1, toBytes r.2, true)
  | 4 =>
    let r := gcmRun ks (ivn.take 12) (toNats aad) tn x.tag x.dec
    (toBytes r.1, toBytes r.2, true)
  | _ => ([], toBytes ((cmacRun ks tn).take x.tag), true)

/-! ## SHA-256 and ECDSA P-256 (R416) -/

/-- The primes below 312, of which there are 64. -/
def shaPrimes : List Nat := ((List.range 312).drop 2).filter (fun p => ((List.range 18).drop 2).all (fun q => p == q || p % q != 0))

/-- The integer cube root of n, bit by bit from bit b - 1 down: r is what the bits above give. -/
def cubeRoot (n : Nat) : Nat → Nat → Nat
  | 0, r => r
  | b + 1, r => cubeRoot n b (if (r + 2 ^ b) ^ 3 ≤ n then r + 2 ^ b else r)

/-- A round's constant: the first 32 bits of the fraction of a prime's cube root (FIPS 180-4). -/
def shaConst (p : Nat) : Nat := cubeRoot (p * 2 ^ 96) 36 0 % 2 ^ 32

/-- A word of the initial hash value: the first 32 bits of the fraction of a prime's square root. -/
def shaSeed (p : Nat) : Nat := Nat.sqrt (p * 2 ^ 64) % 2 ^ 32

/-- Rotations of a 32-bit word to the right, and one shift, added bit by bit. -/
def rotAll (rots : List Nat) (shift x : Nat) : Nat :=
  rots.foldl (fun y k => y ^^^ (x * (2 ^ 32 + 1) / 2 ^ k) % 2 ^ 32) (if shift = 0 then 0 else x / 2 ^ shift)

/-- The words of a block's schedule, newest first, grown by n. -/
def shaGrow (ws : List Nat) : Nat → List Nat
  | 0 => ws
  | n + 1 =>
    let xs := shaGrow ws n
    (xs.getD 15 0 + rotAll [7, 18] 3 (xs.getD 14 0) + xs.getD 6 0 + rotAll [17, 19] 10 (xs.getD 1 0)) % 2 ^ 32 :: xs

/-- The working variables: a and its last three values, and e and its last three, newest first. -/
structure ShaVars where
  a : List Nat
  e : List Nat

/-- A round, with the sum of its constant and its word of the schedule. -/
def ShaVars.round (v : ShaVars) (k : Nat) : ShaVars :=
  match v.a, v.e with
  | [a0, a1, a2, a3], [e0, e1, e2, e3] =>
    let t := k + e3 + rotAll [6, 11, 25] 0 e0 + (e2 ^^^ (e0 &&& (e1 ^^^ e2)))
    ⟨[(t + rotAll [2, 13, 22] 0 a0 + (a0 &&& (a1 ||| a2) ||| a1 &&& a2)) % 2 ^ 32, a0, a1, a2], [(a3 + t) % 2 ^ 32, e0, e1, e2]⟩
  | _, _ => v

/-- The hash value after a block of 64 bytes. -/
def shaBlock (consts h : List Nat) (block : List Nat) : List Nat :=
  let first := (chunksOf 4 block).map (fun w => w.foldl (fun x y => 256 * x + y) 0)
  let ks := (shaGrow first.reverse 48).reverse.zipWith (· + ·) consts
  let v := ks.foldl ShaVars.round ⟨h.take 4, h.drop 4⟩
  (v.a ++ v.e).zipWith (fun x y => (x + y) % 2 ^ 32) h

/-- SHA-256 of a byte string. -/
def sha256 (bs : Bytes) : Bytes :=
  let n := bs.length
  let padded := toNats bs ++ 128 :: List.replicate ((119 - n % 64) % 64) 0 ++ beNats 8 (8 * n)
  ((chunksOf 64 padded).foldl (shaBlock (shaPrimes.map shaConst)) ((shaPrimes.take 8).map shaSeed)).flatMap (toBE 4)

def p256P : Nat := 0xffffffff00000001000000000000000000000000ffffffffffffffffffffffff
def p256N : Nat := 0xffffffff00000000ffffffffffffffffbce6faada7179e84f3b9cac2fc632551
def p256B : Nat := 0x5ac635d8aa3a93e7b3ebbd55769886bc651d06b0cc53b0f63bce3c3e27d2604b
def p256G : Nat × Nat := (0x6b17d1f2e12c4247f8bce6e563a440f277037d812deb33a0f4a13945d898c296,
  0x4fe342e2fe1a7f9b8ee7eb4a7c0f9e162bce33576b315ececbb6406837bf51f5)

/-- b^e modulo m; the fuel counts the bits of e. -/
def powMod (m : Nat) : Nat → Nat → Nat → Nat
  | 0, _, _ => 1 % m
  | n + 1, b, e => (if e % 2 = 1 then b else 1) * powMod m n (b * b % m) (e / 2) % m

/-- The inverse modulo a prime. -/
def invMod (m a : Nat) : Nat := powMod m 256 (a % m) (m - 2)

/-- Addition of points of P-256; none is the point at infinity. -/
def p256Add : Option (Nat × Nat) → Option (Nat × Nat) → Option (Nat × Nat)
  | none, q => q
  | p, none => p
  | some (x1, y1), some (x2, y2) =>
    if x1 = x2 && (y1 + y2) % p256P = 0 then none
    else
      let s := if x1 = x2 then (3 * x1 * x1 + p256P - 3) * invMod p256P (2 * y1) % p256P
        else (y2 + p256P - y1) * invMod p256P (x2 + p256P - x1) % p256P
      let x := (s * s + 2 * p256P - x1 - x2) % p256P
      some (x, (s * (x1 + p256P - x) + p256P - y1) % p256P)

/-- A multiple of a point; the fuel counts the bits of k. -/
def p256Mul : Nat → Nat → Option (Nat × Nat) → Option (Nat × Nat)
  | 0, _, _ => none
  | n + 1, k, p => p256Add (if k % 2 = 1 then p else none) (p256Mul n (k / 2) (p256Add p p))

/-- ECDSA P-256 verification of a SHA-256 digest: key x and y and signature r and s, each 32 bytes big-endian. -/
def ecdsaOk (key sig digest : Bytes) : Bool :=
  let x := beAt key 0 32
  let y := beAt key 32 32
  let r := beAt sig 0 32
  let s := beAt sig 32 32
  let onCurve := decide (x < p256P) && decide (y < p256P) &&
    (y * y) % p256P == (x * x % p256P * x + p256B + (p256P - 3) * x) % p256P
  if !onCurve || r == 0 || s == 0 || decide (p256N ≤ r) || decide (p256N ≤ s) then false
  else
    let w := invMod p256N s
    let u1 := ofBE digest * w % p256N
    let u2 := r * w % p256N
    match p256Add (p256Mul 256 u1 (some p256G)) (p256Mul 256 u2 (some (x, y))) with
    | none => false
    | some (vx, _) => vx % p256N == r

end Sys2Proof.Machine
end

