-- ==== Sys2Proof/Machine/Kal.lean ====
section
/-! DEFINITION. The Kaleidoscopes: diversity sums, sample ring, captures, detectors, occupancy maps, overload and the spectral-mask checker
(05_kaleidoscope.md, R138 to R161). -/

namespace Sys2Proof.Machine

open Sys2Proof

/-! ## Diversity (R143) -/

/-- The smoothing exponent, above 7 acts as 7. -/
def Dev.divAvg (d : Dev) (r : Nat) : Nat := min 7 (d.get (R.KAL_CTRL r) F.KAL_CTRL_div_avg)

/-- Sums of a block of 30 samples of both ports: |x0|^2, |x1|^2, and x0 * conj(x1) (R143). -/
def divSums (x0 x1 : List IQ) : Int × Int × Int × Int :=
  let sq (xs : List IQ) : Int := xs.foldl (fun a x => a + x.1 * x.1 + x.2 * x.2) 0
  let c := (x0.zip x1).foldl (fun (a : Int × Int) p =>
    (a.1 + p.1.1 * p.2.1 + p.1.2 * p.2.2, a.2 + p.1.2 * p.2.1 - p.1.1 * p.2.2)) (0, 0)
  (sq x0, sq x1, c.1, c.2)

/-- The combiner's update at the end of a 1 ms block (R143). -/
def Divers.step (x : Divers) (avg : Nat) (s : Int × Int × Int × Int) : Divers :=
  let mix (old : Rat) (new : Int) : Rat := old + ((new : Rat) - old) / (2 ^ avg : Nat)
  let p0 := mix x.p0 s.1
  let p1 := mix x.p1 s.2.1
  let ref1 := if !x.ref1 && 4 * p0 < p1 then true else x.ref1
  let ref1 := if ref1 && 4 * p1 < p0 then false else ref1
  ⟨p0, p1, mix x.cRe s.2.2.1, mix x.cIm s.2.2.2, ref1⟩

/-- The combiner runs: div_mode 0, and 3, which acts as 0 (R143). -/
def Dev.combining (d : Dev) (r : Nat) : Bool :=
  let mode := d.get (R.KAL_CTRL r) F.KAL_CTRL_div_mode
  mode == 0 || mode == 3

/-- The end of a 1 ms block on a sub-channel, with its samples of both ports; only while both ports combine (R143). -/
def Dev.divBlock (d : Dev) (r k : Nat) (x0 x1 : List IQ) : Dev :=
  if d.radioUp r && k < 1536 && d.combining r then
    let y := d.kal r
    let cur := smGet (fun _ => Divers.reset) y.divs k
    d.setKal r { y with divs := smSet (fun _ => Divers.reset) y.divs k (cur.step (d.divAvg r) (divSums x0 x1)) }
  else d

/-- Which ports contribute to reception (R143, R145). -/
def Dev.portsIn (d : Dev) (r : Nat) : Nat :=
  let mode := d.get (R.KAL_CTRL r) F.KAL_CTRL_div_mode
  let f0 := (d.radio r).rxOut.testBit 0
  let f1 := (d.radio r).rxOut.testBit 1
  if f0 && f1 then 0 else if f0 then 2 else if f1 then 1
  else if mode = 1 then 1 else if mode = 2 then 2 else 3

/-- One combined sample of a sub-channel (R143). With no port in reception there is none (DESIGN CHOICE, log entry 230). -/
def Dev.combined (d : Dev) (r k : Nat) (x0 x1 : IQ) : IQ :=
  match d.portsIn r with
  | 0 => notRx
  | 1 => x0
  | 2 => x1
  | _ => (smGet (fun _ => Divers.reset) (d.kal r).divs k).out x0 x1

/-! ## The analysis bank (R138 to R143) -/

/-- The coefficients of the bank in use, in units of 2^-17 (R139, R140). -/
def Dev.coef (d : Dev) (r i : Nat) : Int := sext 18 (d.word (R.KAL_COEF r (d.get (R.KAL_CTRL r) F.KAL_CTRL_coef_active) i)).toNat

/-- What the bank makes of the next input of both ports: d of the notches, the history after it, and the sub-channels' samples of each port. -/
structure BankRun where
  dc0 : CQ
  dc1 : CQ
  hist0 : List CQ
  hist1 : List CQ
  port0 : List (List IQ)
  port1 : List (List IQ)

/-- The notches and the analysis bank over the next input samples of both ports, for n samples of every sub-channel (R138, R139, R141, R142). -/
def Dev.runBank (d : Dev) (r n : Nat) (x0 x1 : List IQ) : BankRun :=
  let y := d.kal r
  let s := notchShift (d.get (R.KAL_CTRL r) F.KAL_CTRL_dc_shift)
  let (z0, dc0) := notch s y.dc0 x0
  let (z1, dc1) := notch s y.dc1 x1
  let w0 := bankHistory y.hist0 ++ z0
  let w1 := bankHistory y.hist1 ++ z1
  let port (w : List CQ) : List (List IQ) :=
    let z := bankInputs w
    (List.range 1536).map (fun k => (List.range n).map (fun m =>
      bankSample (d.get (R.KAL_CTRL r) F.KAL_CTRL_out_shift) (bankOut (d.coef r) z k m)))
  ⟨dc0, dc1, bankHistory w0, bankHistory w1, port w0, port w1⟩

/-- NT of sample i of a millisecond of the streams (R141). -/
def streamAt (ms i : Nat) : Nat := ms * 1000000 + i * 1000000 / 30

/-- The combined streams of a millisecond: each sample of which the radio received, any other marked (R141, R143). -/
def Dev.streamBlock (d : Dev) (r ms : Nat) (b : BankRun) : StreamBlock :=
  ⟨ms, (b.port0.zip b.port1).zipIdx.map (fun p => (p.1.1.zip p.1.2).zipIdx.map (fun q =>
    if d.receivedAt r (streamAt ms q.2) then d.combined r p.2 q.1.1 q.1.2 else notRx))⟩

/-- A port's samples of a sub-channel as the combiner sums them: one that was not received adds nothing (DESIGN CHOICE, log entry 230). -/
def Dev.summed (d : Dev) (r ms : Nat) (xs : List IQ) : List IQ :=
  xs.zipIdx.map (fun p => if d.receivedAt r (streamAt ms p.2) then p.1 else (0, 0))

/-- The milliseconds that a radio holds of one sub-channel's combined stream. -/
def Kal.stream (x : Kal) (k : Nat) : List (Nat × List IQ) := x.blocks.map (fun b => (b.ms, b.iq.getD k []))

/-- A sample of a stream, counted at 30 in each millisecond of NT; one that the radio holds no longer, or not yet, counts as not received. -/
def streamSample (x : List (Nat × List IQ)) (q : Nat) : IQ :=
  match x.find? (fun b => b.1 == q / 30) with
  | some b => b.2.getD (q % 30) notRx
  | none => notRx
def Kal.sample (x : Kal) (k q : Nat) : IQ := streamSample (x.stream k) q

/-- The number of a capture's first sample, as the streams' samples are counted. -/
def Capture.first (x : Capture) : Nat := (x.start * 30 + 500000) / 1000000

/-- A capture with the samples of a millisecond that fall into it (R148). -/
def Capture.take (x : Capture) (b : StreamBlock) : Capture :=
  let xs := b.iq.getD x.sub []
  { x with data := xs.zipIdx.foldl (fun m p =>
      let q := 30 * b.ms + p.2
      if x.first ≤ q && decide (q < x.first + x.samples) then smSet (fun _ => notRx) m (q - x.first) p.1 else m) x.data }

/-- The milliseconds of the streams that a Kaleidoscope keeps: those of the last three slots. -/
def keptBlocks : Nat := 60

/-- The millisecond that the streams reach next: the one after the newest, or the one that ended last. -/
def Dev.nextMs (d : Dev) (r : Nat) : Nat :=
  match (d.kal r).blocks.head? with
  | some b => b.ms + 1
  | none => d.nt / 1000000 - 1

/-- The streams of the millisecond under way up to now, as far as the input of both ports given of it reaches: sample i needs 1,024 i of each. -/
def Dev.underWay (d : Dev) (r : Nat) (x0 x1 : List IQ) : StreamBlock :=
  let ms := d.nextMs r
  let b := d.streamBlock r ms (d.runBank r 30 x0 x1)
  ⟨ms, b.iq.map (fun xs => xs.zipIdx.map (fun p => if streamAt ms p.2 < d.nt && 1024 * p.2 ≤ min x0.length x1.length then p.1 else notRx))⟩

/-- A 1 ms block of both ports' input passes the notches and the banks; the combiner uses the sums in force, then updates them; captures take their
samples (R138 to R143, R148). x0, x1: the ADC samples of the ports in millisecond ms of NT, which follow those taken before. -/
def Dev.takeBlock (d : Dev) (r ms : Nat) (x0 x1 : List IQ) : Dev :=
  let b := d.runBank r 30 x0 x1
  let blk := d.streamBlock r ms b
  let d := ((b.port0.zip b.port1).zipIdx).foldl (fun d p => d.divBlock r p.2 (d.summed r ms p.1.1) (d.summed r ms p.1.2)) d
  let y := d.kal r
  d.setKal r { y with
    dc0 := b.dc0, dc1 := b.dc1, hist0 := b.hist0, hist1 := b.hist1
    blocks := (blk :: y.blocks).take keptBlocks
    caps := y.caps.map (fun c => (c.1, c.2.take blk)) }

/-! ## The sample ring (R144 to R146) -/

/-- The DRAM address of the frame of absolute slot A (R145). -/
def Dev.frameAddr (d : Dev) (r a : Nat) : Nat := d.get (R.KAL_RING_BASE r) F.KAL_RING_BASE_base * 4096 + a % 50 * 3690496

/-- The bonding map of the running slot, its 48 words (R144). -/
def Dev.bondMap (d : Dev) (r : Nat) : List Word := (List.range 48).map (fun w => d.word (R.KAL_BOND r w))

/-- The group of a sub-channel under a bonding map: its first sub-channel and its size (R144). -/
def bondGroup (bond : List Word) (k : Nat) : Nat × Nat :=
  let e := (bond.getD (k / 32) 0).toNat / 16 ^ (k / 4 % 8)
  if e.testBit 2 then (k / 4 * 4, 4)
  else if e.testBit (k / 2 % 2) then (k / 2 * 2, 2)
  else (k, 1)

/-- The region of a frame from a sub-channel on: its group's samples of slot a, merged where it is bonded; none for a sub-channel that is not its group's
first, whose place the merged samples take (R144, R145). -/
def Kal.region (x : Kal) (a : Nat) (bond : List Word) (k : Nat) : Bytes :=
  let (k0, n) := bondGroup bond k
  let xs := (List.range n).map (fun c => x.stream (k + c))
  if k0 != k then []
  else if n = 1 then (List.range 600).flatMap (fun j => iqBytes (streamSample (xs.getD 0 []) (600 * a + j)))
  else (List.range (600 * n)).flatMap (fun j => iqBytes (mergeOut n (fun c q => streamSample (xs.getD c []) q) (600 * n * a + j)))

/-- The samples of a frame of slot a: 2,400 bytes for each sub-channel (R145). -/
def Kal.frameIq (x : Kal) (a : Nat) (bond : List Word) : Bytes := (List.range 1536).flatMap (x.region a bond)

/-- The record of a slot: kept since it ended, or of the running one. -/
def Dev.slotRec (d : Dev) (r a : Nat) : SlotRec :=
  match (d.kal r).slots.find? (fun s => s.slot == a) with
  | some s => s
  | none => ⟨a, (d.kal r).ovl, d.bondMap r, (d.kal r).occDet⟩

/-- Whether a radio writes its sample ring (R145). -/
def Dev.ringOn (d : Dev) (r : Nat) : Bool := d.radioUp r && d.flag (R.KAL_RING_BASE r) F.KAL_RING_BASE_ring_en

/-- The first 256 bytes of the frame of slot A (R145). -/
def Dev.frameHeader (d : Dev) (r a : Nat) : Bytes :=
  let s := d.slotRec r a
  toLE 8 a ++ toLE 1 (min 20 s.ovl) ++ toLE 1 (d.portsIn r) ++ List.replicate 54 0 ++ s.bond.flatMap (fun w => toLE 4 w.toNat)

/-- A frame of slot A is written with its header and samples (R145). -/
def Dev.ringWrite (d : Dev) (r a : Nat) (iq : Bytes) : Dev :=
  if d.ringOn r then d.dramWrite (d.frameAddr r a) (d.frameHeader r a ++ iq) else d

/-- The frame of slot A is written whole (R145). -/
def Dev.writeFrame (d : Dev) (r a : Nat) : Dev := d.ringWrite r a ((d.kal r).frameIq a (d.slotRec r a).bond)

/-- From the start of slot A the frame of slot A - 50 is overwritten: it shows A (R146; DEDUCED, log entry 15). -/
def Dev.openFrame (d : Dev) (r a : Nat) : Dev := if d.ringOn r then d.dramWrite (d.frameAddr r a) (toLE 8 a) else d

/-- The occupancy map of a slot begins: it shows its A, not closed, and nothing measured (R152). -/
def Dev.openMap (d : Dev) (r a : Nat) : Dev :=
  if !d.radioUp r then d
  else (d.clearRegs (R.KAL_OCC_MAP r (a % 4) 0) (R.KAL_OCC_MAP r (a % 4) 1540)).setWord (R.KAL_OCC_MAP r (a % 4) 0) (BitVec.ofNat 32 a)

/-- The Kaleidoscope's part of a slot start: the ended slot's record is kept, the running slot's counts start afresh, and its frame and map begin. -/
def Dev.kalSlot (d : Dev) (r a : Nat) : Dev :=
  let x := d.kal r
  let d := d.setKal r { x with slots := (⟨a - 1, x.ovl, d.bondMap r, x.occDet⟩ :: x.slots).take 2, ovl := 0, ovlRaised := false, occDet := [] }
  (d.openFrame r a).openMap r a

/-! ## Captures (R148, R149) -/

/-- The pool's size, above 256 acts as 256. -/
def Dev.capCount (d : Dev) (r : Nat) : Nat := min 256 (d.get (R.KAL_CAP_CTRL r) F.KAL_CAP_CTRL_count)

/-- A capture is requested: the lowest free one, with the samples that the streams already hold, or the refusal of R149. -/
def Dev.requestCapture (d : Dev) (r kind sub start samples : Nat) (task : Option Nat) : Dev × Option Nat :=
  let x := d.kal r
  match smLowestFree x.caps (d.capCount r) with
  | some c => (d.setKal r { x with caps := smInsert c (x.blocks.foldl Capture.take ⟨kind, sub, start, samples, task, []⟩) x.caps }, some c)
  | none =>
    let d := if kind = 2 then d.bump (R.KAL_DET_STAT r) F.KAL_DET_STAT_dropped else d
    ((d.put (R.KAL_OVL r) F.KAL_OVL_last_cause 2).raise 38 r 2, none)

/-- A capture is freed (R148). -/
def Dev.freeCapture (d : Dev) (r c : Nat) : Dev := d.setKal r { d.kal r with caps := smErase (d.kal r).caps c }

/-- The captures that feed a task are freed (R148, R194). -/
def Dev.freeTaskCaptures (d : Dev) (task : Nat) : Dev :=
  (List.range 3).foldl (fun d r =>
    if (d.kal r).caps.any (fun c => c.2.task == some task) then
      d.setKal r { d.kal r with caps := (d.kal r).caps.filter (fun c => c.2.task != some task) }
    else d) d

/-- The address of capture c (R148). -/
def Dev.capAddr (d : Dev) (r c : Nat) : Nat := d.get (R.KAL_CAP_BASE r) F.KAL_CAP_BASE_base * 4096 + c * 655360

/-- The 64 header bytes of a capture (R148). -/
def Capture.header (x : Capture) : Bytes :=
  toLE 6 (x.start / 1000000000) ++ toLE 2 0 ++ toLE 4 (x.start % 1000000000) ++ toLE 2 x.sub ++ toLE 1 x.kind ++ toLE 1 0
    ++ toLE 4 (min x.samples 152400) ++ List.replicate 44 0

/-- The samples of a capture as they stand in DRAM (R145, R148). -/
def Capture.bytes (x : Capture) : Bytes := (List.range (min x.samples 152400)).flatMap (fun j => iqBytes (smGet (fun _ => notRx) x.data j))

/-- A capture takes its last samples from the millisecond under way, of which the command gives the input (R148). -/
def Dev.lastSamples (d : Dev) (r c : Nat) (x0 x1 : List IQ) : Dev :=
  match smFind (d.kal r).caps c with
  | none => d
  | some x => d.setKal r { d.kal r with caps := smInsert c (x.take (d.underWay r x0 x1)) (d.kal r).caps }

/-- A capture's last sample is written: header and samples stand in DRAM (R148). -/
def Dev.writeCapture (d : Dev) (r c : Nat) : Dev :=
  match smFind (d.kal r).caps c with
  | none => d
  | some x => d.dramWrite (d.capAddr r c) (x.header ++ x.bytes)

/-! ## Detectors (R150, R151) -/

/-- A sub-channel's entry of the detector map: 0 off, 1 join, 2 count; 3 acts as 0 (R150). -/
def Dev.detMode (d : Dev) (r k : Nat) : Nat :=
  let v := (d.word (R.KAL_DET_MAP r (k / 16))).toNat / 2 ^ (2 * (k % 16)) % 4
  if v = 3 then 0 else v

/-- The detection threshold, 0 acts as 1. -/
def Dev.detThr (d : Dev) (r : Nat) : Nat := max 1 (d.get (R.KAL_DET_CTRL r) F.KAL_DET_CTRL_thr)

/-- The join capture length in ms, 100 to 5,080 (R151). -/
def Dev.capLen (d : Dev) (r : Nat) : Nat := min 5080 (max 100 (d.get (R.KAL_DET_CTRL r) F.KAL_DET_CTRL_cap_len))

/-- The preamble rate that a detector looks for in symbols a second: 1.2 ksym/s, or cnt_rate's for a count detector (R150). -/
def Dev.detRate (d : Dev) (r k : Nat) : Nat :=
  if d.detMode r k = 1 then 1200 else match d.get (R.KAL_DET_CTRL r) F.KAL_DET_CTRL_cnt_rate with
    | 1 => 2400
    | 2 => 4800
    | _ => 1200

/-- The metric of a detector on the combined stream before merging: its correlation over the last 16 symbol periods, scaled by a gain in units of 2^-32 and
limited to 255 (R151); the spec does not give the scale, which the command's gain stands for (log entry 228). -/
def Dev.detMetric (d : Dev) (r k gain : Nat) : Nat :=
  let x := d.kal r
  let q := match x.blocks.head? with
    | some b => 30 * b.ms + 29
    | none => 0
  min 255 (preambleCorr (d.detRate r k) (fun age => x.sample k (q - age)) * gain / 2 ^ 32)

/-- Four symbol periods have passed since a detector's last evaluation (R151). -/
def Dev.detDue (d : Dev) (r k : Nat) : Bool :=
  match smFind (d.kal r).evals k with
  | some e => decide (e + 4 * 1000000000 / d.detRate r k ≤ d.nt)
  | none => true

/-- A detector's evaluation of the stream, its instant remembered (R151). -/
def Dev.detTimed (d : Dev) (r k : Nat) : Dev := d.setKal r { d.kal r with evals := smInsert k d.nt (d.kal r).evals }

/-- An evaluation of a detector (R151): two in a row at the threshold are a detection. Answers whether a detection was made. -/
def Dev.detEval (d : Dev) (r k metric : Nat) : Dev × Bool :=
  if !d.radioUp r || d.radState r != radRX || 1536 ≤ k || d.detMode r k = 0 then (d, false)
  else
    let x := d.kal r
    let hit := decide (d.detThr r ≤ metric)
    let deaf := d.detMode r k = 1 && decide (d.nt ≤ smGet (fun _ => 0) x.deaf k)
    let was := x.primed.contains k
    let x := { x with primed := if hit then (if was then x.primed else k :: x.primed) else x.primed.filter (· != k) }
    if hit && was && !deaf then
      let x := { x with
        primed := x.primed.filter (· != k)
        occDet := smSet (fun _ => 0) x.occDet k (min 255 (smGet (fun _ => 0) x.occDet k + 1)) }
      ((d.setKal r x).bump (R.KAL_DET_STAT r) F.KAL_DET_STAT_detections, true)
    else (d.setKal r x, false)

/-- NT of sample 0 of a join capture: 28 symbol periods of 1.2 ksym/s before the detection (R151). -/
def joinStart (t : Nat) : Nat := t - 28 * 1000000000 / 1200

/-- A join detection at t (R149, R151): the capture's request, and the silence of the detector until its last sample time has passed. -/
def Dev.joinCapture (d : Dev) (r k t : Nat) : Dev × Option Nat :=
  let n := d.capLen r * 30
  let (d, c) := d.requestCapture r 2 k (joinStart t) n none
  let x := d.kal r
  (d.setKal r { x with deaf := smSet (fun _ => 0) x.deaf k (joinStart t + (n - 1) * 1000000000 / 30000) }, c)

/-! ## Occupancy maps (R152, R153) -/

/-- A power as an occupancy byte: 0.5 dB steps from -150 dBm at the antenna port, to the nearest, 0 and 255 at the ends (R152; DESIGN CHOICE of the
rounding, log entry 231). p is the mean of |x|^2 in sample units. -/
def occByte (ref : Int) (shift : Nat) (p : Rat) : Nat :=
  let y : Rat := (p / (2 ^ 28 : Nat)) ^ 25
  if p = 0 then 0
  else ((List.range 256).reverse.find? (fun (v : Nat) =>
    decide (ratio40 (50 * ((v : Int) - 300) - 25 * ref - 25 + 602 * ((shift : Int) - 8)) ≤ y))).getD 0

/-- The received samples of some milliseconds of a sub-channel's stream. -/
def receivedIq (bs : List StreamBlock) (k : Nat) : List IQ := bs.flatMap (fun b => (b.iq.getD k []).filter (· != notRx))

/-- The milliseconds of slot A that its map has measured up to now: those kept, and the one under way, of which the command gives the input (R153). -/
def Dev.mapBlocks (d : Dev) (r a : Nat) (x0 x1 : List IQ) : List StreamBlock :=
  (d.underWay r x0 x1 :: (d.kal r).blocks).filter (fun b => b.ms / 20 == a)

/-- The word of a sub-channel in a map: its detections, its peak of 1 ms means, and its mean power (R152). -/
def Dev.occWord (d : Dev) (r a k : Nat) (bs : List StreamBlock) : Nat :=
  let byte (p : Rat) : Nat := occByte (sext 16 (d.fuse (R.KAL_LEVEL r))) (d.get (R.KAL_CTRL r) F.KAL_CTRL_out_shift) p
  let peak := bs.foldl (fun (m : Rat) b => max m (meanPower (receivedIq [b] k))) 0
  smGet (fun _ => 0) (d.slotRec r a).det k * 65536 + byte peak * 256 + byte (meanPower (receivedIq bs k))

/-- A map closes with its header, and a word for each sub-channel named (R152). -/
def Dev.fillMap (d : Dev) (r a received : Nat) (bins : List (Nat × Nat)) : Dev :=
  let m := a % 4
  let d := d.clearRegs (R.KAL_OCC_MAP r m 0) (R.KAL_OCC_MAP r m 1540)
  let d := (d.setWord (R.KAL_OCC_MAP r m 0) (BitVec.ofNat 32 a)).setWord (R.KAL_OCC_MAP r m 1) (BitVec.ofNat 32 (65536 + min 600 received))
  bins.foldl (fun d b => d.setWord (R.KAL_OCC_MAP r m (4 + b.1)) (BitVec.ofNat 32 b.2)) d

/-- The occupancy samples of a closed map for the Abacus instances that watch it (R489, class 7). -/
def Dev.sampleMap (d : Dev) (r m : Nat) : Dev :=
  (List.range 32).foldl (fun d n =>
    let idx := d.get (R.MON_CFG n) F.MON_CFG_index
    if d.get (R.MON_CFG n) F.MON_CFG_class == 7 && idx / 2048 == r && decide (idx % 2048 < 1536) then
      d.monTake n ((d.word (R.KAL_OCC_MAP r m (4 + idx % 2048))).toNat % 256 : Nat)
    else d) d

/-- The map of absolute slot A closes, once (R153): the samples received, and each sub-channel's word. -/
def Dev.closeWith (d : Dev) (r a received : Nat) (bins : List (Nat × Nat)) : Dev :=
  let done := match smFind (d.kal r).maps (a % 4) with
    | some m => m.1 == a
    | none => false
  if !d.radioUp r || done then d
  else
    let d := (d.fillMap r a received bins).put (R.KAL_OCC_STAT r) F.KAL_OCC_STAT_latest (a % 4)
    let d := d.setKal r { d.kal r with maps := smInsert (a % 4) (a, d.nt) (d.kal r).maps }
    d.sampleMap r (a % 4)

/-- The map of absolute slot A closes on what the streams hold of it; x0, x1: the ports' input of the millisecond under way (R152, R153). -/
def Dev.closeMap (d : Dev) (r a : Nat) (x0 x1 : List IQ) : Dev :=
  let bs := d.mapBlocks r a x0 x1
  d.closeWith r a (receivedIq bs 0).length ((List.range 1536).map (fun k => (k, d.occWord r a k bs)))

/-! ## Overload (R161) -/

/-- A 1 ms interval with clipped samples on either port (R161). -/
def Dev.overload (d : Dev) (r c0 c1 : Nat) : Dev :=
  let thr := d.get (R.KAL_OVL r) F.KAL_OVL_ovl_thr
  if !d.radioUp r || (c0 ≤ thr && c1 ≤ thr) then d
  else
    let x := d.kal r
    let d := d.bump (R.KAL_OVL r) F.KAL_OVL_ovl_ms
    let d := d.setKal r { x with ovl := x.ovl + 1, ovlRaised := true }
    if x.ovlRaised then d else (d.put (R.KAL_OVL r) F.KAL_OVL_last_cause 1).raise 38 r 1

/-! ## The spectral-mask checker (R159, R160) -/

/-- The valid breakpoints of an entry in order, each above its valid predecessor: frequency in Hz, level in 0.5 dBm (R159). -/
def Dev.maskPoints (d : Dev) (r e : Nat) : List (Int × Int) :=
  ((List.range 64).foldl (fun (acc : List (Int × Int)) j =>
    let w := (d.word (R.KAL_MASK_BP r (64 * e + j))).toNat
    let f : Int := (w % 2 ^ 22 : Nat) * 1000
    if w.testBit 31 && (match acc with
      | [] => true
      | p :: _ => decide (p.1 < f)) then (f, 63 - (w / 2 ^ 22 % 256 : Nat)) :: acc else acc) []).reverse

/-- The limit at a frequency between the breakpoints, interpolated linearly in dB, in 0.5 dBm; none outside their span (R159). -/
def maskAt (f : Int) : List (Int × Int) → Option Rat
  | [] => none
  | [p] => if p.1 = f then some p.2 else none
  | p :: q :: rest =>
    if f < p.1 then none
    else if f ≤ q.1 then some ((p.2 : Rat) + ((q.2 - p.2 : Int) : Rat) * ((f - p.1 : Int) : Rat) / ((q.1 - p.1 : Int) : Rat))
    else maskAt f (q :: rest)

/-- The centre of bin b of 2,048, Hz (R138, R160). -/
def Dev.binHz (d : Dev) (r b : Nat) : Int := (d.radio r).fc + (if b < 1024 then (b : Int) else (b : Int) - 2048) * 15000

/-- The limit of a bin: the lowest among the used entries that check it (R159). -/
def Dev.binLimit (d : Dev) (r b : Nat) : Option Rat :=
  (d.rpUsed r).foldl (fun (best : Option Rat) e => match maskAt (d.binHz r b) (d.maskPoints r e.idx), best with
    | some x, some y => some (min x y)
    | some x, none => some x
    | none, y => y) none

/-- A bin exceeds its limit: its level at the port in 0.25 dBm, plus boost_g (R132, R160). -/
def Dev.binOver (d : Dev) (r b : Nat) (level : Int) : Bool :=
  match d.binLimit r b with
  | none => false
  | some l => decide (l < ((level + 2 * (d.boostG r : Nat) : Int) : Rat) / 2)

/-- The floor of R160, 1 to 20 dB. -/
def Dev.maskFloor (d : Dev) (r : Nat) : Nat := min 20 (max 1 (d.get (R.KAL_MASK_CTRL r) F.KAL_MASK_CTRL_floor))

/-- A millisecond of the mask checker (R160): bins gives the measured level of each checked bin in 0.25 dBm at the port. -/
def Dev.maskCheck (d : Dev) (r : Nat) (bins : List (Nat × Int)) : Dev :=
  if !d.radioUp r || !d.flag (R.KAL_MASK_CTRL r) F.KAL_MASK_CTRL_mask_en || d.radState r != radTX
      || !bins.any (fun b => decide (b.1 < 2048) && d.binOver r b.1 b.2) then d
  else
    let att := d.get (R.KAL_MASK_STAT r) F.KAL_MASK_STAT_atten
    if att < d.maskFloor r then
      let d := (d.put (R.KAL_MASK_STAT r) F.KAL_MASK_STAT_atten (att + 1)).bump (R.KAL_MASK_STAT r) F.KAL_MASK_STAT_reductions
      let x := d.kal r
      if x.maskRaised then d else (d.setKal r { x with maskRaised := true }).raise 39 r
    else
      let air := (d.radio r).air
      let d := (d.bump (R.KAL_MASK_STAT r) F.KAL_MASK_STAT_aborts).raise 39 r
      let d := (air.foldl (fun d c => d.dropOwn r c.set) (d.setRadio r { d.radio r with air := [] })).dutyRefresh r
      if air.isEmpty then d else d.lastEnds r d.nt

/-! ## Symbol buffers (R155) -/

/-- The bank fetches the symbol buffers of a burst set (R155). -/
def Dev.fetchBuffers (d : Dev) (r handle : Nat) : Dev :=
  if !d.radioUp r then d
  else
    let (xs, _) := d.txChain r 64 handle []
    let x := d.kal r
    d.setKal r { x with bufs := xs.foldl (fun m y => smInsert y.idx (d.dramRead y.buf (ceilDiv y.count 4)) m) x.bufs }

end Sys2Proof.Machine
end

