-- ==== Sys2Proof/Machine/Record.lean ====
section
/-! DEFINITION. The burst record of R184 (06_demodulation.md). -/

namespace Sys2Proof.Machine

open Sys2Proof

/-- The fields of a burst record (R184). -/
structure BurstRec where
  address : Nat := 0
  start : Nat := 0
  radioA : Nat := 0
  mode : Nat := 0
  pilot : Bool := false
  join : Bool := false
  dual : Bool := false
  status : Nat := 0
  group : Nat := 0
  k0A : Nat := 0
  radioB : Nat := 0
  k0B : Nat := 0
  krxA : Nat := 0
  rssiA : Int := 0
  rssiB : Int := 0
  lqf : Nat := 0
  lqfA : Nat := 0
  lqfB : Nat := 0
  pairTimeout : Bool := false
  combined : Bool := false
  copyB : Bool := false
  copyA : Bool := false
  fev : Nat := 0
  offsetA : Int := 0
  offsetB : Int := 0
  timing : Int := 0
  tapMag : Nat := 0
  tapPhase : Nat := 0
  pilotReq : Nat := 0
  control : Nat := 0
  frameCtr : Nat := 0
  offsetPpb : Int := 0
  length : Nat := 0
  createSeq : Nat := 0
deriving DecidableEq, Repr, Inhabited

/-- The 64 bytes of a burst record (R184). -/
def BurstRec.bytes (r : BurstRec) : Bytes :=
  toLE 4 r.address ++ toLE 6 (r.start / 1000000000) ++ toLE 4 (r.start % 1000000000)
  ++ toLE 1 (r.radioA % 4 * 64 + r.mode % 8 * 8 + bitOf r.pilot * 4 + bitOf r.join * 2 + bitOf r.dual)
  ++ toLE 1 r.status ++ toLE 2 (r.group % 4 * 16384 + r.k0A % 2048) ++ toLE 2 (r.radioB % 4 * 16384 + r.k0B % 2048)
  ++ toLE 2 (r.krxA % 2048) ++ toLE 2 (wrapNat 16 r.rssiA) ++ toLE 2 (wrapNat 16 r.rssiB)
  ++ toLE 1 r.lqf ++ toLE 1 r.lqfA ++ toLE 1 r.lqfB
  ++ toLE 1 (bitOf r.pairTimeout * 8 + bitOf r.combined * 4 + bitOf r.copyB * 2 + bitOf r.copyA)
  ++ toLE 2 (min 65535 r.fev) ++ toLE 4 (wrapNat 32 r.offsetA) ++ toLE 4 (wrapNat 32 r.offsetB)
  ++ toLE 2 (wrapNat 16 (satS 16 r.timing)) ++ toLE 2 (min 65535 r.tapMag) ++ toLE 2 r.tapPhase ++ toLE 2 (r.pilotReq % 4)
  ++ toLE 4 r.control ++ toLE 4 (r.frameCtr % 2 ^ 20) ++ toLE 4 (wrapNat 32 r.offsetPpb) ++ toLE 2 r.length ++ toLE 2 r.createSeq

/-- Fields of a record as the release queue reads them. -/
def recAddress (r : Bytes) : Nat := leAt r 0 4
def recStart (r : Bytes) : Nat := leAt r 4 6 * 1000000000 + leAt r 10 4
def recRadioA (r : Bytes) : Nat := byteAt r 14 / 64
def recMode (r : Bytes) : Nat := byteAt r 14 / 8 % 8
def recPilot (r : Bytes) : Bool := (byteAt r 14).testBit 2
def recJoin (r : Bytes) : Bool := (byteAt r 14).testBit 1
def recDual (r : Bytes) : Bool := (byteAt r 14).testBit 0
def recStatus (r : Bytes) : Nat := byteAt r 15
def recGroup (r : Bytes) : Nat := leAt r 16 2 / 16384
def recK0A (r : Bytes) : Nat := leAt r 16 2 % 2048
def recRadioB (r : Bytes) : Nat := leAt r 18 2 / 16384
def recK0B (r : Bytes) : Nat := leAt r 18 2 % 2048
def recKrxA (r : Bytes) : Nat := leAt r 20 2 % 2048
def recRssiA (r : Bytes) : Int := sext 16 (leAt r 22 2)
def recLqf (r : Bytes) : Nat := byteAt r 26
def recLqfA (r : Bytes) : Nat := byteAt r 27
def recLqfB (r : Bytes) : Nat := byteAt r 28
def recPairTimeout (r : Bytes) : Bool := (byteAt r 29).testBit 3
def recCombined (r : Bytes) : Bool := (byteAt r 29).testBit 2
def recCopyB (r : Bytes) : Bool := (byteAt r 29).testBit 1
def recCopyA (r : Bytes) : Bool := (byteAt r 29).testBit 0
def recFev (r : Bytes) : Nat := leAt r 30 2
def recOffsetA (r : Bytes) : Int := sext 32 (leAt r 32 4)
def recPilotReq (r : Bytes) : Nat := leAt r 46 2 % 4
def recControl (r : Bytes) : Nat := leAt r 48 4
def recFrameCtr (r : Bytes) : Nat := leAt r 52 4 % 2 ^ 20
def recOffsetPpb (r : Bytes) : Int := sext 32 (leAt r 56 4)
def recLength (r : Bytes) : Nat := leAt r 60 2
def recCreateSeq (r : Bytes) : Nat := leAt r 62 2

end Sys2Proof.Machine
end

