-- ==== Sys2Proof/Machine/Pup.lean ====
section
/-! DEFINITION. Toybox and Puppeteer: creating, filling, firing, expiring and placing tasks (09_puppeteer.md, R231 to R245). -/

namespace Sys2Proof.Machine

open Sys2Proof

/-! ## Entries, flows and cores -/

/-- The Toybox entry at an index, where it is in use. -/
def Dev.task (d : Dev) (i : Nat) : Option Task := smFind d.pup.tasks i

/-- The device with a Toybox entry replaced. -/
def Dev.setTask (d : Dev) (i : Nat) (t : Task) : Dev := { d with pup := { d.pup with tasks := smInsert i t d.pup.tasks } }

/-- A node's registry entry (R204). -/
def Dev.regEntry (d : Dev) (addr : Nat) : Option RegEntry := smFind d.sched.registry addr

/-- The device with a registry entry replaced. -/
def Dev.setReg (d : Dev) (addr : Nat) (e : RegEntry) : Dev :=
  { d with sched := { d.sched with registry := smInsert addr e d.sched.registry } }

/-- The state of a flow. -/
def Dev.flow (d : Dev) (f : Nat) : Flow := smGet (fun _ => Flow.reset) d.pup.flows f

/-- The device with the state of a flow replaced. -/
def Dev.setFlow (d : Dev) (f : Nat) (x : Flow) : Dev :=
  { d with pup := { d.pup with flows := smSet (fun _ => Flow.reset) d.pup.flows f x } }

/-- A core as the Puppeteer sees it. -/
def Dev.pcore (d : Dev) (c : Nat) : PCore := smGet (fun _ => PCore.reset) d.pup.cores c

/-- The device with a core's Puppeteer state replaced. -/
def Dev.setPcore (d : Dev) (c : Nat) (x : PCore) : Dev :=
  { d with pup := { d.pup with cores := smSet (fun _ => PCore.reset) d.pup.cores c x } }

/-- A Marionette core. -/
def Dev.mcore (d : Dev) (c : Nat) : Core := smGet (fun _ => Core.reset) d.cores c

/-- The device with a Marionette core replaced. -/
def Dev.setMcore (d : Dev) (c : Nat) (x : Core) : Dev := { d with cores := smSet (fun _ => Core.reset) d.cores c x }

/-- Flow identifiers (R231). -/
def joinFlow (r j : Nat) : Nat := 65536 + 2 * r + j
def beaconFlow (r : Nat) : Nat := 65544 + r

/-- The flow of a task whose node has no context yet: none of R231's, and no flow's state (R216). -/
def noFlow : Nat := 262144

/-- The classes of a kind's four slots: 0 unused, 1 required, 2 alternative (R233). -/
def slotClasses : Nat → List Nat
  | 0 => [1, 1, 0, 0]
  | 1 => [1, 2, 2, 0]
  | 2 => [1, 0, 0, 0]
  | 3 => [1, 1, 0, 0]
  | _ => [1, 0, 0, 0]

/-- The class of slot s of a kind. -/
def slotClass (kind s : Nat) : Nat := (slotClasses kind).getD s 0

/-- Operand values (R234). -/
def opCtx (i : Nat) : Nat := 1 * 2 ^ 29 + i
def opRing (r a len : Nat) : Nat := 2 * 2 ^ 29 + r * 2 ^ 27 + a % 50 * 2 ^ 21 + len * 2 ^ 16
def opCapture (r c : Nat) : Nat := 3 * 2 ^ 29 + r * 2 ^ 27 + c
def opMessage (b : Nat) : Nat := 4 * 2 ^ 29 + b
def opEntries (n : Nat) : Nat := 5 * 2 ^ 29 + n
def opBeacon (r : Nat) : Nat := 6 * 2 ^ 29 + r * 2 ^ 27

/-- The operand in slot s; 0 while unfilled. -/
def Task.op (t : Task) (s : Nat) : Nat := t.ops.getD s 0

/-- Slot s holds an operand. -/
def Task.has (t : Task) (s : Nat) : Bool := t.op s != 0

/-- Every slot the kind uses is filled (R238). -/
def Task.full (t : Task) : Bool := (List.range 4).all (fun s => slotClass t.kind s == 0 || t.has s)

/-- The condition of R238 at the deadline: every required slot, and of the alternatives at least one. -/
def Task.enough (t : Task) : Bool :=
  (List.range 4).all (fun s => slotClass t.kind s != 1 || t.has s) && (List.range 4).any (fun s => slotClass t.kind s == 2 && t.has s)

/-- A task's handle (R232). -/
def Task.handle (t : Task) (i : Nat) : Nat := t.gen * 8192 + i

/-- The 64 bytes of the descriptor at index i (R232). -/
def Task.bytes (t : Task) (i : Nat) : Bytes :=
  let classes := (List.range 4).foldl (fun v s => v + slotClass t.kind s * 4 ^ s) 0
  let filled := (List.range 4).foldl (fun v s => v + bitOf (t.has s) * 2 ^ s) 0
  toLE 2 (t.handle i) ++ toLE 1 t.kind ++ toLE 1 classes ++ toLE 1 (t.state * 16 + filled)
    ++ toLE 1 (bitOf (t.attempt != 0) * 2 + bitOf t.partial_) ++ toLE 2 0 ++ toLE 3 (t.flow % noFlow) ++ toLE 1 t.core
    ++ toLE 2 t.seq ++ toLE 1 t.floor ++ toLE 1 0 ++ toLE 6 (t.deadline / 1000000000) ++ toLE 4 (t.deadline % 1000000000)
    ++ toLE 6 0 ++ toLE 4 (t.op 0) ++ toLE 4 (t.op 1) ++ toLE 4 (t.op 2) ++ toLE 4 (t.op 3) ++ List.replicate 16 0

/-- Entries in use, and tasks in state fired (PUP_STATUS). -/
def Dev.occupancy (d : Dev) : Nat := d.pup.tasks.length
def Dev.firedTasks (d : Dev) : SMap Task := d.pup.tasks.filter (fun p => p.2.state == 2)

/-! ## The high-water event (R236) -/

/-- The levels of PUP_WATER as they act. -/
def Dev.waterHigh (d : Dev) : Nat := min 8192 (d.get R.PUP_WATER F.PUP_WATER_high)
def Dev.waterLow (d : Dev) : Nat := min (d.get R.PUP_WATER F.PUP_WATER_low) (d.waterHigh - 1)

/-- Occupancy has risen: event 32 at the high level, once. -/
def Dev.waterUp (d : Dev) : Dev :=
  if d.waterHigh != 0 && d.waterHigh ≤ d.occupancy && d.pup.armed then
    { d with pup := { d.pup with armed := false } }.raise 32
  else d

/-- An entry is freed (R239, R253): the event is armed again at the low level. -/
def Dev.dropTask (d : Dev) (i : Nat) : Dev :=
  let d := { d with pup := { d.pup with tasks := smErase d.pup.tasks i } }
  if d.occupancy ≤ d.waterLow then { d with pup := { d.pup with armed := true } } else d

/-! ## Starting a task on a core (R278, R279) -/

/-- A core's registers and I/O registers as R279 sets them at the start of a task; its mailbox holds the descriptor, and it begins at the entry. -/
def Dev.startOn (d : Dev) (c i : Nat) (desc : Bytes) : Dev :=
  let kind := match d.task i with
    | some t => t.kind
    | none => 0
  let d := d.setMcore c { d.mcore c with
    regs := [(16, 0x20000), (17, 0x20400)]
    pipe := []
    pc := d.get (R.PUP_ENTRY kind) F.PUP_ENTRY_entry
    count := 0
    slot := 0
    branch := none
    delay := 0
    clear := 0
    loops := []
    shadow := false
    running := true
    stopped := false
    stores := []
    early := none
    truWait := none
    mailbox := desc }
  let d := d.setPcore c { d.pcore c with run := some i, done := none }
  let d := (d.setWord (R.CORE_IRQ_PEND c) 0).setWord (R.CORE_IRQ_EN c) 0
  ((d.setWord (R.CORE_TIMER c) 0).setWord (R.CORE_CYCLES c) 0).setWord (R.CORE_SEG c) 0

/-! ## Placement (R241 to R244) -/

/-- The die of a core: 0 BB0, 1 BB1. -/
def coreDie (c : Nat) : Nat := c / 32

/-- A core that may take tasks: active, its die in service, not about to retire (R243, R251, R252). -/
def Dev.coreActive (d : Dev) (c : Nat) : Bool := (d.pcore c).st == 0 && !(d.pcore c).retiring && d.coreDieUp c

/-- A core's load, 0 to 2 (R243). -/
def Dev.coreLoad (d : Dev) (c : Nat) : Nat := bitOf (d.pcore c).run.isSome + bitOf (d.pcore c).queued.isSome

/-- The least-loaded core of a list, the lowest number on a tie. -/
def Dev.leastLoaded (d : Dev) (cs : List Nat) : Option Nat :=
  cs.foldl (fun best c => match best with
    | none => some c
    | some b => if d.coreLoad c < d.coreLoad b then some c else some b) none

/-- A core that can accept one more task. -/
def Dev.roomOn (d : Dev) (c : Option Nat) : Option Nat := c.filter (fun c => decide (d.coreLoad c < 2))

/-- The core of R243 for a flow's last core, with one core excluded (64 excludes none). -/
def Dev.pickCore (d : Dev) (last : Option Nat) (excl : Nat) : Option Nat :=
  let cs := (List.range 64).filter (fun c => d.coreActive c && c != excl)
  match last.filter (fun c => cs.contains c) with
  | some l => (d.roomOn (some l)).or
      ((d.roomOn (d.leastLoaded (cs.filter (fun c => coreDie c == coreDie l)))).or
        (d.roomOn (d.leastLoaded (cs.filter (fun c => coreDie c != coreDie l)))))
  | none => d.roomOn (d.leastLoaded cs)

/-- The placement counts of R243. -/
def Dev.countPlacement (d : Dev) (last : Option Nat) (c : Nat) : Dev :=
  let wrap (d : Dev) (a : Nat) (f : Fld) : Dev := d.put a f (d.get a f + 1)
  if last = some c then wrap d R.PUP_DISP_AFF F.PUP_DISP_AFF_affinity
  else match last with
    | some l => if coreDie l = coreDie c then wrap d R.PUP_DISP_MOVE F.PUP_DISP_MOVE_same_die
        else wrap d R.PUP_DISP_MOVE F.PUP_DISP_MOVE_other_die
    | none => wrap d R.PUP_DISP_MOVE F.PUP_DISP_MOVE_same_die

/-- A task is placed on a core (R244): in service, its descriptor copied, and started where the core has no other. -/
def Dev.placeTask (d : Dev) (i : Nat) (t : Task) (c : Nat) : Dev :=
  let fl := d.flow t.flow
  let t := { t with state := 3, core := c, budget := max 1 (d.get (R.PUP_BUDGET t.kind) F.PUP_BUDGET_budget) }
  let d := (d.countPlacement fl.last c).setTask i t
  let d := d.setFlow t.flow { fl with inService := true, last := some c }
  if (d.pcore c).run.isNone then d.startOn c i (t.bytes i)
  else d.setPcore c { d.pcore c with queued := some (i, t.bytes i) }

/-- A fired task is eligible (R242). -/
def Dev.eligible (d : Dev) (t : Task) : Bool :=
  t.state == 2 && !(d.flow t.flow).inService
    && d.pup.tasks.all (fun p => p.2.state != 2 || p.2.flow != t.flow || decide (t.fired ≤ p.2.fired))

/-- The eligible task with the earliest deadline, equal deadlines in order of firing (R242). -/
def Dev.nextTask (d : Dev) : Option (Nat × Task) :=
  (d.pup.tasks.filter (fun p => d.eligible p.2)).foldl (fun best p => match best with
    | none => some p
    | some b => if p.2.deadline < b.2.deadline || (p.2.deadline == b.2.deadline && decide (p.2.fired < b.2.fired)) then some p else some b) none

/-- The first task taken back after a fault that a core can accept (R247). -/
def Dev.redoPick (d : Dev) : List (Nat × Nat × Bool) → Option (Nat × Nat × Bool)
  | [] => none
  | (i, excl, ev) :: rest => match d.task i with
    | none => d.redoPick rest
    | some t => match d.pickCore (d.flow t.flow).last excl with
      | some c => some (i, c, ev)
      | none => d.redoPick rest

/-- One placement: tasks taken back first, each with its event 62 (R247), then the eligible tasks. -/
def Dev.dispatchOne (d : Dev) : Option Dev :=
  match d.redoPick d.pup.redo with
  | some (i, c, ev) => match d.task i with
    | none => none
    | some t =>
      let d := { d with pup := { d.pup with redo := d.pup.redo.filter (fun p => p.1 != i) } }.placeTask i t c
      some (if ev then d.recovery 2 else d)
  | none => match d.nextTask with
    | none => none
    | some (i, t) => (d.pickCore (d.flow t.flow).last 64).map (fun c => d.placeTask i t c)

/-- Placements one after another. The fuel bounds their number. -/
def Dev.dispatchN : Nat → Dev → Dev
  | 0, d => d
  | n + 1, d => match d.dispatchOne with
    | none => d
    | some d' => d'.dispatchN n

/-- The dispatch opportunity: every task that a core can accept is placed (R243). -/
def Dev.dispatch (d : Dev) : Dev := d.dispatchN (d.pup.redo.length + d.firedTasks.length)

/-- The demodulation parameters that a task read when it fired, of its core's die (R188). -/
def Task.dem (t : Task) : DemSet := if coreDie t.core = 0 then t.dem0 else t.dem1

/-! ## Firing (R238, R241, R253) -/

/-- The demodulation parameters in force on a baseband die (R188). -/
def Dev.demSet (d : Dev) (die : Nat) : DemSet :=
  if d.flag (R.DEM_ACTIVE die) F.DEM_ACTIVE_set then
    ⟨(d.word (R.DEM_ACQ_1 die)).toNat, (d.word (R.DEM_TOL_1 die)).toNat, (d.word (R.DEM_WARN_1 die)).toNat⟩
  else ⟨(d.word (R.DEM_ACQ_0 die)).toNat, (d.word (R.DEM_TOL_0 die)).toNat, (d.word (R.DEM_WARN_0 die)).toNat⟩

/-- Task a was created before task b of its flow: by create_seq, which wraps. -/
def Task.createdBefore (a b : Task) : Bool := decide (0 < (b.seq + 65536 - a.seq) % 65536) && decide ((b.seq + 65536 - a.seq) % 65536 < 32768)

/-- The last-numbered task ahead of one that waits in state fired with it, fired at the same instant and created after it. -/
def Dev.firedAhead (d : Dev) (t : Task) : Option (Nat × Task) :=
  (d.pup.tasks.filter (fun p => p.2.state == 2 && p.2.flow == t.flow && p.2.firedXo == t.firedXo && decide (p.2.rel < t.rel) && t.createdBefore p.2)).foldl
    (fun best p => match best with
      | none => some p
      | some b => if b.2.rel < p.2.rel then some p else some b) none

/-- Tasks of one flow that fire at the same instant go in the order of create_seq (R241): a task changes places with those ahead of it that were created
after it. The fuel bounds their number. -/
def Dev.orderFired (d : Dev) (i : Nat) : Nat → Dev
  | 0 => d
  | n + 1 => match d.task i with
    | none => d
    | some t => match d.firedAhead t with
      | none => d
      | some (j, u) =>
        ((d.setTask i { t with rel := u.rel, fired := u.fired }).setTask j { u with rel := t.rel, fired := t.fired }).orderFired i n

/-- A task fires: it takes the next release number of its flow, and keeps its context's offset estimate and the parameters as they stand (R186,
R188); a context task marks its context served (R202), and a dual-band task that fires with one copy is counted (R193). -/
def Dev.fireTask (d : Dev) (i : Nat) (t : Task) (part : Bool) : Dev :=
  let fl := d.flow t.flow
  let d := d.setTask i { t with
    state := 2, partial_ := part, rel := fl.nextRel, fired := d.pup.fireNo, dem0 := d.demSet 0, dem1 := d.demSet 1
    est := ((smFind d.sched.ctxs t.flow).map (·.offset)).getD 0, firedXo := d.xo }
  let d := { d with pup := { d.pup with fireNo := d.pup.fireNo + 1 } }
  let d := d.setFlow t.flow { fl with nextRel := fl.nextRel + 1 }
  let d := match smFind d.sched.ctxs t.flow with
    | some x => { d with sched := { d.sched with ctxs := smInsert t.flow { x with lastServed := superOf d.nt } d.sched.ctxs } }
    | none => d
  let d := d.orderFired i d.firedTasks.length
  if part then (d.bump R.SCH_SEE_STAT F.SCH_SEE_STAT_single).raise 44 else d

/-- A waiting task whose slots are all filled fires (R238). -/
def Dev.fireIfFull (d : Dev) (i : Nat) : Dev :=
  match d.task i with
  | some t => if t.state == 1 && t.full then d.fireTask i t false else d
  | none => d

/-! ## Creating and filling (R235 to R237) -/

/-- The create_seq of a new task: the next of its flow, advanced for a refused task too (R235). A task of a node that waits for a context takes the next
of its saved context (R216). -/
def Dev.takeSeq (d : Dev) (flow node : Nat) : Dev × Nat :=
  if flow = noFlow then
    match d.regEntry node with
    | none => (d, 0)
    | some e => match e.saved with
      | none => (d, 0)
      | some (x, seq, last) => (d.setReg node { e with saved := some (x, (seq + 1) % 65536, last) }, (seq + 1) % 65536)
  else
    let fl := d.flow flow
    (d.setFlow flow { fl with seq := (fl.seq + 1) % 65536 }, (fl.seq + 1) % 65536)

/-- A task is created in the lowest free entry, or refused and counted (R235). Answers its index. -/
def Dev.createTask (d : Dev) (kind flow floor deadline : Nat) (ops : List Nat) (info : TaskInfo) : Dev × Option Nat :=
  let (d, seq) := d.takeSeq flow info.node
  match smLowestFree d.pup.tasks 8192 with
  | none => (d.bump R.PUP_LOSS F.PUP_LOSS_refused, none)
  | some i =>
    let gen := (smGet (fun _ => 0) d.pup.gens i + 1) % 8
    let t : Task := ⟨gen, kind, 1, 0, false, flow, 0, seq, floor, deadline, ops, 0, 0, info, .none, 0, .none, .none, 0, 0⟩
    let d := { d with pup := { d.pup with gens := smSet (fun _ => 0) d.pup.gens i gen } }
    let d := d.put R.PUP_CREATED F.PUP_CREATED_created (d.get R.PUP_CREATED F.PUP_CREATED_created + 1)
    (((d.setTask i t).waterUp).fireIfFull i, some i)

/-- The capture that an operand names is freed (R237). -/
def Dev.freeOperand (d : Dev) (v : Nat) : Dev :=
  if v / 2 ^ 29 = 3 then d.freeCapture (v / 2 ^ 27 % 4) (v % 256) else d

/-- A producer fills slot s by handle; any fill that cannot take effect is discarded and counted (R237). -/
def Dev.fillSlot (d : Dev) (handle s v : Nat) : Dev :=
  let i := handle % 8192
  let stale (d : Dev) : Dev := (d.freeOperand v).bump R.PUP_LOSS F.PUP_LOSS_stale
  match d.task i with
  | none => stale d
  | some t =>
    if t.gen == handle / 8192 && t.state == 1 && slotClass t.kind s != 0 && !t.has s then
      (d.setTask i { t with ops := t.ops.set s v }).fireIfFull i
    else stale d

/-! ## Deadlines (R238 to R240) -/

/-- Every capture a task names is freed. -/
def Dev.freeTaskOps (d : Dev) (i : Nat) (t : Task) : Dev := (t.ops.foldl Dev.freeOperand d).freeTaskCaptures (t.handle i)

/-- An admission is refused with a cause (R213). -/
def Dev.joinRefused (d : Dev) (cause : Nat) : Dev :=
  (d.bump R.SCH_JOIN_STAT F.SCH_JOIN_STAT_refused).put R.SCH_JOIN_STAT F.SCH_JOIN_STAT_last_cause cause

/-- A task that has not fired expires (R239): event 41 where a context slot waits (R216), event 33 otherwise; a pair is counted (R193), and an admission
that got no context is refused with cause 3 (R213). -/
def Dev.expireTask (d : Dev) (i : Nat) (t : Task) : Dev :=
  let d := ((d.freeTaskOps i t).dropTask i).bump R.PUP_LOSS F.PUP_LOSS_expired
  let d := if t.kind = 3 && !t.has 0 then d.joinRefused 3 else d
  let d := if t.kind = 1 && !t.has 1 && !t.has 2 then d.bump R.SCH_SEE_DROP F.SCH_SEE_DROP_expired else d
  if t.kind != 2 && !t.has 0 then (d.bump R.SCH_CTX_STAT F.SCH_CTX_STAT_ctx_full).raise 41 else d.raise 33 0 t.kind

/-- A waiting task's deadline: it fires with what it has, or expires (R238, R239). -/
def Dev.taskDeadline (d : Dev) (i : Nat) : Dev :=
  match d.task i with
  | none => d
  | some t =>
    if t.state == 1 && decide (t.deadline ≤ d.nt) then
      if t.enough then (d.fireTask i t true).dispatch else d.expireTask i t
    else d

/-- The waiting tasks whose deadline a forward step skipped, in deadline order (R240). A deadline at the instant that the step reaches is not skipped: it
is tested there after the fills of that instant (R238). -/
def Dev.deadlinesPassed (d : Dev) : List Nat :=
  let due := d.pup.tasks.filter (fun p => p.2.state == 1 && decide (p.2.deadline < d.nt))
  (due.foldl (fun acc p => (acc.takeWhile (fun q => decide (q.1 ≤ p.2.deadline))) ++ [(p.2.deadline, p.1)]
    ++ (acc.dropWhile (fun q => decide (q.1 ≤ p.2.deadline)))) ([] : List (Nat × Nat))).map (·.2)

/-- After a forward step of NT every skipped deadline is tested (R240). -/
def Dev.stepDeadlines (d : Dev) : Dev := d.deadlinesPassed.foldl Dev.taskDeadline d

/-- A write to PUP_PEEK_IDX snapshots an entry's descriptor; of a free entry its generation, its index and state 0 (R232). -/
def Dev.peek (d : Dev) (i : Nat) : Dev :=
  let bs := match d.task i with
    | some t => t.bytes i
    | none => padTo 64 (toLE 2 (smGet (fun _ => 0) d.pup.gens i * 8192 + i))
  let d := d.put R.PUP_PEEK_IDX F.PUP_PEEK_IDX_index i
  (List.range 16).foldl (fun d w => d.setWord (R.PUP_PEEK w) (BitVec.ofNat 32 (leAt bs (4 * w) 4))) d

/-! ## Counts the registers show -/

/-- A core's die is absent, isolated or stopped, or its domain is not up: a fenced domain still is (R251). -/
def Dev.coreOut (d : Dev) (c : Nat) : Bool :=
  let die := coreDie c + 4
  let dom := d.dom (domOfDie die)
  !d.hubUp || !d.present die || d.dieIsolated die || d.dieClockOff die || dom == 0 || dom == 3

/-- The state PUP_CORE_STATE shows for a core. -/
def Dev.coreState (d : Dev) (c : Nat) : Nat := if d.coreOut c then 3 else (d.pcore c).st

/-- Cores in a state (PUP_CORES). -/
def Dev.coresIn (d : Dev) (st : Nat) : Nat := ((List.range 64).filter (fun c => d.coreState c == st)).length

/-- Retired cores (PUP_CORES); the cores of a die that is off, isolated or absent are out of service and not retired. -/
def Dev.coresRetired (d : Dev) : Nat := ((List.range 64).filter (fun c => (d.pcore c).st == 3)).length

/-- Understudies are placed when boot enters RUN (R250). -/
def Dev.placeUnderstudies (d : Dev) : Dev :=
  let u := min 8 (d.get R.PUP_CTRL F.PUP_CTRL_understudies)
  let both := d.present 4 && d.present 5
  let n0 := if both then ceilDiv u 2 else if d.present 4 then u else 0
  let n1 := if both then u / 2 else if d.present 5 then u else 0
  let under (c : Nat) : Bool := if c < 32 then decide (32 ≤ c + n0) else decide (64 ≤ c + n1)
  let d := (List.range 64).foldl (fun d c => if under c then d.setPcore c { d.pcore c with st := 1 } else d) d
  { d with pup := { d.pup with placed := true } }

end Sys2Proof.Machine
end

