-- ==== Sys2Proof/Machine/Cip.lean ====
section
/-! DEFINITION. The cipher engine: key slots, use counts, native jobs, the stream interface and the root key (15_cipher_engine.md, R365 to R379). -/

namespace Sys2Proof.Machine

open Sys2Proof

/-! ## Core memory as jobs and transfers see it (R257) -/

/-- A range of core addresses that lies in data memory or in the output buffer. -/
def coreRange (a n : Nat) : Bool := decide (a + n ≤ 0x20000) || (decide (0x20400 ≤ a) && decide (a + n ≤ 0x20800))

/-- A byte of a core's data memory or output buffer. -/
def Core.byte (k : Core) (a : Nat) : Byte := if a < 0x20000 then smGet (fun _ => 0) k.dmem a else smGet (fun _ => 0) k.outbuf (a - 0x20400)

/-- Bytes of a core's data memory or output buffer. -/
def Core.bytesAt (k : Core) (a n : Nat) : Bytes := (List.range n).map (fun i => k.byte (a + i))

/-- A core with bytes stored in its data memory or output buffer. -/
def Core.store (k : Core) (a : Nat) (bs : Bytes) : Core :=
  (bs.zipIdx).foldl (fun k p =>
    if a + p.2 < 0x20000 then { k with dmem := smSet (fun _ => 0) k.dmem (a + p.2) p.1 }
    else { k with outbuf := smSet (fun _ => 0) k.outbuf (a + p.2 - 0x20400) p.1 }) k

/-- A word read whose SECDED code is the poison code lies in the range: the bytes before the first such word (R397). -/
def Dev.cleanBytes (d : Dev) (a n : Nat) : Nat :=
  match (List.range n).find? (fun i => d.drc.poison.contains ((a + i) / 8)) with
  | some i => i
  | none => n

/-- Sets an interrupt source of a core pending (R273). -/
def Dev.irq (d : Dev) (c s : Nat) : Dev :=
  d.put (R.CORE_IRQ_PEND c) F.CORE_IRQ_PEND_pend (setBit (d.get (R.CORE_IRQ_PEND c) F.CORE_IRQ_PEND_pend) s true)

/-! ## Slots (R365 to R371) -/

/-- A key slot, where it holds a key. -/
def Dev.keySlot (d : Dev) (n : Nat) : Option KeySlot := smFind d.cip.slots n

/-- The device with a key slot filled. -/
def Dev.setKeySlot (d : Dev) (n : Nat) (k : KeySlot) : Dev := { d with cip := { d.cip with slots := smInsert n k d.cip.slots } }

/-- The device with a key slot emptied. -/
def Dev.clearKeySlot (d : Dev) (n : Nat) : Dev := { d with cip := { d.cip with slots := smErase d.cip.slots n } }

/-- The limit of a class; 0 stands for 2^24 (R371). -/
def Dev.classLimit (d : Dev) (c : Nat) : Nat :=
  let l := d.get (R.CIP_CLASS c) F.CIP_CLASS_limit
  if l = 0 then 2 ^ 24 else l

/-- A slot locks: recorded in CIP_LOCKED, with event 55 (R371). -/
def Dev.lockSlot (d : Dev) (n : Nat) (k : KeySlot) : Dev :=
  (((d.setKeySlot n { k with locked := true }).bump R.CIP_LOCKED F.CIP_LOCKED_locks).put R.CIP_LOCKED F.CIP_LOCKED_last n).raise 55 0 n

/-- A job is accepted on a slot: its use is counted, and the slot locks when the count meets the limit (R371). -/
def Dev.useSlot (d : Dev) (n : Nat) (k : KeySlot) : Dev :=
  let k := { k with uses := k.uses + 1, used := d.cip.useNo }
  let d := { d with cip := { d.cip with useNo := d.cip.useNo + 1 } }
  let d := d.put R.CIP_JOBS F.CIP_JOBS_accepted (d.get R.CIP_JOBS F.CIP_JOBS_accepted + 1)
  if d.classLimit k.cls ≤ k.uses then d.lockSlot n k else d.setKeySlot n k

/-- The root key's bytes (R367). -/
def Dev.rootBytes (d : Dev) : Bytes := toLE 32 d.rootKey

/-- The key a wrapped key holds under the root key; none until the root key is programmed (R366, R367). -/
def Dev.unwrap (d : Dev) (wrapped : Bytes) : Option Bytes :=
  if d.rootProgrammed then keyUnwrap d.rootBytes wrapped else none

/-- A host slot is loaded from CIP_KEY_BUF (R368). -/
def Dev.keyLoad (d : Dev) (slot cls : Nat) (big : Bool) : Dev :=
  let result (d : Dev) (r : Nat) : Dev := d.put R.CIP_KEY_CMD F.CIP_KEY_CMD_result r
  if 255 < slot then result d 4
  else
    let buf := (List.range 10).flatMap (fun w => toLE 4 (d.word (R.CIP_KEY_BUF w)).toNat)
    match d.unwrap (buf.take (if big then 40 else 24)) with
    | some key => result (d.setKeySlot slot ⟨key, big, cls, 0, false, 0, d.cip.useNo⟩) 1
    | none => result d 3

/-- A host slot is emptied (R368). -/
def Dev.keyClear (d : Dev) (slot : Nat) : Dev :=
  if 255 < slot then d.put R.CIP_KEY_CMD F.CIP_KEY_CMD_result 4
  else (d.clearKeySlot slot).put R.CIP_KEY_CMD F.CIP_KEY_CMD_result 1

/-- A class's limit and protections are written: slots that already meet a lowered limit lock (R371). -/
def Dev.classWrite (d : Dev) (c : Nat) (w : Word) : Dev :=
  let old := d.classLimit c
  let d := d.setWord (R.CIP_CLASS c) (w &&& 0xC0FFFFFF)
  if d.classLimit c < old then
    d.cip.slots.foldl (fun d p => if p.2.cls == c && !p.2.locked && decide (d.classLimit c ≤ p.2.uses) then d.lockSlot p.1 p.2 else d) d
  else d

/-- A node slot for a load: an empty one, else the least recently used that is neither locked nor named by a job in flight (R369). -/
def Dev.freeNodeSlot (d : Dev) : Option Nat :=
  let e := smGap d.cip.slots 256
  if e < 4096 then some e
  else
    ((d.cip.slots.filter (fun p => decide (256 ≤ p.1) && !p.2.locked && !d.cip.jobs.any (fun j => j.slot == p.1))).foldl
      (fun (best : Option (Nat × Nat)) p => match best with
        | none => some (p.1, p.2.used)
        | some b => if p.2.used < b.2 then some (p.1, p.2.used) else some b) none).map (·.1)

/-- A node slot holds the key of a node. -/
def Dev.ownsSlot (d : Dev) (addr s : Nat) : Bool := match d.keySlot s with
  | some k => decide (256 ≤ s) && k.owner == addr
  | none => false

/-- The slot of a node's key, loaded where the handle names none that holds it (R369, R370): a result of 0 with the slot, or the result the job ends
with. -/
def Dev.addrKey (d : Dev) (addr handle : Nat) : Dev × Nat × Nat :=
  if d.ownsSlot addr handle then (d, 0, handle)
  else if d.cip.slots.any (fun p => decide (256 ≤ p.1) && p.2.locked && p.2.owner == addr) then (d, 3, 0)
  else match d.freeNodeSlot with
    | none => (d.bump R.CIP_KEY_STAT F.CIP_KEY_STAT_load_refused, 4, 0)
    | some s =>
      let key := if d.memUp then match smFind d.sched.registry addr with
          | some e => (d.unwrap e.key).map (fun k => (k, e.size != 0))
          | none => none
        else none
      match key with
      | none => (d.bump R.CIP_KEY_STAT F.CIP_KEY_STAT_unwrap_fail, 4, 0)
      | some (k, big) =>
        (d.setKeySlot s ⟨k, big, d.get R.CIP_CTRL F.CIP_CTRL_node_class, 0, false, addr, d.cip.useNo⟩, 0, s)

/-- The slot of a context's node key; the context's key_handle names it from then on (R369). -/
def Dev.nodeKey (d : Dev) (ctx : Nat) : Dev × Nat × Nat :=
  match smFind d.sched.ctxs ctx with
  | none => (d.bump R.CIP_KEY_STAT F.CIP_KEY_STAT_unwrap_fail, 4, 0)
  | some x => match d.addrKey x.address x.keyHandle with
    | (e, 0, s) =>
      if s = x.keyHandle then (e, 0, s)
      else ({ e with sched := { e.sched with ctxs := smInsert ctx { x with keyHandle := s } e.sched.ctxs } }, 0, s)
    | r => r

/-- The key of a host slot: 4 while it holds none, 3 while it is locked. -/
def Dev.hostKey (d : Dev) (slot : Nat) : Nat :=
  if 255 < slot then 4 else match d.keySlot slot with
    | none => 4
    | some k => if k.locked then 3 else 0

/-- A job's key and its use: the slot's key where the job is accepted, else the result the job ends with, r being that of the slot's resolution (R371). -/
def Dev.takeKey (d : Dev) (r slot : Nat) : Dev × Nat × Bytes :=
  match d.keySlot slot with
  | none => (d, if r = 0 then 4 else r, [])
  | some k => if r != 0 then (d, r, []) else if k.locked then (d, 3, []) else (d.useSlot slot k, 0, k.key)

/-! ## Native jobs (R373 to R378) -/

/-- The fields of a job descriptor (R375). -/
def jobSpec (w : List Nat) : CipSpec :=
  let w0 := w.getD 0 0
  ⟨w0 / 2 ^ 28, w0.testBit 27, bitsOf 23 20 w0 + 1, bitsOf 19 16 w0⟩
def jobLen (w : List Nat) : Nat := w.getD 1 0 % 65536
def jobAadLen (w : List Nat) : Nat := w.getD 1 0 / 65536
def jobNode (w : List Nat) : Bool := (w.getD 0 0).testBit 26
def jobKey (w : List Nat) : Nat := w.getD 0 0 % 65536
def jobDram (w : List Nat) (i : Nat) : Bool := (w.getD 5 0).testBit i
def jobIv (w : List Nat) : Bytes := (w.drop 6).flatMap (fun x => toLE 4 x)
def CipSpec.tagged (x : CipSpec) : Bool := decide (3 ≤ x.mode)

/-- A range that a job may touch. -/
def Dev.jobRange (d : Dev) (dram : Bool) (a n : Nat) : Bool := n == 0 || (if dram then d.dramOk a n else coreRange a n)

/-- The descriptor obeys R373 and R375. -/
def Dev.jobOk (d : Dev) (w : List Nat) : Bool :=
  let x := jobSpec w
  let len := jobLen w
  x.ok len (jobAadLen w)
    && d.jobRange (jobDram w 0) (w.getD 2 0) (len + if x.tagged && x.dec then x.tag else 0)
    && d.jobRange (jobDram w 1) (w.getD 3 0) (x.outLen len + if x.tagged && !x.dec then x.tag else 0)
    && d.jobRange (jobDram w 2) (w.getD 4 0) (jobAadLen w)

/-- A completed job's entry in its core's result FIFO; an entry that a full FIFO has no place for is lost, the new or the oldest: the spec does not say. -/
def Dev.pushResult (d : Dev) (c result outLen : Nat) : Dev :=
  let e := result * 2 ^ 28 + 2 ^ 27 + outLen
  let fifo := smGet (fun _ => []) d.cip.results c
  let set (d : Dev) (q : List Nat) : Dev := { d with cip := { d.cip with results := smSet (fun _ => []) d.cip.results c q } }
  if fifo.length < 4 then set d (fifo ++ [e])
  else
    let (b, d) := d.takeBit
    set d (if b then fifo else fifo.tail ++ [e])

/-- The error counts of CIP_ERRS. -/
def Dev.countResult (d : Dev) (result : Nat) : Dev :=
  if result = 1 then d.bump R.CIP_ERRS F.CIP_ERRS_tag_fail
  else if 3 ≤ result && result ≤ 6 then d.bump R.CIP_ERRS F.CIP_ERRS_refused
  else d

/-- A completion reaches the core: its result entry and its interrupt (R376). -/
def Dev.jobDone (d : Dev) (c result outLen : Nat) : Dev :=
  ((d.countResult result).pushResult c result outLen).irq c (if result = 0 then 2 else 3)

/-- Completions already decided leave as soon as no job of their core is ahead of them (R376). The fuel is the number of jobs. -/
def Dev.flushEarly (d : Dev) (c : Nat) : Nat → Dev
  | 0 => d
  | n + 1 =>
    match d.cip.jobs.find? (fun j => j.who == c) with
    | none => d
    | some j => match j.early with
      | none => d
      | some r =>
        let d := { d with cip := { d.cip with jobs := d.cip.jobs.erase j } }
        (d.jobDone c r 0).flushEarly c n

/-- The jobs a core has outstanding. -/
def Dev.jobsOf (d : Dev) (c : Nat) : Nat := (d.cip.jobs.filter (fun j => j.who == c)).length

/-- The staged descriptor of a core's job window. -/
def Dev.stagedJob (d : Dev) (c : Nat) : List Nat := (List.range 10).map (fun i => (d.word (0x105000000 + 0x1000 * c + 4 * i)).toNat)

/-- A write to CJ_SUBMIT queues the staged descriptor; a fifth job stalls the core (R376). Answers whether it was taken. -/
def Dev.cipSubmit (d : Dev) (c : Nat) : Dev × Bool :=
  if 4 ≤ d.jobsOf c then (d, false)
  else
    let w := d.stagedJob c
    let add (d : Dev) (slot : Nat) (key : Bytes) (early : Option Nat) : Dev :=
      let d := { d with cip := { d.cip with jobs := d.cip.jobs ++ [({ who := c, desc := w, slot, key, early, started := false } : CipJob)] } }
      d.flushEarly c d.cip.jobs.length
    if !d.jobOk w then (add d 0 [] (some 5), true)
    else
      let (d, r, slot) := if jobNode w then d.nodeKey (jobKey w) else (d, d.hostKey (jobKey w), jobKey w)
      match d.takeKey r slot with
      | (d, 0, key) => (add d slot key none, true)
      | (d, r, _) => (add d 0 [] (some r), true)

/-- The engine gives the oldest job not yet started to a free core (R376). -/
def Dev.cipStart (d : Dev) : Dev :=
  if 16 ≤ (d.cip.jobs.filter (·.started)).length then d
  else match d.cip.jobs.findIdx? (fun j => !j.started && j.early.isNone) with
    | none => d
    | some i => { d with cip := { d.cip with jobs := d.cip.jobs.modify i (fun j => { j with started := true }) } }

/-- Bytes that a job reads. -/
def Dev.jobRead (d : Dev) (c : Nat) (dram : Bool) (a n : Nat) : Bytes :=
  if dram then d.dramRead a n else (d.mcore c).bytesAt a n

/-- Bytes that a job writes. -/
def Dev.jobWrite (d : Dev) (c : Nat) (dram : Bool) (a : Nat) (bs : Bytes) : Dev :=
  if dram then d.dramWrite a bs else d.setMcore c ((d.mcore c).store a bs)

/-- The data output before padding is checked: what streams out as the blocks pass. -/
def CipSpec.raw (x : CipSpec) (key iv aad text : Bytes) : Bytes :=
  if x.mode = 2 && x.dec then toBytes (cbcDec (aesRoundKeys (toNats key)) (toNats (padTo 16 iv)) (chunksOf 16 (toNats text))).flatten
  else (x.run key iv aad text).1

/-- A job runs to its end (R373, R374, R378): its writes, its result and its output length. -/
def Dev.jobRun (d : Dev) (j : CipJob) : Dev × Nat × Nat :=
  let w := j.desc
  let x := jobSpec w
  let len := jobLen w
  let src := w.getD 2 0
  let dst := w.getD 3 0
  let verify := x.tagged && x.dec
  let srcLen := len + if verify then x.tag else 0
  let aad := d.jobRead j.who (jobDram w 2) (w.getD 4 0) (jobAadLen w)
  let input := d.jobRead j.who (jobDram w 0) src srcLen
  let text := input.take len
  let cleanSrc := if jobDram w 0 then d.cleanBytes src srcLen else srcLen
  let cleanAad := if jobDram w 2 then d.cleanBytes (w.getD 4 0) (jobAadLen w) else jobAadLen w
  let out (d : Dev) (bs : Bytes) : Dev := d.jobWrite j.who (jobDram w 1) dst bs
  if cleanAad < jobAadLen w || cleanSrc < srcLen then
    -- the bytes written before the stop lie within the blocks read clean; how many is left open
    let (v, d) := d.takeWord
    let most := if cleanAad < jobAadLen w then 0 else min cleanSrc len / 16 * 16
    let n := v.toNat % (most + 1)
    (out d ((x.raw j.key (jobIv w) aad text).take n), 6, n)
  else
    let (data, tag, padOk) := x.run j.key (jobIv w) aad text
    if !padOk then (out d data, 2, data.length)
    else if verify then
      if tag = input.drop len then (out d data, 0, data.length)
      else (out d (List.replicate data.length 0), 1, data.length)
    else (out d (data ++ tag), 0, data.length)

/-- The oldest job of a core ends; with it the decided ones behind it (R376). -/
def Dev.cipComplete (d : Dev) (c : Nat) : Dev :=
  match d.cip.jobs.find? (fun j => j.who == c) with
  | none => d
  | some j =>
    if !j.started then d
    else
      let (d, r, n) := { d with cip := { d.cip with jobs := d.cip.jobs.erase j } }.jobRun j
      (d.jobDone c r n).flushEarly c d.cip.jobs.length

/-- A read of CJ_RESULT pops the oldest entry (R376). -/
def Dev.readCjResult (d : Dev) (c : Nat) : Dev :=
  match smGet (fun _ => []) d.cip.results c with
  | [] => d.answer 0
  | e :: rest => { d.answer (BitVec.ofNat 32 e) with cip := { d.cip with results := smSet (fun _ => []) d.cip.results c rest } }

/-- The stream interface's owner code of a requestor: 1 the Command Port (64), 2 + n core n (R379). -/
def strCode (who : Nat) : Nat := if who = 64 then 1 else 2 + who

/-- What the engine does with a stopped core: its jobs, results and claim go (R377). -/
def Dev.cipDrop (d : Dev) (c : Nat) : Dev :=
  let d := { d with cip := { d.cip with
    jobs := d.cip.jobs.filter (fun j => j.who != c)
    results := smErase d.cip.results c } }
  if d.get R.STR_OWNER F.STR_OWNER_owner = strCode c then d.put R.STR_OWNER F.STR_OWNER_owner 0 else d

/-! ## The root key (R367, R475) -/

/-- The key check value; 0 while unprogrammed (R367). -/
def Dev.kcv (d : Dev) : Nat :=
  if d.rootProgrammed then ofBE (toBytes ((aesEncK (aesRoundKeys (toNats d.rootBytes)) (List.replicate 16 0)).take 3)) else 0

/-- CIP_ROOT_CTRL.blow is set (R367). -/
def Dev.rootBlowStart (d : Dev) : Dev :=
  if d.rootBlow.isSome then d
  else if d.rootProgrammed then d.put R.CIP_ROOT_CTRL F.CIP_ROOT_CTRL_result 2
  else
    let key := ofLE ((List.range 8).flatMap (fun w => toLE 4 (d.word (R.CIP_ROOT_KEY w)).toNat))
    { d.put R.CIP_ROOT_CTRL F.CIP_ROOT_CTRL_blow 1 with rootBlow := some key }

/-- The blow ends: the key fuses that took are set, and the programmed fuse only after every key fuse has verified (R475). -/
def Dev.rootBlowDone (d : Dev) (failed : Nat) : Dev :=
  match d.rootBlow with
  | none => d
  | some key =>
    let blown := d.rootKey ||| (key ^^^ (key &&& failed))
    let d := { d.put R.CIP_ROOT_CTRL F.CIP_ROOT_CTRL_blow 0 with rootBlow := none, rootKey := blown }
    if blown = key then { d.put R.CIP_ROOT_CTRL F.CIP_ROOT_CTRL_result 1 with rootProgrammed := true }
    else d.put R.CIP_ROOT_CTRL F.CIP_ROOT_CTRL_result 3

/-! ## The stream interface (R379) -/

/-- A requestor may reach the stream registers: no other holds the claim. -/
def Dev.strMay (d : Dev) (who : Nat) : Bool :=
  let o := d.get R.STR_OWNER F.STR_OWNER_owner
  o == 0 || o == strCode who

/-- A write to STR_OWNER: 1 claims, 0 releases. -/
def Dev.strOwner (d : Dev) (who v : Nat) : Dev :=
  let o := d.get R.STR_OWNER F.STR_OWNER_owner
  if v = 1 && o = 0 then d.put R.STR_OWNER F.STR_OWNER_owner (strCode who)
  else if v = 0 && o = strCode who then d.put R.STR_OWNER F.STR_OWNER_owner 0
  else d

/-- The kind of a stream job. -/
def StreamJob.spec (j : StreamJob) : CipSpec := ⟨j.mode, j.dec, j.tagLen, j.nLen⟩

/-- A stream job's input taken so far: its AAD, and its data bytes in whole words. -/
def StreamJob.aad (j : StreamJob) : Bytes := (j.input.take (4 * ceilDiv j.aadLen 4)).take j.aadLen
def StreamJob.data (j : StreamJob) : Bytes := (j.input.drop (4 * ceilDiv j.aadLen 4)).take j.len
def StreamJob.wordsNeeded (j : StreamJob) : Nat := ceilDiv j.aadLen 4 + ceilDiv j.len 4
def StreamJob.all (j : StreamJob) : Bool := decide (j.wordsNeeded ≤ j.input.length / 4)

/-- Output bytes that have left the core while the job runs: whole blocks in CBC, the last one withheld in a decryption. -/
def StreamJob.ready (j : StreamJob) : Bytes :=
  match j.mode with
  | 5 => []
  | 2 =>
    let n := j.data.length / 16 * 16
    let n := if j.dec && n = j.len then n - 16 else n
    if j.dec then j.spec.raw j.key j.iv [] (j.data.take n)
    else toBytes (cbcEnc (aesRoundKeys (toNats j.key)) (toNats (padTo 16 j.iv)) (chunksOf 16 (toNats (j.data.take n)))).flatten
  | _ => j.spec.raw j.key j.iv j.aad j.data

/-- Output words that wait: whole words while the job runs, all at its end. -/
def Dev.strOut (d : Dev) : Bytes :=
  match d.cip.stream with
  | none => []
  | some j =>
    if d.flag R.STR_STATUS F.STR_STATUS_busy then (j.ready.take (j.ready.length / 4 * 4)).drop j.outGiven
    else ((j.spec.run j.key j.iv j.aad j.data).1).drop j.outGiven

/-- STR_STATUS.dout_avail and din_free: output beyond the 64 waiting words holds input back. -/
def Dev.strAvail (d : Dev) : Nat := min 64 (ceilDiv d.strOut.length 4)
def Dev.strFree (d : Dev) : Nat := 64 - min 64 (ceilDiv d.strOut.length 4 - 64)

/-- A stream job ends with a result and an output length. -/
def Dev.strFinish (d : Dev) (result outLen : Nat) : Dev :=
  let d := (d.put R.STR_STATUS F.STR_STATUS_result result).put R.STR_STATUS F.STR_STATUS_busy 0
  ((d.put R.STR_CTRL F.STR_CTRL_start 0).put R.STR_OUTLEN F.STR_OUTLEN_out_len outLen).countResult result

/-- STR_CTRL is written with start set: the job is accepted and starts, or ends at once with its result. -/
def Dev.strStart (d : Dev) (w : Word) : Dev :=
  if d.flag R.STR_STATUS F.STR_STATUS_busy then d
  else
    let d := d.setWord R.STR_CTRL (w &&& 0xF8FFFF00)
    let x : CipSpec := ⟨d.get R.STR_CTRL F.STR_CTRL_mode, d.flag R.STR_CTRL F.STR_CTRL_dir, d.get R.STR_CTRL F.STR_CTRL_tag_len + 1,
      d.get R.STR_CTRL F.STR_CTRL_n_len⟩
    let len := d.get R.STR_LEN F.STR_LEN_len
    let aadLen := d.get R.STR_LEN F.STR_LEN_aad_len
    let slot := d.get R.STR_CTRL F.STR_CTRL_slot
    let none_ (d : Dev) (r : Nat) : Dev := { d with cip := { d.cip with stream := none } }.strFinish r 0
    if !x.ok len aadLen then none_ d 5
    else match d.keySlot slot with
      | none => none_ d 4
      | some k =>
        if k.locked then none_ d 3
        else
          let iv := (List.range 4).flatMap (fun i => toLE 4 (d.word (R.STR_IV i)).toNat)
          let tag := (List.range 4).flatMap (fun i => toLE 4 (d.word (R.STR_TAG i)).toNat)
          let d := d.useSlot slot k
          let d := { d with cip := { d.cip with stream := some (⟨x.mode, x.dec, x.tag, x.nonce, k.key, len, aadLen, iv, tag.take x.tag, [], 0⟩ : StreamJob) } }
          (d.put R.STR_CTRL F.STR_CTRL_start 1).setWord R.STR_STATUS (BitVec.ofNat 32 (2 ^ 27))

/-- A word reaches STR_DIN; while din_free is 0 the writer waits. Answers whether it was taken. -/
def Dev.strDin (d : Dev) (w : Word) : Dev × Bool :=
  match d.cip.stream with
  | none => (d, true)
  | some j =>
    if !d.flag R.STR_STATUS F.STR_STATUS_busy || j.all then (d, true)
    else if d.strFree = 0 then (d, false)
    else ({ d with cip := { d.cip with stream := some { j with input := j.input ++ toLE 4 w.toNat } } }, true)

/-- A read of STR_DOUT: the next word, a wait while none is available, 0 once the job has ended. Answers whether it completed. -/
def Dev.strDout (d : Dev) : Dev × Bool :=
  match d.cip.stream with
  | none => (d.answer 0, true)
  | some j =>
    let out := d.strOut
    if out.isEmpty then
      if d.flag R.STR_STATUS F.STR_STATUS_busy then (d, false) else (d.answer 0, true)
    else ({ d.answer (BitVec.ofNat 32 (leAt out 0 4)) with cip := { d.cip with stream := some { j with outGiven := j.outGiven + 4 } } }, true)

/-- The stream job ends: its result, and the tag of a generate job. -/
def Dev.strEnd (d : Dev) : Dev :=
  match d.cip.stream with
  | none => d
  | some j =>
    if !d.flag R.STR_STATUS F.STR_STATUS_busy || !j.all then d
    else
      let (data, tag, padOk) := j.spec.run j.key j.iv j.aad j.data
      let d := if j.spec.tagged && !j.dec then
          (List.range 4).foldl (fun d i => d.setWord (R.STR_TAG i) (BitVec.ofNat 32 (leAt (padTo 16 tag) (4 * i) 4))) d
        else d
      d.strFinish (if !padOk then 2 else if j.spec.tagged && j.dec && tag != j.tag then 1 else 0) data.length

/-- STR_CTRL.abort ends the job with result 7. -/
def Dev.strAbort (d : Dev) : Dev :=
  if d.flag R.STR_STATUS F.STR_STATUS_busy then
    let n := match d.cip.stream with
      | some j => j.ready.length
      | none => 0
    d.strFinish 7 n
  else d

/-- A read of a stream register at an offset of the interface; none where it waits for a word (R379). -/
def Dev.strRead (d : Dev) (off : Nat) : Dev × Option Word :=
  if off = 0x24 then
    let (d', ok) := d.strDout
    ({ d' with rdata := d.rdata }, if ok then some d'.rdata else none)
  else if off = 0x20 then (d, some 0)
  else if off = 0x08 then
    (d, some (BitVec.ofNat 32 ((d.word R.STR_STATUS).toNat / 2 ^ 27 * 2 ^ 27 + d.strAvail * 256 + d.strFree)))
  else (d, some (d.word (R.STR_OWNER + off)))

/-- A write to a stream register at an offset of the interface; false where it waits (R379). -/
def Dev.strWrite (d : Dev) (who off : Nat) (w : Word) : Dev × Bool :=
  if off = 0x00 then (d.strOwner who w.toNat, true)
  else if off = 0x04 then
    let d := if w.getLsbD 1 then d.strAbort else d
    if w.getLsbD 0 then (d.strStart w, true)
    else (if d.flag R.STR_STATUS F.STR_STATUS_busy then d else d.setWord R.STR_CTRL (w &&& 0xF8FFFF00), true)
  else if off = 0x20 then d.strDin w
  else if off = 0x0C || (0x10 ≤ off && off < 0x20) || (0x30 ≤ off && off < 0x40) then (d.setWord (R.STR_OWNER + off) w, true)
  else (d, true)

/-! ## Inspection -/

/-- A write to CIP_SLOT_IDX snapshots a slot (R365). -/
def Dev.slotIdx (d : Dev) (n : Nat) : Dev :=
  let n := n % 4096
  let d := d.put R.CIP_SLOT_IDX F.CIP_SLOT_IDX_slot n
  match d.keySlot n with
  | none => (d.setWord R.CIP_SLOT_INFO 0).setWord R.CIP_SLOT_OWNER 0
  | some k =>
    let info := 2 ^ 31 + bitOf k.locked * 2 ^ 30 + k.cls % 4 * 2 ^ 28 + bitOf k.big * 2 ^ 27 + k.uses
    (d.setWord R.CIP_SLOT_INFO (BitVec.ofNat 32 info)).setWord R.CIP_SLOT_OWNER (BitVec.ofNat 32 k.owner)

/-- An uncorrectable error in a slot clears it (R466). -/
def Dev.keySlotLost (d : Dev) (n : Nat) : Dev := if (d.keySlot n).isSome then (d.clearKeySlot n).fatal 9 0 else d

end Sys2Proof.Machine
end

