-- ==== Sys2Proof/Machine/PupFault.lean ====
section
/-! DEFINITION. The Puppeteer's fault handling: faults, re-dispatch, abandonment, self-test, Understudies, retirement and die loss
(09_puppeteer.md, R245 to R253), and the end of a task on a core (R281). -/

namespace Sys2Proof.Machine

open Sys2Proof

/-- The record of an abandoned receive task: status 12, filled as R248 lists. -/
def Task.lostRecord (t : Task) : Bytes :=
  let x := t.info
  let r : BurstRec := {
    address := x.node, start := x.start, radioA := x.radioA, mode := x.mode, pilot := x.pilot, join := t.kind == 2, dual := t.kind == 1,
    status := 12, group := modeGroupCode x.mode, k0A := x.k0A, radioB := if t.kind = 1 then x.radioB else 0,
    k0B := if t.kind = 1 then x.k0B else 0, copyA := t.kind != 1 || t.has 1, copyB := t.kind == 1 && t.has 2, createSeq := t.seq }
  r.bytes

/-- A receive task: it emits a record (R233). -/
def Task.receives (t : Task) : Bool := decide (t.kind ≤ 2)

/-- A task is abandoned (R248): a receive task leaves its status 12 record, a transmission nothing; either waits for its release. -/
def Dev.abandonTask (d : Dev) (i : Nat) (t : Task) : Dev :=
  let out := if t.receives then TaskOut.record t.lostRecord [] none else TaskOut.none
  ((d.setTask i { t with state := 4, out := out }).bump R.PUP_FAULT_STAT F.PUP_FAULT_STAT_abandoned).recovery 2

/-- A task taken back waits to be placed again before any other, its flow still in service; the placement raises event 62 where it is a recovery
action of its own (R247). -/
def Dev.redoTask (d : Dev) (i : Nat) (t : Task) (excl : Nat) (ev : Bool) : Dev :=
  { d.setTask i t with pup := { (d.setTask i t).pup with redo := d.pup.redo ++ [(i, excl, ev)] } }

/-- The running task of a faulted core is taken back (R247), or abandoned on its second fault (R248). -/
def Dev.takeBackRun (d : Dev) (c : Nat) : Dev :=
  match (d.pcore c).run with
  | none => d
  | some i => match d.task i with
    | none => d
    | some t => if t.attempt = 0 then d.redoTask i { t with attempt := 1 } c true else d.abandonTask i t

/-- The queued task of a core is taken back: it did not start, so it keeps its attempt and its place (R247). -/
def Dev.takeBackQueued (d : Dev) (c : Nat) : Dev :=
  match (d.pcore c).queued with
  | none => d
  | some (i, _) => match d.task i with
    | none => d
    | some t =>
      if t.attempt = 0 then (d.setTask i { t with state := 2 }).setFlow t.flow { d.flow t.flow with inService := false }
      else d.redoTask i t c false

/-- The core stops; what it had under way is gone (R246, R377). -/
def Dev.stopCore (d : Dev) (c : Nat) : Dev :=
  (d.setMcore c { d.mcore c with running := false, stopped := true, tru := [], truWait := none, stores := [], pipe := [] }).cipDrop c

/-- The Puppeteer takes a fault of a core (R246): 1 cycle budget, 2 uncorrectable ECC, 3 fatal trap. -/
def Dev.faultTake (d : Dev) (c cause : Nat) : Dev :=
  let p := d.pcore c
  let t := (p.run.bind d.task)
  let last := cause * 2 ^ 28 + (t.map (·.kind)).getD 0 * 65536 + (t.map (·.attempt)).getD 0 * 128 + c
  let d := (d.stopCore c).setWord R.PUP_FAULT_LAST (BitVec.ofNat 32 last)
  let d := (d.bump R.PUP_FAULT_STAT F.PUP_FAULT_STAT_faults).raise 34 c cause
  let d := (d.takeBackRun c).takeBackQueued c
  (d.setPcore c { p with
    st := if p.st = 0 then 2 else p.st, run := none, queued := none, fault := 0, done := none
    faults := (p.faults.filter (fun x => decide (d.xo < x + 1000000000))) ++ [d.xo] }).dispatch

/-- The lowest-numbered Understudy, on the die of a core first (R249). -/
def Dev.nextUnderstudy (d : Dev) (c : Nat) : Option Nat :=
  let us := (List.range 64).filter (fun u => (d.pcore u).st == 1 && d.coreDieUp u)
  (us.find? (fun u => coreDie u == coreDie c)).or us.head?

/-- Every flow whose last core is c has u as its last core: those the Puppeteer holds, and those of saved contexts (R249). -/
def Dev.renameCore (d : Dev) (c u : Nat) : Dev :=
  let now (l : Option Nat) : Option Nat := if l = some c then some u else l
  { d with
    pup := { d.pup with flows := d.pup.flows.map (fun p => (p.1, { p.2 with last := now p.2.last })) }
    sched := { d.sched with registry := d.sched.registry.map (fun p => (p.1, { p.2 with saved := p.2.saved.map (fun s => (s.1, s.2.1, now s.2.2)) })) } }

/-- A retired core's place goes to an Understudy, which its flows treat as their last core (R249). -/
def Dev.understudyIn (d : Dev) (c : Nat) : Dev :=
  match d.nextUnderstudy c with
  | none => d.raise 36 c
  | some u =>
    let d := d.setPcore u { d.pcore u with st := 0 }
    ((d.renameCore c u).raise 35 u).dispatch

/-- The outcome of PUP_CORE_CMD. -/
def Dev.coreCmd (d : Dev) (result : Nat) : Dev :=
  (d.put R.PUP_CORE_CMD F.PUP_CORE_CMD_result result).put R.PUP_CORE_CMD F.PUP_CORE_CMD_go 0

/-- A core is retired, and an Understudy takes its place (R249). -/
def Dev.retireCore (d : Dev) (c : Nat) : Dev :=
  let was := (d.pcore c).retiring
  let d := (d.setPcore c { d.pcore c with st := 3, retiring := false }).understudyIn c
  if was then d.coreCmd 1 else d

/-- A self-test ends (R249, R252). -/
def Dev.selfTestDone (d : Dev) (c : Nat) (pass : Bool) : Dev :=
  let p := d.pcore c
  if p.st != 2 then d
  else
    let d := d.setMcore c { d.mcore c with stopped := false }
    if p.returning then
      (d.setPcore c { p with st := if pass then 1 else 3, returning := false }).coreCmd (if pass then 1 else 4)
    else if pass && !p.retiring && decide ((p.faults.filter (fun x => decide (d.xo < x + 1000000000))).length < 3) then
      (d.setPcore c { p with st := 0 }).dispatch
    else d.retireCore c

/-- A retire command (R252): refused for a core that is not active and for the last active one. -/
def Dev.coreRetire (d : Dev) (c : Nat) : Dev :=
  let d := ((d.put R.PUP_CORE_CMD F.PUP_CORE_CMD_core c).put R.PUP_CORE_CMD F.PUP_CORE_CMD_op 1).put R.PUP_CORE_CMD F.PUP_CORE_CMD_go 1
  if !d.coreActive c then d.coreCmd 2
  else if ((List.range 64).filter d.coreActive).length = 1 then d.coreCmd 3
  else
    let d := d.takeBackQueued c
    let d := (d.setPcore c { d.pcore c with queued := none, retiring := true }).dispatch
    if (d.pcore c).run.isNone then d.retireCore c else d

/-- A return command (R252): a retired core runs the self-test. -/
def Dev.coreReturn (d : Dev) (c : Nat) : Dev :=
  let d := ((d.put R.PUP_CORE_CMD F.PUP_CORE_CMD_core c).put R.PUP_CORE_CMD F.PUP_CORE_CMD_op 2).put R.PUP_CORE_CMD F.PUP_CORE_CMD_go 1
  if (d.pcore c).st = 3 && d.coreDieUp c then d.setPcore c { d.pcore c with st := 2, returning := true, faults := [] }
  else d.coreCmd 2

/-- A write to PUP_CORE_CMD with go set and another op (R252). -/
def Dev.coreCmdOther (d : Dev) : Dev := d.coreCmd 2

/-- The tasks of one core of a lost die are placed elsewhere with their attempt unchanged; one that had not started keeps its place (R247, R251). -/
def Dev.evacuateCore (d : Dev) (c : Nat) : Dev :=
  let p := d.pcore c
  let d := match p.run with
    | none => d
    | some i => match d.task i with
      | none => d
      | some t => d.redoTask i t 64 false
  let d := (d.takeBackQueued c).setPcore c { p with run := none, queued := none, fault := 0, done := none }
  (d.setMcore c { d.mcore c with running := false, tru := [], truWait := none, stores := [], pipe := [] }).cipDrop c

/-- A core that a retire command had left its running task has none any more, and is retired (R252). -/
def Dev.retireIdle (d : Dev) (c : Nat) : Dev := if (d.pcore c).retiring && (d.pcore c).run.isNone then d.retireCore c else d

/-- A baseband die goes down or is isolated (R251): every task in service there is re-dispatched, one recovery action in all. -/
def Dev.basebandLost (d : Dev) (die : Nat) : Dev :=
  let cs := (List.range 64).filter (fun c => coreDie c + 4 == die)
  let had := cs.any (fun c => (d.pcore c).run.isSome || (d.pcore c).queued.isSome)
  let d := cs.foldl Dev.evacuateCore d
  cs.foldl Dev.retireIdle ((if had then d.recovery 2 else d).dispatch)

/-- A task ends with its outputs (R281): the core's stream claim ends (R379), and it stalls until the outputs are accepted. -/
def Dev.taskEnds (d : Dev) (c : Nat) (out : TaskOut) : Dev :=
  let d := if d.get R.STR_OWNER F.STR_OWNER_owner = strCode c then d.put R.STR_OWNER F.STR_OWNER_owner 0 else d
  d.setPcore c { d.pcore c with done := some out }

/-- A record and payload as the output buffer holds them when they are accepted (R280, R281); the firmware's are as it placed them. -/
def Core.outputs (k : Core) : TaskOut → TaskOut
  | .record _ _ none =>
    let r := k.bytesAt 0x20400 64
    .record r (k.bytesAt 0x20440 (min 255 (recLength r))) none
  | out => out

/-- The outputs are accepted once the core's transfers and cipher jobs have ended (R281): the task awaits release, and the queued
task starts. -/
def Dev.outputAccept (d : Dev) (c : Nat) : Dev :=
  let p := d.pcore c
  match p.done, p.run with
  | some out, some i =>
    if !(d.mcore c).tru.isEmpty || d.jobsOf c != 0 || (d.mcore c).slot != 0 then d
    else
      let d := match d.task i with
        | some t => d.setTask i { t with state := 4, out := (d.mcore c).outputs out }
        | none => d
      let d := d.setMcore c { d.mcore c with running := false }
      let d := d.setPcore c { p with run := none, queued := none, done := none }
      let d := match p.queued with
        | some (j, desc) => d.startOn c j desc
        | none => d
      if p.retiring then d.retireCore c else d.dispatch
  | _, _ => d

end Sys2Proof.Machine
end

