-- ==== Sys2Proof/Machine/SchedCells.lean ====
section
/-! DEFINITION. The access scheduler's contexts, reservations and cell search (08_access_scheduler.md, R201 to R212, R220; 07_seesaw.md, R189). -/

namespace Sys2Proof.Machine

open Sys2Proof

/-! ## Contexts (R201, R202) -/

/-- The context in use at an index. -/
def Dev.ctx (d : Dev) (i : Nat) : Option Ctx := smFind d.sched.ctxs i

/-- The device with a context replaced. -/
def Dev.setCtx (d : Dev) (i : Nat) (x : Ctx) : Dev := { d with sched := { d.sched with ctxs := smInsert i x d.sched.ctxs } }

/-- The context of a node address. -/
def Dev.ctxOf (d : Dev) (addr : Nat) : Option (Nat × Ctx) := d.sched.ctxs.find? (fun p => p.2.address == addr)

/-- The context of a node: on the die, or saved in the registry while its node need not join again; none where it has none yet. -/
def Dev.nodeOf (d : Dev) (addr : Nat) : Option Ctx :=
  match d.ctxOf addr, d.regEntry addr with
  | some (_, x), _ => some x
  | none, some e => if e.needJoin then none else e.saved.map (·.1)
  | none, none => none

/-- The device with the context of a node replaced where it stands. -/
def Dev.setNode (d : Dev) (addr : Nat) (x : Ctx) : Dev :=
  match d.ctxOf addr, d.regEntry addr with
  | some (i, _), _ => d.setCtx i x
  | none, some e => d.setReg addr { e with saved := e.saved.map (fun s => (x, s.2)) }
  | none, none => d

/-- The addresses of the nodes with a context, on the die or saved. -/
def Dev.nodes (d : Dev) : List Nat :=
  d.sched.ctxs.map (·.2.address)
    ++ (d.sched.registry.filter (fun p => p.2.saved.isSome && !p.2.needJoin && (d.ctxOf p.1).isNone)).map (·.1)

/-- The uplink grants form a pair: two radios, one start slot and period (R105, R202). -/
def Ctx.paired (x : Ctx) : Bool :=
  x.ulA.radio != 3 && x.ulB.radio != 3 && x.ulA.slot == x.ulB.slot && x.ulA.period == x.ulB.period

/-- The 128 bytes of a context with a dirty bit (R202); the firmware keeps its counts for R172 in its first two bytes. -/
def Ctx.bytes (x : Ctx) (fl : Flow) (dirty : Bool) : Bytes :=
  toLE 4 x.address
  ++ toLE 1 (bitOf x.loading * 64 + bitOf dirty * 32 + bitOf x.paired * 16 + bitOf x.dualCap * 8 + bitOf x.pilotHold * 4 + bitOf x.pilot * 2
    + bitOf x.valid)
  ++ toLE 1 (x.joinRadio * 64 + x.topMode * 8 + x.bands) ++ toLE 1 x.declL ++ toLE 1 x.mode ++ toLE 2 x.keyHandle ++ toLE 1 x.lastLqf ++ toLE 1 0
  ++ toLE 4 x.ulCount ++ toLE 4 x.dlCount ++ toLE 4 (wrapNat 32 x.offset)
  ++ x.ulA.bytes x.address ++ x.ulB.bytes x.address ++ x.dlG.bytes x.address
  ++ toLE 4 x.ulAnchor ++ toLE 4 x.dlAnchor ++ toLE 2 fl.seq ++ toLE 4 x.lastServed
  ++ toLE 4 (x.ctl.length * 2 ^ 17) ++ toLE 4 (x.dq.length * 2 ^ 17 + x.dq.headD 0) ++ toLE 4 (x.dq.getLastD 0)
  ++ toLE 1 (fl.last.getD 0) ++ toLE 1 (bitOf fl.inService) ++ toLE 2 0 ++ toLE 1 x.misses ++ toLE 1 x.goods ++ List.replicate 42 0

/-- A context differs from its registry image (R202, R206). -/
def Dev.ctxDirty (d : Dev) (i : Nat) (x : Ctx) : Bool := match d.regEntry x.address with
  | some e => e.image != x.bytes (d.flow i) false
  | none => true

/-- The 128 bytes of the context at index i as it stands (R202, R203). -/
def Dev.ctxBytes (d : Dev) (i : Nat) (x : Ctx) : Bytes := x.bytes (d.flow i) (d.ctxDirty i x)

/-! ## The registry in DRAM (R204) -/

/-- The 256 bytes of a registry entry (R204). -/
def RegEntry.bytes (e : RegEntry) (addr : Nat) : Bytes :=
  padTo 256 (padTo 128 (if e.image.isEmpty then toLE 4 addr else e.image) ++ padTo 40 e.key ++ toLE 4 e.size ++ toLE 4 e.joinCount ++ toLE 4 e.nextRun)

/-- The DRAM address of the registry entry at a place. -/
def Dev.regAddr (d : Dev) (slot : Nat) : Nat := d.get R.SCH_REG_BASE F.SCH_REG_BASE_base * 4096 + 256 * slot

/-- The lowest place of the registry that no entry holds. -/
def Dev.regFree (d : Dev) : Nat :=
  let used := d.sched.registry.map (·.2.slot)
  ((List.range (used.length + 1)).find? (fun s => !used.contains s)).getD 0

/-- A registry entry is replaced, and its 256 bytes are written to DRAM. -/
def Dev.storeReg (d : Dev) (addr : Nat) (e : RegEntry) : Dev := (d.setReg addr e).dramWrite (d.regAddr e.slot) (e.bytes addr)

/-- A registry entry is removed, and its place in DRAM zeroed. -/
def Dev.eraseReg (d : Dev) (addr : Nat) (e : RegEntry) : Dev :=
  { d with sched := { d.sched with registry := smErase d.sched.registry addr, reloads := d.sched.reloads.filter (· != addr) } }.dramWrite
    (d.regAddr e.slot) (List.replicate 256 0)

/-! ## Runs (R95, R105, R209) -/

/-- The grant gives a run in a superframe, from its anchor on. -/
def runsIn (anchor period sf : Nat) : Bool := decide (anchor ≤ sf) && (if period = 0 then anchor == sf else (sf - anchor) % period == 0)

/-- Slots of an uplink run: by its pilot bit (R105). -/
def Ctx.runLen (x : Ctx) (g : Grant) : Nat := runSlots g.mode x.declL (g.pilot || g.mode == 0)

/-- Reserved slots of an uplink run, with pilots on whatever its pilot bit, and of a downlink run (R209). -/
def Ctx.ulLen (x : Ctx) (g : Grant) : Nat := runSlots g.mode x.declL true
def dlLen (g : Grant) : Nat := runSlots g.mode (dlMaxL g.mode) (g.pilot || g.mode == 0)

/-- The centre frequency a radio is tuned to. -/
def Dev.fcOf (d : Dev) (r : Nat) : Nat := (d.radio r).fc

/-- The receive group start of an uplink grant under an estimate; it may lie below 0 (R166). -/
def Dev.rxGroup (d : Dev) (o : Int) (g : Grant) : Int := rxStart o (d.fcOf g.radio) g.k0 (modeGroup g.mode)

/-! ## Reservations (R210) -/

/-- The reservation of an uplink grant of a node, and of a downlink grant. -/
def Dev.ulResv (d : Dev) (x : Ctx) (g : Grant) (anchor period : Nat) : Resv :=
  ⟨g.radio, (d.rxGroup x.offset g).toNat, modeGroup g.mode, g.slot, x.ulLen g, anchor, period, false, false, 0⟩
def dlResv (g : Grant) (anchor period : Nat) : Resv :=
  ⟨g.radio, g.k0, modeGroup g.mode, g.slot, dlLen g, anchor, period, true, false, 0⟩

/-- The reservation of a grant. -/
def Dev.resvOf (d : Dev) (x : Ctx) (g : Grant) (anchor period : Nat) : Resv :=
  if g.dl then dlResv g anchor period else d.ulResv x g anchor period

/-- The reservations of a node: its grants in force, its entries carried, and its entries queued, whose phase is not known yet. -/
def Dev.nodeResv (d : Dev) (x : Ctx) : List Resv :=
  let ul := [x.ulA, x.ulB].filter (fun g => g.radio != 3)
  ul.map (fun g => d.ulResv x g x.ulAnchor g.period)
    ++ (if x.dlG.radio = 3 then [] else [dlResv x.dlG x.dlAnchor x.dlG.period])
    ++ (x.coming.filter (fun e => e.grant.radio != 3)).map (fun e => d.resvOf x e.grant e.eff e.grant.period)
    ++ (x.ctl.filter (fun e => e.grant.radio != 3)).map (fun e => d.resvOf x e.grant 0 1)

/-- Every reservation in force or held, but those of one node: contexts, nodes in the registry, and cells (R210, R220). -/
def Dev.reservations (d : Dev) (but_ : Nat) : List Resv :=
  let ctxs := d.sched.ctxs.filter (fun p => p.2.address != but_)
  let regs := d.sched.registry.filterMap (fun p => if p.1 = but_ || (d.ctxOf p.1).isSome then none else p.2.saved.map (·.1))
  ctxs.flatMap (fun p => d.nodeResv p.2) ++ regs.flatMap d.nodeResv ++ d.sched.cells

/-- The period with which a reservation counts: 2^32 for a one-off (R210). -/
def Resv.per (a : Resv) : Nat := if a.period = 0 then 2 ^ 32 else a.period

/-- Two reservations share a slot. -/
def Resv.slotsMeet (a b : Resv) : Bool := decide (a.slot < b.slot + b.len) && decide (b.slot < a.slot + a.len)

/-- Their anchors agree modulo the smaller period. -/
def Resv.phasesMeet (a b : Resv) : Bool := a.anchor % min a.per b.per == b.anchor % min a.per b.per

/-- Two reservations collide (R210). -/
def Resv.collides (a b : Resv) : Bool :=
  a.radio == b.radio && decide (a.k0 < b.k0 + b.n) && decide (b.k0 < a.k0 + a.n) && a.slotsMeet b && a.phasesMeet b

/-- The greatest sum of sub-channels in one slot, over the superframes that agree with an anchor modulo a period. The fuel bounds the splitting of the
class into halves: periods are powers of two up to 2^32. -/
def maxLoad : Nat → List Resv → Nat → Nat → Nat
  | 0, rs, _, _ => rs.foldl (fun s r => s + r.n) 0
  | fuel + 1, rs, a, p =>
    let rs := rs.filter (fun r => r.anchor % min r.per p == a % min r.per p)
    if rs.all (fun r => decide (r.per ≤ p)) then rs.foldl (fun s r => s + r.n) 0
    else max (maxLoad fuel rs a (2 * p)) (maxLoad fuel rs (a + p) (2 * p))

/-- The share of the radio is never exceeded in any slot of a transmit run (R211). -/
def Dev.shareHolds (d : Dev) (rs : List Resv) (c : Resv) : Bool :=
  (List.range c.len).all (fun i =>
    let here := rs.filter (fun r => r.dl && !r.held && r.radio == c.radio && decide (r.slot ≤ c.slot + i) && decide (c.slot + i < r.slot + r.len))
    decide (maxLoad 33 here c.anchor c.per + c.n ≤ d.txShare c.radio))

/-! ## Direction maps (R207) -/

/-- A slot start repeated after a backward step: the scheduler serves it no second time (R57). -/
def Dev.slotServed (d : Dev) (a : Nat) : Bool := match d.clk.lastSlot with
  | some l => decide (a ≤ l)
  | none => false

/-- A slot's direction on a radio: 0 receive, 1 transmit, 2 neither. -/
def Dev.slotDir (d : Dev) (r s : Nat) : Nat :=
  if s = 0 then 1 else if s = d.clk.quiet then 2
  else if (d.word (R.SCH_DIR_ACT r (s / 32))).getLsbD (s % 32) then 1 else 0

/-- A slot's direction in a superframe: a quiet slot and maps that wait for the next boundary count from it on (R42, R208). -/
def Dev.slotDirIn (d : Dev) (r s sf : Nat) : Nat :=
  let map := if d.sched.dirTake && decide (superOf d.nt < sf) then R.SCH_DIR r (s / 32) else R.SCH_DIR_ACT r (s / 32)
  if s = 0 then 1 else if s = d.quietAt (sf * superNs) then 2 else if (d.word map).getLsbD (s % 32) then 1 else 0

/-- A run of a length at NT t lies wholly in transmit slots of its superframe (R42, R208). -/
def Dev.txRunInDir (d : Dev) (r t len : Nat) : Bool := (List.range len).all (fun i => d.slotDirIn r (slotOf t + i) (superOf t) == 1)

/-- A transmit run is served: it lies in transmit slots, and none of its slots was served before (R42, R57, R208). -/
def Dev.txRunServed (d : Dev) (r t len : Nat) : Bool := !d.slotServed (absSlot t) && d.txRunInDir r t len

/-- A run lies wholly in slots of its direction; it never includes slot 0 or the quiet slot (R95, R207). -/
def Dev.runInDir (d : Dev) (r slot len : Nat) (dl : Bool) : Bool :=
  decide (1 ≤ slot) && decide (slot + len ≤ 256) && (List.range len).all (fun i => d.slotDir r (slot + i) == bitOf dl)

/-- A group within the band that meets R68. -/
def groupFits (k : Int) (n : Nat) : Bool := decide (0 ≤ k) && decide (k + n ≤ 1536) && k.toNat % n == 0

/-- No sub-channel of a group belongs to a join detector (R211). -/
def Dev.noJoin (d : Dev) (r k n : Nat) : Bool := (List.range n).all (fun i => d.detMode r (k + i) != 1)

/-- A reservation meets R211 beside the others; join responses lie on their own join sub-channel. -/
def Dev.cellFits (d : Dev) (rs : List Resv) (c : Resv) (join : Bool) : Bool :=
  (join || d.noJoin c.radio c.k0 c.n) && !rs.any (fun r => c.collides r) && (!c.dl || d.shareHolds rs c)

/-- A grant's cell meets R211 with an anchor. -/
def Dev.grantFits (d : Dev) (rs : List Resv) (x : Ctx) (g : Grant) (anchor : Nat) : Bool :=
  let c := d.resvOf x g anchor g.period
  d.runInDir g.radio g.slot c.len g.dl && groupFits g.k0 (modeGroup g.mode) && (g.dl || groupFits (d.rxGroup x.offset g) (modeGroup g.mode))
    && d.cellFits rs c false

/-- The nominal group starts of a size, ascending. -/
def groupStarts (n : Nat) : List Nat := (List.range (1536 / n)).map (· * n)

/-- The first cell in ascending start slot, then ascending group start (R211). g gives the radio, mode, pilot, direction and period. -/
def Dev.findCell (d : Dev) (rs : List Resv) (x : Ctx) (g : Grant) (anchor : Nat) : Option Grant :=
  let len := if g.dl then dlLen g else x.ulLen g
  (List.range 256).findSome? (fun s =>
    if !d.runInDir g.radio s len g.dl then none
    else (groupStarts (modeGroup g.mode)).findSome? (fun k =>
      let c := { g with slot := s, k0 := k }
      if d.grantFits rs x c anchor then some c else none))

/-- The first cells of a pair: one start slot, a group on each radio (R189, R211). -/
def Dev.findPair (d : Dev) (rs : List Resv) (x : Ctx) (a b : Grant) (anchor : Nat) : Option (Grant × Grant) :=
  let len := x.ulLen a
  let at_ (g : Grant) (s : Nat) : Option Grant := (groupStarts (modeGroup g.mode)).findSome? (fun k =>
    let c := { g with slot := s, k0 := k }
    if d.grantFits rs x c anchor then some c else none)
  (List.range 256).findSome? (fun s =>
    if d.runInDir a.radio s len false && d.runInDir b.radio s len false then
      match at_ a s, at_ b s with
      | some a, some b => some (a, b)
      | _, _ => none
    else none)

/-- A period as the scheduler issues it: a power of two from 2^p_min_log2 to 32,768 (R210). -/
def Dev.periodOf (d : Dev) (want : Nat) : Nat :=
  min 32768 (max (2 ^ d.get R.SCH_GRID F.SCH_GRID_p_min_log2) (2 ^ Nat.log2 want))

/-- The other radio of a pair for a node: the lowest of its other declared bands whose radio is in service; none where no pair may be issued (R189). -/
def Dev.pairRadio (d : Dev) (x : Ctx) : Option Nat :=
  if d.flag R.SCH_SEE_CTRL F.SCH_SEE_CTRL_pair_en && x.dualCap && d.radioUp x.joinRadio then
    (List.range 3).find? (fun r => r != x.joinRadio && x.bands.testBit r && d.radioUp r)
  else none

/-- Uplink grants for a node: a pair where it applies and fits, else one grant on its join radio (R189, R191, R213). -/
def Dev.findUplink (d : Dev) (rs : List Resv) (x : Ctx) (mode period anchor : Nat) (pilot : Bool) : Option (Grant × Grant) :=
  let g (r : Nat) : Grant := ⟨r, mode, 0, 0, pilot, false, period⟩
  let pair := match d.pairRadio x with
    | some r => d.findPair rs x (g (min r x.joinRadio)) (g (max r x.joinRadio)) anchor
    | none => none
  match pair with
  | some p => some p
  | none => (d.findCell rs x (g x.joinRadio) anchor).map (fun a => (a, Grant.none))

/-- A downlink grant for a node on its join radio (R209, R213). -/
def Dev.findDownlink (d : Dev) (rs : List Resv) (x : Ctx) (mode anchor : Nat) : Option Grant :=
  d.findCell rs x ⟨x.joinRadio, mode, 0, 0, mode == 0 || d.flag R.SCH_GRID F.SCH_GRID_dl_pilot, true,
    2 ^ d.get R.SCH_GRID F.SCH_GRID_dl_period_log2⟩ anchor

/-- A pair may be issued to a node on the radios of its pair: the conditions of R189. -/
def Dev.pairAllowed (d : Dev) (x : Ctx) : Bool :=
  d.flag R.SCH_SEE_CTRL F.SCH_SEE_CTRL_pair_en && x.dualCap && x.bands.testBit x.ulA.radio && x.bands.testBit x.ulB.radio
    && d.radioUp x.ulA.radio && d.radioUp x.ulB.radio

/-- New cells for the uplink grants of a node that have to move, with a pilot bit: a pair as a pair where one may be issued and fits, else one grant on
its join radio (R189 to R191, R208, R211). -/
def Dev.moveUplink (d : Dev) (rs : List Resv) (x : Ctx) (pilot : Bool) (anchor : Nat) : Option (Grant × Grant) :=
  let one (g : Grant) : Option (Grant × Grant) := (d.findCell rs x { g with pilot := pilot } anchor).map (fun a => (a, Grant.none))
  if x.ulB.radio = 3 then one x.ulA
  else
    let pair := if d.pairAllowed x then d.findPair rs x { x.ulA with pilot := pilot } { x.ulB with pilot := pilot } anchor else none
    match pair with
    | some p => some p
    | none => one (if x.ulB.radio = x.joinRadio then x.ulB else x.ulA)

/-- Superframes a freed cell is held (R220); 0 acts as 1. -/
def Dev.revokeHold (d : Dev) : Nat := max 1 (d.get R.SCH_GRID F.SCH_GRID_revoke_hold)

/-- Cells are held from superframe sf (R220). -/
def Dev.holdCells (d : Dev) (cs : List Resv) (sf : Nat) : Dev :=
  { d with sched := { d.sched with cells := d.sched.cells ++ cs.map (fun c => { c with held := true, until_ := sf + d.revokeHold }) } }

/-- Cells whose hold, or one-off run, is over are free again. -/
def Dev.dropCells (d : Dev) (sf : Nat) : Dev :=
  { d with sched := { d.sched with cells := d.sched.cells.filter (fun c =>
      if c.held then decide (sf < c.until_) else decide (sf ≤ c.anchor)) } }

end Sys2Proof.Machine
end

