-- ==== Sys2Proof/Machine/Sched.lean ====
section
/-! DEFINITION. The access scheduler: grants and their reissue, admission, eviction and reload, the slot service, downlink windows, beacons, node and
registry commands (08_access_scheduler.md, R203 to R230; 07_seesaw.md, R189 to R193; 06_demodulation.md, R163, R168, R172). -/

namespace Sys2Proof.Machine

open Sys2Proof

/-! ## Grants that change (R105, R218 to R220) -/

/-- A new entry replaces a waiting one for the same direction and radio (R219); a revoke, which cancels every entry of its direction (R105), replaces all
that wait for it. -/
def Grant.replaces (g old : Grant) : Bool := old.dl == g.dl && (g.radio == 3 || old.radio == g.radio)

/-- An entry joins the control queue of a node, whether its context is on the die or saved (R219). -/
def Dev.queueEntry (d : Dev) (addr : Nat) (g : Grant) : Dev :=
  match d.nodeOf addr with
  | none => d
  | some x =>
    let i := ((d.ctxOf addr).map (·.1)).getD noFlow
    let keep := x.ctl.filter (fun e => !g.replaces e.grant)
    let d := d.setNode addr { x with ctl := (keep ++ [(⟨i, g, d.sched.stamp⟩ : CtlEntry)]).take 25 }
    { d with sched := { d.sched with stamp := d.sched.stamp + 1 } }

/-- A cell stays the same: radio, group, slot, mode and period. -/
def Grant.sameCell (a b : Grant) : Bool :=
  a.radio == b.radio && a.k0 == b.k0 && a.slot == b.slot && a.mode == b.mode && a.period == b.period && a.dl == b.dl

/-- The reservation a replaced grant frees; none where there was none or the new grant keeps its cell and phase. -/
def Dev.freedBy (d : Dev) (x : Ctx) (old new : Grant) (anchor eff : Nat) : List Resv :=
  if old.radio = 3 then []
  else if old.sameCell new && (d.resvOf x old anchor old.period).phasesMeet (d.resvOf x new eff new.period) then []
  else [d.resvOf x old anchor old.period]

/-- The uplink grants with a new entry: it replaces the entry on its radio (R105); the grant on the lower-numbered radio stands first. -/
def Ctx.putUplink (x : Ctx) (g : Grant) : Ctx :=
  let x := if x.ulA.radio = g.radio || x.ulA.radio = 3 then { x with ulA := g } else { x with ulB := g }
  if x.ulB.radio < x.ulA.radio then { x with ulA := x.ulB, ulB := x.ulA } else x

/-- An entry takes effect from superframe eff (R105): the node's context, and the cells it frees. -/
def Dev.applyGrant (d : Dev) (x : Ctx) (g : Grant) (eff : Nat) : Ctx × List Resv :=
  let freed (old : Grant) (anchor : Nat) : List Resv := d.freedBy x old g anchor eff
  if g.radio = 3 then
    if g.dl then ({ x with dlG := Grant.none, dlStop := false }, freed x.dlG x.dlAnchor)
    else ({ x with ulA := Grant.none, ulB := Grant.none, ulStop := 0 }, freed x.ulA x.ulAnchor ++ freed x.ulB x.ulAnchor)
  else if g.dl then ({ x with dlG := g, dlAnchor := eff, dlStop := false, mode := g.mode }, freed x.dlG x.dlAnchor)
  else
    let old := if x.ulA.radio = g.radio then x.ulA else if x.ulB.radio = g.radio then x.ulB else Grant.none
    let stop := if x.ulStop.testBit g.radio then x.ulStop - 2 ^ g.radio else x.ulStop
    let fresh := if g.pilot = x.pilot then x.pilotNew else some (eff, false)
    ({ x.putUplink g with ulAnchor := eff, ulStop := stop, mode := g.mode, pilot := g.pilot, pilotNew := fresh }, freed old x.ulAnchor)

/-- An entry carried by a later burst stands behind those of earlier bursts, and behind those of its own burst that stand before it (R105). -/
def addComing (e : Coming) : List Coming → List Coming
  | [] => [e]
  | v :: rest => if v.burst ≤ e.burst then v :: addComing e rest else e :: v :: rest

/-- The entries of a node that apply from a superframe on are applied, in the order of their bursts (R105, R219). -/
def Dev.applyComing (d : Dev) (addr sf : Nat) : Dev :=
  match d.nodeOf addr with
  | none => d
  | some x =>
    let (now, later) := x.coming.partition (fun e => decide (e.eff ≤ sf))
    let (x', freed) := now.foldl (fun (acc : Ctx × List Resv) e =>
      let (y, f) := d.applyGrant acc.1 e.grant e.eff
      (y, acc.2 ++ f)) ({ x with coming := later }, [])
    if now.isEmpty then d else (d.setNode addr x').holdCells freed sf

/-- The revoke entry of a direction. -/
def revokeEntry (dl : Bool) : Grant := { Grant.none with dl := dl }

/-- The grants of a direction that a node will hold once its carried and waiting entries have taken effect (R105, R219). -/
def Ctx.latest (x : Ctx) (dl : Bool) : List Grant :=
  let held := (if dl then [x.dlG] else [x.ulA, x.ulB]).filter (fun g => g.radio != 3)
  (x.coming.map (·.grant) ++ x.ctl.map (·.grant)).foldl (fun gs g =>
    if g.dl != dl then gs else if g.radio = 3 then [] else gs.filter (fun o => o.radio != g.radio) ++ [g]) held

/-- The pilot bit of a node's latest uplink entries. -/
def Ctx.lastPilot (x : Ctx) : Bool := ((x.latest false).headD x.ulA).pilot

/-- A node's uplink entries go out again with a pilot bit, a pair as a whole (R190, R218); a pair goes on as a single grant on its join radio once
pair_en is clear (R191). In LM0 the bit is always 1 (R104). -/
def Dev.reissuePilot (d : Dev) (i : Nat) (pilot : Bool) : Dev :=
  match d.ctx i with
  | none => d
  | some x =>
    let gs := x.latest false
    if gs.all (fun g => g.pilot == pilot || g.mode == 0) then d
    else
      let single := decide (1 < gs.length) && !d.flag R.SCH_SEE_CTRL F.SCH_SEE_CTRL_pair_en
      let kept := if single then ((gs.filter (fun g => g.radio == x.joinRadio)) ++ gs).take 1 else gs
      let d := if single then d.queueEntry x.address (revokeEntry false) else d
      kept.foldl (fun d g => d.queueEntry x.address { g with pilot := pilot }) d

/-! ## The registry and the contexts (R204 to R206, R215 to R217) -/

/-- The least superframe from sf on in which a grant runs. -/
def nextRunOf (anchor period sf : Nat) : Nat :=
  if sf ≤ anchor then anchor else if period = 0 then 0xFFFFFFFF else sf + (period - (sf - anchor) % period) % period

/-- The superframe of a node's next run from sf on, 0xFFFF_FFFF when it has none (R204). -/
def Ctx.nextRun (x : Ctx) (sf : Nat) : Nat :=
  let ul := ([x.ulA, x.ulB].filter (fun g => g.radio != 3)).map (fun g => nextRunOf x.ulAnchor g.period sf)
  let dl := if x.dlG.radio = 3 then [] else [nextRunOf x.dlAnchor x.dlG.period sf]
  let coming := (x.coming.filter (fun e => e.grant.radio != 3)).map (fun e => nextRunOf e.eff e.grant.period sf)
  (ul ++ dl ++ coming).foldl min 0xFFFFFFFF

/-- A context is written to its registry image (R206). -/
def Dev.saveCtx (d : Dev) (i : Nat) (x : Ctx) : Dev :=
  match d.regEntry x.address with
  | none => d
  | some e =>
    let fl := d.flow i
    d.storeReg x.address { e with image := x.bytes fl false, nextRun := x.nextRun (superOf d.nt + 1), saved := some (x, fl.seq, fl.last) }

/-- A context is freed, with the join response that waits for it; its flow's numbering of releases goes on. -/
def Dev.freeCtx (d : Dev) (i : Nat) : Dev :=
  let d := d.setFlow i { Flow.reset with nextRel := (d.flow i).nextRel }
  { d with sched := { d.sched with ctxs := smErase d.sched.ctxs i, resps := d.sched.resps.filter (fun p => p.ctx != i) } }

/-- A join response's run of a node lies ahead: it waits for its window, its task is under way, or its burst set is armed (R214). -/
def Dev.responseAhead (d : Dev) (i : Nat) : Bool :=
  let its (o : TxOwn) : Bool := o.kind == 3 && o.ctx == i
  d.sched.resps.any (fun p => p.ctx == i) || d.pup.tasks.any (fun p => p.2.info.own.any its) || d.sched.own.any (fun p => its p.2)

/-- A context qualifies for eviction: no run of a grant or of a join response lies in this superframe or the next two (R215, R217). A response's run
starts 6 s after its request at the latest, so it always lies that near. -/
def Dev.evictable (d : Dev) (i : Nat) (x : Ctx) : Bool :=
  let sf := superOf d.nt
  !(d.flow i).inService && !x.loading && decide (sf + 2 < x.nextRun sf) && !d.responseAhead i

/-- A free context, else one freed by eviction (R213, R215). -/
def Dev.takeContext (d : Dev) : Dev × Option Nat :=
  let free := smGap d.sched.ctxs 0
  if free < 65536 then (d, some free)
  else
    match (d.sched.ctxs.filter (fun p => d.evictable p.1 p.2)).foldl (fun (best : Option (Nat × Ctx)) p => match best with
        | none => some p
        | some b => if p.2.lastServed < b.2.lastServed then some p else some b) none with
    | none => (d, none)
    | some (i, x) =>
      (((d.saveCtx i x).freeCtx i).bump R.SCH_CTX_STAT F.SCH_CTX_STAT_evictions |>.raise 40, some i)

/-- The context of a node: its own, else a free one, else one freed by eviction (R213). -/
def Dev.contextFor (d : Dev) (addr : Nat) : Dev × Option Nat := match d.ctxOf addr with
  | some (i, _) => (d, some i)
  | none => d.takeContext

/-- A registry node's context is loaded; false while none is to be had (R216, R217). -/
def Dev.reloadNode (d : Dev) (addr : Nat) : Dev × Bool :=
  if (d.ctxOf addr).isSome then (d, true)
  else match d.regEntry addr with
    | none => (d, true)
    | some e => match e.saved with
      | none => (d, true)
      | some (x, seq, last) =>
        if e.needJoin || !d.memUp then (d, true)
        else match d.takeContext with
          | (d, none) => (d, false)
          | (d, some i) =>
            let d := d.setCtx i { x with loading := false, ctl := x.ctl.map (fun c => { c with ctx := i }) }
            (d.setFlow i { seq := seq, inService := false, last := last, nextRel := (d.flow i).nextRel }, true)

/-- A node's reload is tried, and tried again at each slot start while no context is to be had (R216, R217). -/
def Dev.wantNode (d : Dev) (addr : Nat) : Dev :=
  let (d, ok) := d.reloadNode addr
  let others := d.sched.reloads.filter (· != addr)
  { d with sched := { d.sched with reloads := if ok then others else others ++ [addr] } }

/-- The nodes of the registry whose next run falls in a superframe, or lies nearer after a RELEASE, are reloaded (R217, R230). -/
def Dev.reloadFor (d : Dev) (sf : Nat) : Dev :=
  (d.sched.registry.filter (fun p => p.2.saved.isSome && decide (p.2.nextRun ≤ sf))).foldl (fun d p => d.wantNode p.1) d

/-! ## Admission (R212 to R216) -/

/-- The mode of a node from its join record (R212). -/
def Dev.modeFor (d : Dev) (lqf top : Nat) : Nat :=
  let lo := (d.word R.SCH_MODE_THR_LO).toNat
  let hi := (d.word R.SCH_MODE_THR_HI).toNat
  let thr (n : Nat) : Nat := if n ≤ 4 then lo / 2 ^ (8 * (n - 1)) % 256 else hi / 2 ^ (8 * (n - 5)) % 256
  let v : Int := (lqf : Int) - d.get R.SCH_MODE_THR_HI F.SCH_MODE_THR_HI_margin
  (List.range 8).foldl (fun best n => if 1 ≤ n && n ≤ top && decide ((thr n : Int) ≤ v) then n else best) 0


/-- The fields of a join request's payload (R98): bands, dual-band capable, top mode, declared L, wanted period; none where it does not meet R98. -/
def joinFields (p : Bytes) (r : Nat) : Option (Nat × Bool × Nat × Nat × Nat) :=
  let b0 := byteAt p 0
  let bands := b0 % 8
  if p.length == 6 && b0 / 16 == 0 && byteAt p 1 / 8 == 0 && byteAt p 2 != 0 && byteAt p 3 == 0 && bands.testBit r then
    some (bands, b0.testBit 3, byteAt p 1, byteAt p 2, leAt p 4 2)
  else none

/-- The end of a join request's trailing ramp (R99, R214). -/
def joinEnd (rec : Bytes) : Nat := recStart rec + burstNs 0 (recLength rec) true

/-- The first slot start of a join response's run (R214). -/
def Dev.responseRun (d : Dev) (rs : List Resv) (r k0 e : Nat) : Option (Nat × Resv) :=
  let first := ceilDiv (e + 1000000000) slotNs
  (List.range 251).findSome? (fun i =>
    let a := first + i
    let c : Resv := ⟨r, k0, 1, a % 256, 131, a / 256, 0, true, false, 0⟩
    if decide (a * slotNs ≤ e + 6000000000) && d.runInDir r c.slot 131 true && d.cellFits rs c true then some (a * slotNs, c) else none)

/-- Steps 4 to 6 of an admission (R213), with the node's context index. A join response has room for one uplink entry (R77, R100), so the grants of a pair
follow as control entries that take effect together (DEDUCED, log entry 16). A node that joins again keeps its entries until those of the response
replace them (R105, R214). -/
def Dev.admitOn (d : Dev) (i : Nat) (rec p : Bytes) : Dev :=
  let r := recRadioA rec
  let addr := recAddress rec
  match joinFields p r, d.regEntry addr with
  | some (bands, dual, top, declL, want), some e =>
    let old := (d.ctx i).or (if e.needJoin then none else e.saved.map (·.1))
    let rs := d.reservations addr ++ (match old with
      | some x => d.nodeResv x
      | none => [])
    match d.responseRun rs r (recK0A rec) (joinEnd rec) with
    | none => d.joinRefused 4
    | some (t, cell) =>
      let anchor := superOf t + 1
      let mode := d.modeFor (recLqf rec) top
      let x : Ctx := { Ctx.free with
        valid := true, dualCap := dual, pilot := true, address := addr, joinRadio := r, topMode := top, bands := bands, declL := declL,
        mode := mode, offset := recOffsetPpb rec, ulAnchor := anchor, dlAnchor := anchor, lastServed := superOf d.nt, lastLqf := recLqf rec,
        keyHandle := (old.map (·.keyHandle)).getD 0, pilotHold := (old.map (·.pilotHold)).getD false
        misses := (old.map (·.misses)).getD 0, goods := (old.map (·.goods)).getD 0, dq := (old.map (·.dq)).getD [] ++ e.dq
        headAt := match old.map (fun o => (o.dq, o.headAt)) with
          | some (_ :: _, h) => h
          | _ => superOf d.nt }
      let rs := cell :: rs
      let ul := if want = 0 then some (Grant.none, Grant.none) else d.findUplink rs x mode (d.periodOf want) anchor true
      match ul with
      | none => d.joinRefused 5
      | some (a, b) =>
        let rs := rs ++ ([a, b].filter (fun g => g.radio != 3)).map (fun g => d.ulResv x g anchor g.period)
        match d.findDownlink rs x mode anchor with
        | none => d.joinRefused 5
        | some dl =>
          let d := match old with
            | some o => d.holdCells (d.nodeResv { o with ctl := [] }) anchor
            | none => d
          let pair := b.radio != 3
          let d := d.setCtx i (match old with
            | none => { x with ulA := a, dlG := dl }
            | some o => { x with
              ulA := o.ulA, ulB := o.ulB, dlG := o.dlG, ulAnchor := o.ulAnchor, dlAnchor := o.dlAnchor, ulStop := o.ulStop, dlStop := o.dlStop
              coming := ([revokeEntry false, a, dl].filter (fun g => g.radio != 3 || g == revokeEntry false)).foldl
                (fun cs g => addComing ⟨g, anchor, t⟩ cs) o.coming })
          let count := recFrameCtr rec * 4096 + recControl rec / 4096 % 4096
          let d := d.storeReg addr { e with joinCount := count, needJoin := false, saved := none, dq := [] }
          let body := joinRespBody (superOf t % 2 ^ 40) (slotOf t) (a.bytes addr) (dl.bytes addr)
          let d := { d with sched := { d.sched with
            cells := d.sched.cells ++ [cell], resps := d.sched.resps ++ [(⟨i, r, recK0A rec, t, body, count⟩ : JoinResp)]
            reloads := d.sched.reloads.filter (· != addr) } }
          let d := if pair then (d.queueEntry addr a).queueEntry addr b else d
          (d.bump R.SCH_JOIN_STAT F.SCH_JOIN_STAT_admitted).raise 42 r
  | _, _ => d.joinRefused 2

/-- The join sub-channels of a radio that are in use, with their index (R168). -/
def Dev.joinChannels (d : Dev) (r : Nat) : List (Nat × Nat) :=
  let w := (d.word (R.SCH_JOIN r)).toNat
  (if w.testBit 15 && w % 2048 < 1536 then [(0, w % 2048)] else []) ++ (if w.testBit 31 && w / 65536 % 2048 < 1536 then [(1, w / 65536 % 2048)] else [])

/-- The join sub-channel nearest to a detector's, the lower index on a tie (R168). -/
def Dev.joinNearest (d : Dev) (r k : Nat) : Nat × Nat :=
  let dist (c : Nat) : Nat := max c k - min c k
  ((d.joinChannels r).foldl (fun (best : Option (Nat × Nat)) c => match best with
    | none => some c
    | some b => if dist c.2 < dist b.2 then some c else some b) none).getD (0, k)

/-- A join record with status 0 reaches admission (R213). With no context to be had the admission waits in the Toybox (R216). -/
def Dev.admitNode (d : Dev) (rec p : Bytes) : Dev :=
  let r := recRadioA rec
  if !d.flag R.SCH_CTRL F.SCH_CTRL_en then d
  else if !(d.get R.SCH_CTRL F.SCH_CTRL_join_open).testBit r then d.joinRefused 1
  else match joinFields p r with
    | none => d.joinRefused 2
    | some _ =>
      match d.contextFor (recAddress rec) with
      | (d, some i) => d.admitOn i rec p
      | (d, none) =>
        let info := { TaskInfo.empty with node := recAddress rec, radioA := r, joinRec := rec ++ p }
        match d.createTask 3 noFlow 0 (joinEnd rec + 4000000000) [0, opEntries 2, 0, 0] info with
        | (d, some _) => d
        | (d, none) => (d.bump R.SCH_SLOT_STAT F.SCH_SLOT_STAT_refused).joinRefused 3

/-- The task that waited with an admission becomes the downlink task of the join response p, and its context operand is filled (R216). -/
def Dev.responseTask (d : Dev) (i : Nat) (t : Task) (p : JoinResp) : Dev :=
  let stop := p.start + 131 * slotNs
  let info := { t.info with
    start := p.start, stop := stop, radioA := p.radio, mode := 0, pilot := true, k0A := p.k0, joinRec := []
    own := some ⟨3, p.ctx, 0, some ⟨p.payload, some p.count⟩, [], stop⟩ }
  let d := { d with sched := { d.sched with resps := d.sched.resps.filter (fun q => q != p) } }
  let (d, seq) := d.takeSeq p.ctx t.info.node
  (d.setTask i { t with flow := p.ctx, seq := seq, info := info }).fillSlot (t.handle i) 0 (opCtx p.ctx)

/-- A waiting admission is tried again (R216): admitted once a context is to be had, its task sends the response; refused, its task is dropped. -/
def Dev.retryAdmission (d : Dev) (i : Nat) (t : Task) : Dev :=
  match d.contextFor t.info.node with
  | (d, none) => d
  | (d, some c) =>
    let e := d.admitOn c (t.info.joinRec.take 64) (t.info.joinRec.drop 64)
    if d.sched.resps.length < e.sched.resps.length then
      match e.sched.resps.getLast? with
      | some p => e.responseTask i t p
      | none => e
    else e.dropTask i

/-- A scheduled task of a node being reloaded is tried again (R216): once the node has its context, the task joins its flow. -/
def Dev.retryScheduled (d : Dev) (i : Nat) (t : Task) : Dev :=
  match d.reloadNode t.info.node with
  | (d, false) => d
  | (d, true) => match d.ctxOf t.info.node with
    | some (c, _) => (d.setTask i { t with flow := c }).fillSlot (t.handle i) 0 (opCtx c)
    | none => d

/-- The waits of R216 are tried again: admissions, scheduled tasks of nodes being reloaded, and reloads. -/
def Dev.retryWaits (d : Dev) : Dev :=
  let waiting := d.pup.tasks.filter (fun p => p.2.state == 1 && p.2.flow == noFlow)
  let d := waiting.foldl (fun d p => if p.2.kind = 3 then d.retryAdmission p.1 p.2 else d.retryScheduled p.1 p.2) d
  d.sched.reloads.foldl Dev.wantNode d

/-! ## Receive tasks (R163, R192, R227) -/

/-- Deadline margins in ns (SCH_TASK.ul_margin, SCH_SEE_CTRL.pair_margin). -/
def Dev.ulMargin (d : Dev) : Nat := min 40 (max 1 (d.get R.SCH_TASK F.SCH_TASK_ul_margin)) * 1000000
def Dev.pairMargin (d : Dev) : Nat := min 40 (max 1 (d.get R.SCH_SEE_CTRL F.SCH_SEE_CTRL_pair_margin)) * 1000000

/-- An uplink run: its context (65536 and up: none yet), node, grant of copy A and of copy B where it is a pair, and its length in slots. -/
structure UlRun where
  ctx : Nat
  x : Ctx
  a : Grant
  b : Option Grant
  len : Nat
deriving DecidableEq, Repr, Inhabited

/-- The uplink runs of a node in a superframe: a grant that is served no more gives none (R208). -/
def Ctx.runs (x : Ctx) (i sf : Nat) : List UlRun :=
  let served (g : Grant) : Bool := g.radio != 3 && !x.ulStop.testBit g.radio && runsIn x.ulAnchor g.period sf
  if x.paired && served x.ulA && served x.ulB then [⟨i, x, x.ulA, some x.ulB, x.runLen x.ulA⟩]
  else ([x.ulA, x.ulB].filter served).map (fun g => ⟨i, x, g, none, x.runLen g⟩)

/-- Every uplink run of a superframe: of the contexts, and of the nodes that wait for one. -/
def Dev.ulRuns (d : Dev) (sf : Nat) : List UlRun :=
  d.sched.ctxs.flatMap (fun p => p.2.runs p.1 sf)
    ++ d.sched.reloads.flatMap (fun addr => match (d.regEntry addr).bind (·.saved) with
      | some (x, _, _) => x.runs noFlow sf
      | none => [])

/-- Receive-group order: radio, then group start (R227). -/
def Dev.runKey (d : Dev) (u : UlRun) : Nat := u.a.radio * 4096 + (d.rxGroup u.x.offset u.a).toNat

def insertRun (d : Dev) (u : UlRun) : List UlRun → List UlRun
  | [] => [u]
  | v :: rest => if d.runKey v ≤ d.runKey u then v :: insertRun d u rest else u :: v :: rest

/-- The receive task of a run is created at its first slot start, absolute slot A (R227). -/
def Dev.createReceive (d : Dev) (a : Nat) (u : UlRun) : Dev :=
  let radios := u.a.radio :: (match u.b with
    | some g => [g.radio]
    | none => [])
  if !radios.any d.radioUp then d
  else
    let info : TaskInfo := { TaskInfo.empty with
      start := a * slotNs, stop := (a + u.len) * slotNs, radioA := u.a.radio, radioB := (u.b.map (·.radio)).getD 0, mode := u.a.mode, pilot := u.a.pilot
      k0A := u.a.k0, k0B := (u.b.map (·.k0)).getD 0, krxA := (d.rxGroup u.x.offset u.a).toNat, slotA := a, slots := u.len, node := u.x.address }
    let dual := u.b.isSome
    let deadline := info.stop + (if dual then d.pairMargin else d.ulMargin)
    let floor := if dual then d.get R.SCH_SEE_CTRL F.SCH_SEE_CTRL_see_floor else 0
    let ctx := if u.ctx < 65536 then opCtx u.ctx else 0
    match d.createTask (bitOf dual) u.ctx floor deadline [ctx, 0, 0, 0] info with
    | (d, none) => d.bump R.SCH_SLOT_STAT F.SCH_SLOT_STAT_refused
    | (d, some i) =>
      let handle := (d.task i).map (fun t => t.handle i)
      if u.len ≤ 25 then
        let fill (op : Nat) (g : Grant) : RingFill := ⟨handle.getD i, op, g.radio, a, u.len⟩
        { d with sched := { d.sched with fills := d.sched.fills ++ fill 1 u.a :: (u.b.toList.map (fill 2)) } }
      else
        let ask (d : Dev) (g : Grant) : Dev :=
          if d.radioUp g.radio then (d.requestCapture g.radio 1 (d.rxGroup u.x.offset g).toNat info.start (u.len * 600) handle).1 else d
        match u.b with
        | some g => ask (ask d u.a) g
        | none => ask d u.a

/-- The bond of a receive group in its quad (R144). -/
def bondBits (k n : Nat) : Nat := if n = 4 then 4 else if n = 2 then 2 ^ (k % 4 / 2) else 0

/-- The bonding map of a radio for a slot holds the bonds of the runs that cover it (R144, R227). -/
def Dev.fillBonds (d : Dev) (r s : Nat) (runs : List UlRun) : Dev :=
  if !d.radioUp r then d
  else
    let d := d.clearRegs (R.KAL_BOND r 0) (R.KAL_BOND r 48)
    runs.foldl (fun d u =>
      (u.a :: u.b.toList).foldl (fun d g =>
        let n := modeGroup g.mode
        let k := (d.rxGroup u.x.offset g).toNat
        if g.radio == r && decide (u.a.slot ≤ s) && decide (s < u.a.slot + u.len) && n != 1 then
          let q := k / 4
          d.setWord (R.KAL_BOND r (q / 8)) (d.word (R.KAL_BOND r (q / 8)) ||| BitVec.ofNat 32 (bondBits k n * 2 ^ (4 * (q % 8))))
        else d) d) d

/-! ## Beacons (R225, R226) -/

/-- The beacon groups of a radio in use: their starts. -/
def Dev.beaconGroups (d : Dev) (r : Nat) : List Nat :=
  let w := (d.word (R.SCH_BCN_GRP r)).toNat
  let ok (en : Bool) (k : Nat) : List Nat := if en && k % 4 == 0 && decide (k < 1536) then [k] else []
  ok (w.testBit 15) (w % 2048) ++ ok (w.testBit 31) (w / 65536 % 2048)

/-- The link mode of beacons. -/
def Dev.beaconMode (d : Dev) : Nat := if d.flag R.SCH_BCN_CTRL F.SCH_BCN_CTRL_lm7 then 7 else 6

/-- Entries that a transmission under way already carries. -/
def Dev.carriedStamps (d : Dev) : List Nat :=
  d.pup.tasks.flatMap (fun p => match p.2.info.own with
    | some o => o.entries.map (·.stamp)
    | none => [])

/-- An entry may be carried in superframe sf: its cell is free from sf + 1 on (R210, R211). -/
def Dev.entryFits (d : Dev) (e : CtlEntry) (sf : Nat) : Bool :=
  e.grant.radio == 3 || match d.ctx e.ctx with
    | none => false
    | some x => d.grantFits (d.reservations x.address) x e.grant (sf + 1)

def insertEntry (e : CtlEntry) : List CtlEntry → List CtlEntry
  | [] => [e]
  | v :: rest => if v.stamp ≤ e.stamp then v :: insertEntry e rest else e :: v :: rest

/-- Two entries of one node that form a pair (R105). -/
def CtlEntry.mate (a b : CtlEntry) : Bool :=
  a.ctx == b.ctx && !a.grant.dl && !b.grant.dl && a.grant.radio != 3 && b.grant.radio != 3 && a.grant.radio != b.grant.radio
    && a.grant.slot == b.grant.slot && a.grant.period == b.grant.period

/-- The first entries of a queue for which there is room, in order; a pair goes whole (R190). -/
def takeEntries (all : List CtlEntry) : Nat → List CtlEntry → List CtlEntry
  | _, [] => []
  | room, e :: rest => match all.find? e.mate with
    | none => if room = 0 then [] else e :: takeEntries all (room - 1) rest
    | some m =>
      if m.stamp < e.stamp then takeEntries all room rest
      else if room < 2 then [] else e :: m :: takeEntries all (room - 2) rest

/-- The entries that may be carried, in order: one that must wait, by itself or by its pair's other entry, holds back the later ones of its node and
direction. -/
def inTurn (ok : CtlEntry → Bool) (es : List CtlEntry) : List CtlEntry :=
  es.filter (fun e => ok e && es.all (fun v => v.ctx != e.ctx || v.grant.dl != e.grant.dl || decide (e.stamp ≤ v.stamp) || ok v))

/-- The entries of a queue that a burst in superframe sf carries: those that fit, up to a number, a pair only as a whole (R190, R223, R226); entries of
one node and direction never pass each other (R219). -/
def Dev.carriedOf (d : Dev) (es : List CtlEntry) (sf room : Nat) : List CtlEntry :=
  let busy := d.carriedStamps
  let free := es.filter (fun e => !busy.contains e.stamp)
  let fit := free.filter (fun e => d.entryFits e sf)
  let ok := inTurn (fun e => fit.contains e && (free.filter e.mate).all (fun m => fit.contains m)) free
  takeEntries ok room ok

/-- The grant entries a radio's beacon carries: up to 3, in the order queued, of nodes whose grants lie on that radio (R226); of a node that holds no
grant, those that name the radio, with the other entry of a pair (R190, R219). -/
def Dev.beaconEntries (d : Dev) (r sf : Nat) : List CtlEntry :=
  let all := d.sched.ctxs.flatMap (fun p =>
    let on := [p.2.ulA.radio, p.2.ulB.radio, p.2.dlG.radio]
    let names (e : CtlEntry) : Bool := e.grant.radio == r || p.2.ctl.any (fun m => e.mate m && m.grant.radio == r)
    if on.contains r then p.2.ctl else if on.all (· == 3) then p.2.ctl.filter names else [])
  d.carriedOf (all.foldl (fun acc e => insertEntry e acc) []) sf 3

/-- A transmission that is not armed (R187, R225): event 46, counted. -/
def Dev.dlLate (d : Dev) (r : Nat) : Dev := (d.bump R.SCH_DL_STAT F.SCH_DL_STAT_late).raise 46 r

/-- The lead by which a transmission must be complete before T (R187). -/
def armLead : Nat := 1002000

/-- The beacon task of a radio for the slot 0 that follows slot A (R225). -/
def Dev.createBeacon (d : Dev) (a r : Nat) : Dev :=
  if (d.beaconGroups r).isEmpty || !d.present (r + 1) then d
  else
    let t := (a / 256 + 1) * superNs
    let own : TxOwn := ⟨2, 0, 0, none, d.beaconEntries r (superOf t), t + slotNs⟩
    let info := { TaskInfo.empty with start := t, stop := t + slotNs, radioA := r, mode := d.beaconMode, k0A := (d.beaconGroups r).headD 0, own := some own }
    match d.createTask 4 (beaconFlow r) 0 (t - armLead) [opBeacon r, 0, 0, 0] info with
    | (d, none) => d.bump R.SCH_SLOT_STAT F.SCH_SLOT_STAT_refused
    | (d, some _) => d

/-- The scheduler's part of the start of absolute slot A (R216, R225, R227). -/
def Dev.schedSlot (d : Dev) (a : Nat) : Dev :=
  if !d.flag R.SCH_CTRL F.SCH_CTRL_en || d.pwr.mode != .run || d.pwr.entry.isSome then
    (List.range 3).foldl (fun d r => d.fillBonds r (a % 256) []) d
  else
    let d := d.retryWaits
    let d := { d with sched := { d.sched with served := some a, overrun := false, fills := d.sched.fills.filter (fun f => decide (a < f.slotA + f.slots + 50)) } }
    let runs := d.ulRuns (a / 256)
    let start := (runs.filter (fun u => u.a.slot == a % 256)).foldl (fun acc u => insertRun d u acc) []
    let d := start.foldl (fun d u => d.createReceive a u) d
    let d := (List.range 3).foldl (fun d r => d.fillBonds r (a % 256) runs) d
    if a % 256 = 254 then (List.range 3).foldl (fun d r => d.createBeacon a r) d else d

/-- The scheduler has not created every task of the slot within 1 ms (R228): once for the slot. -/
def Dev.slotOverrun (d : Dev) : Dev :=
  match d.sched.served with
  | none => d
  | some a =>
    if d.sched.overrun then d
    else (({ d with sched := { d.sched with overrun := true } }).bump R.SCH_SLOT_STAT F.SCH_SLOT_STAT_overruns).raise 43 0 (a % 256)

/-! ## Sample operands (R163, R168) -/

/-- The frame of absolute slot A of a radio fills the operands of the runs that end with it, by their handles (R163, R237). -/
def Dev.fillFrames (d : Dev) (r a : Nat) : Dev :=
  if !d.radioUp r || !d.flag (R.KAL_RING_BASE r) F.KAL_RING_BASE_ring_en then d
  else
    let (due, left) := d.sched.fills.partition (fun f => f.radio == r && f.slotA + f.slots == a + 1)
    due.foldl (fun d f => d.fillSlot f.handle f.op (opRing r f.slotA f.slots)) { d with sched := { d.sched with fills := left } }

/-- A capture's last sample is written: it fills the operand of its task (R151, R163). -/
def Dev.fillCapture (d : Dev) (r c : Nat) : Dev :=
  match smFind (d.kal r).caps c with
  | none => d
  | some x => match x.task with
    | none => d
    | some h =>
      let slot := match d.task (h % 8192) with
        | some t => if t.kind = 2 then 0 else if t.kind = 1 && t.info.radioB = r && t.info.radioA != r then 2 else 1
        | none => 1
      d.fillSlot h slot (opCapture r c)

/-- A join detection at NT t (R151, R168): its capture, and the task that the capture feeds. -/
def Dev.joinDetected (d : Dev) (r k t : Nat) : Dev :=
  match d.joinCapture r k t with
  | (d, none) => d
  | (d, some c) =>
    let (j, nominal) := d.joinNearest r k
    let n := d.capLen r * 30
    let s0 := joinStart t
    let info := { TaskInfo.empty with start := s0, stop := s0 + d.capLen r * 1000000, radioA := r, pilot := true, k0A := nominal, krxA := k }
    match d.createTask 2 (joinFlow r j) 0 (s0 + (n - 1) * 1000000 / 30 + 10000000) [0, 0, 0, 0] info with
    | (d, none) => d.freeCapture r c
    | (d, some i) =>
      let handle := (d.task i).map (fun t => t.handle i)
      d.setKal r { d.kal r with caps := (d.kal r).caps.map (fun p => if p.1 = c then (p.1, { p.2 with task := handle }) else p) }

/-! ## Downlink windows (R221 to R224) -/

/-- The buffers of the pool at SCH_DLQ_BASE. -/
def poolSize : Nat := 131072


/-- A context with a message at the tail of its data queue. -/
def Ctx.addMessage (x : Ctx) (b sf : Nat) : Ctx := { x with dq := x.dq ++ [b], headAt := if x.dq.isEmpty then sf else x.headAt }

/-- A buffer joins the data queue of a node: of its context, of its saved context, or of its registry entry until it has one (R221). -/
def Dev.queueMessage (d : Dev) (addr b : Nat) : Dev :=
  match d.ctxOf addr, d.regEntry addr with
  | some (i, x), _ => d.setCtx i (x.addMessage b (superOf d.nt))
  | none, some e => match e.saved with
    | some (x, rest) => if e.needJoin then d.setReg addr { e with dq := e.dq ++ [b] } else d.setReg addr { e with saved := some (x.addMessage b (superOf d.nt), rest) }
    | none => d.setReg addr { e with dq := e.dq ++ [b] }
  | none, none => d

/-- The data messages a node holds. -/
def Dev.queued (d : Dev) (addr : Nat) : Nat := match d.nodeOf addr, d.regEntry addr with
  | some x, _ => x.dq.length
  | none, some e => e.dq.length
  | none, none => 0

/-- A downlink message reaches the scheduler (R221, R441). -/
def Dev.dlMessage (d : Dev) (addr : Nat) (body : Bytes) : Dev :=
  if d.pwr.mode != .run then d.bump R.SCH_DL_DROP F.SCH_DL_DROP_q_full
  else if (d.ctxOf addr).isNone && (d.regEntry addr).isNone then d.bump R.SCH_DL_DROP F.SCH_DL_DROP_unknown
  else
    let d := d.wantNode addr
    let lm0 := match d.nodeOf addr with
      | some x => x.mode == 0
      | none => false
    if body.length = 0 || 255 < body.length || (lm0 && decide (67 < body.length)) then d.bump R.SCH_DL_DROP F.SCH_DL_DROP_too_long
    else match smLowestFree d.sched.pool poolSize with
      | none => d.bump R.SCH_DL_DROP F.SCH_DL_DROP_q_full
      | some b =>
        if max 1 (d.get R.SCH_DLQ F.SCH_DLQ_q_max) ≤ d.queued addr || !d.memUp then d.bump R.SCH_DL_DROP F.SCH_DL_DROP_q_full
        else { d with sched := { d.sched with pool := smInsert b ⟨body, none⟩ d.sched.pool } }.queueMessage addr b

/-- The lead of downlink tasks in ns (R223). -/
def Dev.dlLead (d : Dev) : Nat := min 100 (max 3 (d.get R.SCH_TASK F.SCH_TASK_dl_lead)) * 1000000

/-- A message leaves the head of its node's queue. -/
def Dev.popHead (d : Dev) (i : Nat) : Dev :=
  match d.ctx i with
  | none => d
  | some x => d.setCtx i { x with dq := x.dq.tail, headAt := superOf d.nt }

/-- Head messages older than ttl are dropped when a window opens (R222). The fuel is the queue's length. -/
def Dev.expireHeads (d : Dev) (i : Nat) : Nat → Dev
  | 0 => d
  | n + 1 =>
    let ttl := d.get R.SCH_DLQ F.SCH_DLQ_ttl
    match d.ctx i with
    | none => d
    | some x => match x.dq with
      | [] => d
      | b :: _ =>
        if ttl != 0 && x.headAt + ttl < superOf d.nt then
          let d := (d.popHead i).bump R.SCH_DL_DROP F.SCH_DL_DROP_expired
          { d with sched := { d.sched with pool := smErase d.sched.pool b } }.expireHeads i n
        else d

/-- The duty margin would be exceeded by a run of a length in slots on a group (R224). -/
def Dev.dutyBlocks (d : Dev) (g : Grant) : Bool :=
  let n := modeGroup g.mode
  let margin := min 100 (max 1 (d.get R.SCH_GRID F.SCH_GRID_duty_margin))
  (d.rpUsed g.radio).any (fun e =>
    e.overlaps (bandLow (d.fcOf g.radio) g.k0 n) (bandHigh (d.fcOf g.radio) g.k0 n)
      && decide (e.duty * 3600000 * margin < (d.dutyUs g.radio e.idx + dlLen g * 20000) * 100))

/-- The downlink grant of a node that is in force in a superframe, with its anchor: entries already carried count from theirs on (R105). -/
def Ctx.dlIn (x : Ctx) (sf : Nat) : Grant × Nat :=
  (x.coming.filter (fun e => e.grant.dl && decide (e.eff ≤ sf))).foldl (fun _ e => (e.grant, e.eff)) (if x.dlStop then Grant.none else x.dlG, x.dlAnchor)

/-- The window of a node whose task is due at NT t: T of its downlink run, with T - dl_lead at or before t, and its grant (R223). A run that will not lie
wholly in transmit slots, or that a backward step repeats, is not served (R42, R57, R208). -/
def Dev.windowAt (d : Dev) (x : Ctx) (t : Nat) : Option (Nat × Grant) :=
  [superOf t, superOf t + 1].findSome? (fun sf =>
    let (g, anchor) := x.dlIn sf
    let start := (sf * 256 + g.slot) * slotNs
    if g.radio != 3 && runsIn anchor g.period sf && decide (start ≤ t + d.dlLead) && decide (t < start) && d.txRunServed g.radio start (dlLen g) then
      some (start, g)
    else none)

/-- The downlink task of a window or response is created (R223). -/
def Dev.createDown (d : Dev) (i t len : Nat) (g : Grant) (flow op : Nat) (node : Nat) (own : TxOwn) : Dev :=
  let info := { TaskInfo.empty with
    start := t, stop := t + len * slotNs, radioA := g.radio, mode := g.mode, pilot := g.pilot, k0A := g.k0, node := node
    own := some { own with stop := t + len * slotNs } }
  match d.createTask 3 flow 0 (t - armLead) [opCtx i, op, 0, 0] info with
  | (d, none) => d.bump R.SCH_SLOT_STAT F.SCH_SLOT_STAT_refused
  | (d, some _) => d

/-- How many grant entries a downlink run carries (R108, R223). -/
def entriesFit (mode : Nat) : Nat := if mode = 0 then 6 else 25

/-- A downlink window of a grant opens at T (R222 to R224). No burst is sent under a count past 0xFFFF_FFFF (R83). -/
def Dev.openWindow (d : Dev) (i t : Nat) (g : Grant) : Dev :=
  let d := { d with sched := { d.sched with windows := (d.sched.windows.filter (fun (w : Nat × Nat) => decide (d.nt < w.2))) ++ [(i, t)] } }
  let d := d.expireHeads i 15
  match d.ctx i with
  | none => d
  | some x =>
    if x.ctl.isEmpty && x.dq.isEmpty || 0xFFFFFFFF ≤ x.dlCount then d
    else if d.dutyBlocks g then (d.bump R.SCH_DL_STAT F.SCH_DL_STAT_duty_blocked).raise 47 g.radio
    else
      let fits := d.carriedOf x.ctl (superOf t) (entriesFit g.mode)
      if !fits.isEmpty then
        d.createDown i t (dlLen g) g i (opEntries fits.length) x.address ⟨1, i, 0, none, fits, 0⟩
      else match x.dq with
        | [] => d
        | b :: _ => d.createDown i t (dlLen g) g i (opMessage b) x.address ⟨0, i, b, smFind d.sched.pool b, [], 0⟩

/-- A join response's task (R214, R223). -/
def Dev.openResponse (d : Dev) (p : JoinResp) : Dev :=
  let d := { d with sched := { d.sched with resps := d.sched.resps.filter (fun q => q != p) } }
  match d.ctx p.ctx with
  | none => d
  | some x =>
    let g : Grant := ⟨p.radio, 0, p.k0, 0, true, true, 0⟩
    if d.txRunServed p.radio p.start 131 then
      d.createDown p.ctx p.start 131 g p.ctx (opEntries 2) x.address ⟨3, p.ctx, 0, some ⟨p.payload, some p.count⟩, [], 0⟩
    else d

/-- T - dl_lead of a node's response or window is reached at NT t (R223). -/
def Dev.downlinkDue (d : Dev) (i t : Nat) : Dev :=
  if !d.flag R.SCH_CTRL F.SCH_CTRL_en || d.pwr.mode != .run || d.pwr.entry.isSome then d
  else match d.sched.resps.find? (fun p => p.ctx == i && decide (p.start ≤ t + d.dlLead) && decide (t < p.start)) with
    | some p => (d.openResponse p).dispatch
    | none => match d.ctx i with
      | none => d
      | some x => match d.windowAt x t with
        | none => d
        | some (start, g) => if d.sched.windows.contains (i, start) || !d.radioUp g.radio then d else (d.openWindow i start g).dispatch

/-! ## The superframe boundary (R208, R217, R219) -/

/-- New uplink and downlink grants of a node are queued; a radio that loses its grant needs a revoke first. -/
def Dev.queueGrants (d : Dev) (x : Ctx) (a b dl : Grant) : Dev :=
  let n := x.address
  let d := if (x.latest false).all (fun g => g.radio == a.radio || g.radio == b.radio) then d else d.queueEntry n (revokeEntry false)
  let d := if dl.radio = 3 || (x.latest true).all (fun g => g.radio == dl.radio) then d else d.queueEntry n (revokeEntry true)
  ([a, b, dl].filter (fun g => g.radio != 3)).foldl (fun d g => d.queueEntry n g) d

/-- The uplink grant on a radio has a run that does not lie wholly in receive slots, and is still served (R208). -/
def Dev.ulMisplaced (d : Dev) (x : Ctx) (g : Grant) : Bool :=
  g.radio != 3 && !x.ulStop.testBit g.radio && !d.runInDir g.radio g.slot (x.ulLen g) false

/-- Uplink grants of a node whose direction is gone are served no more; the node's uplink moves to new cells, a pair as a whole, or is revoked where none
fit (R190, R208, R218). -/
def Dev.moveMisplacedUl (d : Dev) (sf : Nat) (x : Ctx) : Dev :=
  let stop := ([x.ulA, x.ulB].filter (d.ulMisplaced x)).foldl (fun m g => m + 2 ^ g.radio) x.ulStop
  let d := d.setNode x.address { x with ulStop := stop }
  match d.moveUplink (d.reservations x.address) x x.lastPilot (sf + 1) with
  | some (a, b) => d.queueGrants x a b Grant.none
  | none => d.queueEntry x.address (revokeEntry false)

/-- The downlink of a node whose direction is gone: served no more, and moved to a new cell, or revoked where none fits (R208, R218). -/
def Dev.moveMisplacedDl (d : Dev) (sf : Nat) (x : Ctx) : Dev :=
  let d := d.setNode x.address { x with dlStop := true }
  match d.findCell (d.reservations x.address) x x.dlG (sf + 1) with
  | some g => d.queueEntry x.address g
  | none => d.queueEntry x.address (revokeEntry true)

/-- Grants that do not lie in slots of their direction, under the maps and the quiet slot now in force, are served no more, and move; those of saved
contexts too (R42, R208, R218). -/
def Dev.moveMisplaced (d : Dev) (sf : Nat) : Dev :=
  d.nodes.foldl (fun d addr =>
    let d := match d.nodeOf addr with
      | some x => if [x.ulA, x.ulB].any (d.ulMisplaced x) then d.moveMisplacedUl sf x else d
      | none => d
    match d.nodeOf addr with
    | some x =>
      if x.dlG.radio != 3 && !x.dlStop && !d.runInDir x.dlG.radio x.dlG.slot (dlLen x.dlG) true then d.moveMisplacedDl sf x else d
    | none => d) d

/-- The staged direction maps become active (R208). -/
def Dev.takeDirections (d : Dev) : Dev :=
  if !d.sched.dirTake then d
  else
    let d := (List.range 24).foldl (fun d i => d.setWord (R.SCH_DIR_ACT (i / 8) (i % 8)) (d.word (R.SCH_DIR (i / 8) (i % 8)))) d
    { d with sched := { d.sched with dirTake := false } }

/-- The scheduler's part of the start of superframe sf: reloads, the entries that apply from it on, and the grants whose slots are gone. -/
def Dev.schedSuper (d : Dev) (sf : Nat) : Dev :=
  let d := d.reloadFor (sf + 2)
  ((d.nodes.foldl (fun d addr => d.applyComing addr sf) d).takeDirections.moveMisplaced sf).dropCells sf

/-! ## Node commands (R229, R230) -/

/-- The outcome of SCH_NODE_CMD. -/
def Dev.nodeResult (d : Dev) (r : Nat) : Dev :=
  (d.put R.SCH_NODE_CMD F.SCH_NODE_CMD_result r).put R.SCH_NODE_CMD F.SCH_NODE_CMD_go 0

/-- A node command on the context of SCH_NODE_ADDR. -/
def Dev.nodeCmd (d : Dev) (f : Dev → Nat → Ctx → Dev) : Dev :=
  match d.ctxOf (d.word R.SCH_NODE_ADDR).toNat with
  | none => d.nodeResult 2
  | some (i, x) => f d i x

/-- RELEASE: the context is written to the registry and freed; its node is reloaded under R217. -/
def Dev.nodeRelease (d : Dev) : Dev := d.nodeCmd (fun d i x =>
  if (d.flow i).inService then d.nodeResult 4 else ((d.saveCtx i x).freeCtx i).nodeResult 1)

/-- PILOT_HOLD: the hold flag; setting it while pilot is 0 turns pilots on. -/
def Dev.nodePilotHold (d : Dev) (hold : Bool) : Dev := d.nodeCmd (fun d i x =>
  let d := d.setCtx i { x with pilotHold := hold }
  (if hold && !x.pilot then d.reissuePilot i true else d).nodeResult 1)

/-- REVOKE: every grant of the node. -/
def Dev.nodeRevoke (d : Dev) : Dev := d.nodeCmd (fun d _ x =>
  let d := if (x.latest false).isEmpty then d else d.queueEntry x.address (revokeEntry false)
  (if (x.latest true).isEmpty then d else d.queueEntry x.address (revokeEntry true)).nodeResult 1)

/-- REPLACE: new grants with a mode and an uplink period. -/
def Dev.nodeReplace (d : Dev) (mode periodLog2 : Nat) : Dev := d.nodeCmd (fun d i x =>
  if (d.flow i).inService then d.nodeResult 4
  else
    let rs := d.reservations x.address
    let anchor := superOf d.nt + 1
    match d.findUplink rs x mode (d.periodOf (2 ^ periodLog2)) anchor (mode == 0 || x.pilot) with
    | none => d.nodeResult 3
    | some (a, b) =>
      let rs := rs ++ ([a, b].filter (fun g => g.radio != 3)).map (fun g => d.ulResv x g anchor g.period)
      match d.findDownlink rs x mode anchor with
      | none => d.nodeResult 3
      | some dl => (d.queueGrants x a b dl).nodeResult 1)

/-- A grant whose receive group moved with o, from its old value, is checked again; where it now collides the node moves (R211, R219). -/
def Dev.recheckNode (d : Dev) (i : Nat) (old : Int) : Dev :=
  match d.ctx i with
  | none => d
  | some x =>
    let rs := d.reservations x.address
    let bad (g : Grant) : Bool := g.radio != 3 && d.rxGroup old g != d.rxGroup x.offset g
      && (!groupFits (d.rxGroup x.offset g) (modeGroup g.mode) || rs.any (fun r => (d.ulResv x g x.ulAnchor g.period).collides r))
    if bad x.ulA || bad x.ulB then
      match d.moveUplink rs x x.lastPilot (superOf d.nt + 1) with
      | none => d
      | some (a, b) => d.queueGrants x a b Grant.none
    else d

/-! ## Registry commands (R205) -/

/-- The outcome of SCH_REG_CMD. -/
def Dev.regResult (d : Dev) (r : Nat) : Dev :=
  (d.put R.SCH_REG_CMD F.SCH_REG_CMD_result r).put R.SCH_REG_CMD F.SCH_REG_CMD_go 0

/-- The 256 bytes of SCH_REG_BUF. -/
def Dev.regBuf (d : Dev) : Bytes := (List.range 64).flatMap (fun w => toLE 4 (d.word (R.SCH_REG_BUF w)).toNat)

/-- PROVISION. -/
def Dev.provision (d : Dev) : Dev :=
  let buf := d.regBuf
  let addr := leAt buf 0 4
  if 2097152 ≤ d.sched.registry.length || !d.memUp then d.regResult 2
  else if (d.regEntry addr).isSome then d.regResult 3
  else if addr = 0 || addr = 0xFFFFFFFF || 1 < byteAt buf 168 then d.regResult 6
  else
    let size := byteAt buf 168
    let key := sliceB buf 128 (if size = 1 then 40 else 24)
    (d.storeReg addr ⟨[], key, size, 0, 0xFFFFFFFF, false, none, [], d.regFree⟩).regResult 1

/-- READ. -/
def Dev.registryRead (d : Dev) : Dev :=
  let addr := leAt d.regBuf 0 4
  match d.regEntry addr with
  | none => d.regResult 4
  | some e =>
    if !d.memUp then d.regResult 4
    else
      let bs := { e with image := match d.ctxOf addr with
        | some (i, x) => d.ctxBytes i x
        | none => e.image }.bytes addr
      ((List.range 64).foldl (fun d w => d.setWord (R.SCH_REG_BUF w) (BitVec.ofNat 32 (leAt bs (4 * w) 4))) d).regResult 1

/-- DELETE: the entry goes, the context is freed, the cells are held, and the node's key slots are freed (R220, R370). -/
def Dev.registryDelete (d : Dev) : Dev :=
  let addr := leAt d.regBuf 0 4
  match d.regEntry addr with
  | none => d.regResult 4
  | some e =>
    let busy := match d.ctxOf addr with
      | some (i, _) => (d.flow i).inService
      | none => false
    if busy then d.regResult 5
    else if !d.memUp then d.regResult 4
    else
      let own := ((d.ctxOf addr).map (·.2)).or (e.saved.map (·.1))
      let d := match own with
        | some x => d.holdCells (d.nodeResv { x with ctl := [] }) (superOf d.nt)
        | none => d
      let left : List Nat := match own with
        | some x => x.dq ++ e.dq
        | none => e.dq
      let d := { d with sched := { d.sched with pool := left.foldl smErase d.sched.pool } }
      let d := match d.ctxOf addr with
        | some (i, _) => d.freeCtx i
        | none => d
      let d := d.eraseReg addr e
      let d := { d with cip := { d.cip with slots := d.cip.slots.filter (fun p => !(decide (256 ≤ p.1) && p.2.owner == addr)) } }
      d.regResult 1

/-! ## What a released record does to its node (R172, R174, R179, R196, R200) -/

/-- Event 45 of a record with status 0, by the DEM_WARN word w of its task (R179). -/
def Dev.qualityCheck (d : Dev) (w : Nat) (rec : Bytes) : Dev :=
  let lqfWarn := w / 2 ^ 16 % 256
  let fevWarn := w % 65536
  if recStatus rec == 0 && ((lqfWarn != 0 && decide (recLqf rec < lqfWarn)) || (fevWarn != 0 && decide (fevWarn < recFev rec))) then
    d.raise 45 (recRadioA rec)
  else d

/-- A burst of a changed uplink pilot state that has decoded in it shows that its node has heard the change (R173). -/
def Ctx.heardPilot (x : Ctx) (rec : Bytes) : Ctx :=
  match x.pilotNew with
  | some (sf, _) =>
    if recPilot rec == x.pilot && decide (sf ≤ superOf (recStart rec)) && recStatus rec != 1 && recStatus rec != 6 && recStatus rec != 7 then
      { x with pilotNew := some (sf, true) } else x
  | none => x

/-- A scheduled record with status 0 updates its context (R174, R178, R202), the firmware's counts join it (R172), and a pilot request reissues the node's
entries (R218). -/
def Dev.contextRecord (d : Dev) (i node : Nat) (rec : Bytes) (fw : Option FwCounts) : Dev :=
  match (d.ctx i).filter (fun x => x.address == node) with
  | none => d
  | some x =>
    let x := match fw with
      | some c => { x with misses := c.misses, goods := c.goods }
      | none => x
    let x' := if recStatus rec = 0 then { x with
        ulCount := recFrameCtr rec * 4096 + recControl rec / 4096 % 4096, lastLqf := recLqf rec, offset := recOffsetPpb rec } else x
    let x' := x'.heardPilot rec
    let d := d.setCtx i x'
    let d := match recPilotReq rec with
      | 1 => d.reissuePilot i true
      | 2 => d.reissuePilot i false
      | _ => d
    if x'.offset = x.offset then d else d.recheckNode i x.offset

/-- The lead copy of a record: its measured offset, radio and nominal sub-channel (R199). -/
def recLead (rec : Bytes) : Int × Nat × Nat :=
  let a := if recCombined rec then decide (recLqfB rec ≤ recLqfA rec) else recCopyA rec && recLqf rec == recLqfA rec
  if a || !recDual rec then (recOffsetA rec, recRadioA rec, recK0A rec) else (sext 32 (leAt rec 36 4), recRadioB rec, recK0B rec)

/-- The lead copy's offset in ppb of its own carrier (R52, R199). -/
def Dev.recPpb (d : Dev) (rec : Bytes) : Rat :=
  let (hz, r, k0) := recLead rec
  ((hz * 2000000000 : Int) : Rat) / ((groupCentre2 (d.fcOf r) k0 (modeGroup (recMode rec)) : Int) : Rat)

/-- The counts and feedback of a released record (R52, R196, R200); a stale burst is counted (R82; the spec gives the count no register, log entry 234). -/
def Dev.recordCounts (d : Dev) (rec : Bytes) (fw : Option FwCounts) : Dev :=
  let d := if recStatus rec = 4 then { d with sched := { d.sched with stale := d.sched.stale + 1 } } else d
  let d := if recCombined rec then d.bump R.SCH_SEE_STAT F.SCH_SEE_STAT_combined else d
  let d := match fw with
    | some c => d.bumpBy R.SCH_SEE_DROP F.SCH_SEE_DROP_excluded c.excluded
    | none => d
  if recJoin rec then d else d.holdFeed (d.recPpb rec) (recLqf rec)

end Sys2Proof.Machine
end

