-- ==== Sys2Proof/Machine/Cls.lean ====
section
/-! DEFINITION. The classifier: lookups, decisions, recirculation, the exact-match tables, the sensor port, generations, fragments and soft errors
(12_classifier.md, R307 to R322). -/

namespace Sys2Proof.Machine

open Sys2Proof

/-! ## Tables (R307, R308, R313) -/

/-- The registers of a range of addresses that are listed, in rising order. -/
def Dev.regsIn (d : Dev) (lo hi : Nat) : SMap Word := (d.regs.dropWhile (fun p => decide (p.1 < lo))).takeWhile (fun p => decide (p.1 < hi))

/-- The last word of an entry makes it valid for a generation. -/
def lastWordOk (gen : Nat) (w : Word) : Bool := w.getLsbD 31 && w.getLsbD (29 + gen)

/-- The 320 bits of words base to base + 9. -/
def Dev.bits320 (d : Dev) (a : Nat) : Nat := (List.range 10).foldl (fun s w => s + (d.word (a + 4 * w)).toNat * 2 ^ (32 * w)) 0

/-- The associative entry that decides a key for a generation: the lowest that matches (R308). -/
def Dev.tcamFind (d : Dev) (gen key : Nat) : Option Nat :=
  ((d.regsIn (R.CLS_TCAM 0) (R.CLS_TCAM 262144)).find? (fun p =>
    p.1 % 128 == 124 && lastWordOk gen p.2 &&
      (let a := p.1 - 124
       let mask := d.bits320 (a + 40)
       (d.bits320 a &&& mask) == (key &&& mask)))).map (fun p => (p.1 - R.CLS_TCAM 0) / 128)

/-- The action of an associative entry. -/
def Dev.tcamAct (d : Dev) (i : Nat) : ClsAct :=
  let w (k : Nat) : Nat := (d.word (R.CLS_TCAM (32 * i + k))).toNat
  ⟨w 20, w 21, w 22⟩

/-- The decision for a key: an entry's action, or the ingress port's miss action (R308). -/
def Dev.decide_ (d : Dev) (gen key port : Nat) : ClsAct :=
  match d.tcamFind gen key with
  | some i => d.tcamAct i
  | none => ⟨(d.word (R.CLS_MISS port)).toNat, 0, 0⟩

/-- The exact-match lookup of a key's five words for a generation: the action word of the deciding entry (R313). -/
def Dev.exactFind (d : Dev) (gen : Nat) (key : List Nat) : Option Nat :=
  let bucket := crc32 (key.flatMap (fun w => toLE 4 w)) % 4096
  (List.range 4).findSome? (fun k =>
    let a := R.CLS_HASH (16 * (4 * bucket + k))
    if lastWordOk gen (d.word (a + 60)) && (List.range 5).all (fun w => (d.word (a + 4 * w)).toNat == key.getD w 0) then
      some (d.word (a + 20)).toNat
    else none)

/-- The active generation (R315). -/
def Dev.activeGen (d : Dev) : Nat := d.get R.CLS_GEN F.CLS_GEN_active

/-- The key of a node address in table 1 or 2 (R313). -/
def Dev.nodeKeyWords (d : Dev) (table addr : Nat) : List Nat :=
  let sh := min 24 (d.get R.CLS_EM_CTRL (if table = 1 then F.CLS_EM_CTRL_ul_shift else F.CLS_EM_CTRL_dl_shift))
  [table, addr / 2 ^ sh, 0, 0, 0]

/-! ## Generations (R315, R316) -/

/-- The entries of a table whose only membership is a generation lose their valid bit. -/
def Dev.clearGen (d : Dev) (gen lo hi entry : Nat) : Dev :=
  ((d.regsIn lo hi).filter (fun p => p.1 % entry == entry - 4 && p.2.getLsbD (29 + gen) && !p.2.getLsbD (30 - gen))).foldl
    (fun d p => d.setWord p.1 (p.2 &&& 0x7FFFFFFF)) d

/-- The in-flight count of a generation: the frames stamped with it that wait for their second pass; any other frame's lookups are over when its command
is (R316). -/
def Dev.genFlight (d : Dev) (gen : Nat) : Nat := (d.cls.passes.filter (fun p => p.2.gen == gen)).length

/-- The inactive generation drains, once its count is 0 (R316). -/
def Dev.genDrain (d : Dev) : Dev :=
  if d.flag R.CLS_GEN F.CLS_GEN_drained || d.genFlight (1 - d.activeGen) != 0 then d
  else
    let gen := 1 - d.activeGen
    let d := d.clearGen gen (R.CLS_TCAM 0) (R.CLS_TCAM 262144) 128
    let d := d.clearGen gen (R.CLS_HASH 0) (R.CLS_HASH 262144) 64
    (d.put R.CLS_GEN F.CLS_GEN_drained 1).raise 48 0 d.activeGen

/-- A CLS_GEN_SWITCH action fires (R315, R316). -/
def Dev.genSwitch (d : Dev) (gen : Nat) : Dev :=
  if d.activeGen = gen % 2 then d
  else ((d.put R.CLS_GEN F.CLS_GEN_active (gen % 2)).put R.CLS_GEN F.CLS_GEN_drained 0).genDrain

/-! ## Decisions (R309, R310, R320) -/

def ClsAct.ty (a : ClsAct) : Nat := let t := a.w0 / 2 ^ 28; if 4 < t then 0 else t
def ClsAct.eport (a : ClsAct) : Nat := bitsOf 27 24 a.w0
def ClsAct.queue (a : ClsAct) : Nat := bitsOf 23 21 a.w0
def ClsAct.policer (a : ClsAct) : Option Nat := if a.w0.testBit 20 then some (bitsOf 19 10 a.w0) else none

/-- A frame dropped by its action. -/
def Dev.actionDrop (d : Dev) : Dev := d.bump R.CLS_DROP F.CLS_DROP_action_drop

/-- A frame is forwarded under an action (R309). -/
def Dev.forward (d : Dev) (a : ClsAct) (p : Pkt) (bs : Bytes) (rxXo : Nat) : Dev :=
  if 8 ≤ a.eport then d.actionDrop
  else
    let dec := a.w0.testBit 9 && (p.ttl bs).isSome
    if dec && decide ((p.ttl bs).getD 0 ≤ 1) then d.bump R.CLS_DROP_X F.CLS_DROP_X_ttl_expired
    else
      let ipBad := p.ipBad bs
      let bs := if dec then p.decTtl bs else bs
      let rw := a.w0.testBit 6
      let bs := if rw then spliceB bs 0 (toBE 2 (a.w2 % 65536) ++ toBE 4 a.w1) else bs
      let bs := vlanEdit (bitsOf 8 7 a.w0) p.vlanN (bitsOf 30 28 a.w2 * 8192 + bitsOf 27 16 a.w2) bs
      d.offer a.eport a.queue a.policer (mkFrame bs false rw ipBad rxXo)

/-- A sensor action (R320). -/
def Dev.sensorAct (d : Dev) (gen : Nat) (a : ClsAct) (p : Pkt) (bs : Bytes) (rxXo : Nat) : Dev :=
  let node := if p.l4 = 5 then p.tunnel else 0
  if ((d.exactFind gen (d.nodeKeyWords 2 node)).getD 0).testBit 31 then
    let body := p.udpBody bs
    if body.length < 25 then d.bump R.CLS_EM_DROP F.CLS_EM_DROP_dl_short else d.dlMessage node (body.drop 24)
  else if a.w0.testBit 5 then d.bump R.CLS_EM_DROP F.CLS_EM_DROP_dl_miss
  else d.forward a p bs rxXo

/-- A management action (R320). While CMD_MGMT.mgmt_en is 0 the port takes no management frame (R431). -/
def Dev.mgmtAct (d : Dev) (gen : Nat) (p : Pkt) (bs : Bytes) : Dev :=
  let src := p.source6
  let udp := if p.l4 = 1 || p.l4 = 4 || p.l4 = 5 then p.sport else 0
  let key := (udp * 65536 + 3) :: (List.range 4).map (fun w => leAt src (4 * w) 4)
  if ((d.exactFind gen key).getD 0).testBit 31 then
    if d.flag R.CMD_MGMT F.CMD_MGMT_mgmt_en then { d with mgmtIn := d.mgmtIn ++ [({ ip := src, udp := udp, body := p.udpBody bs } : MgmtFrame)] } else d
  else d.bump R.CLS_EM_DROP F.CLS_EM_DROP_mgmt_miss

/-- A decision other than decap is carried out. -/
def Dev.actOn (d : Dev) (gen : Nat) (a : ClsAct) (p : Pkt) (bs : Bytes) (rxXo : Nat) : Dev :=
  if a.ty = 1 then d.forward a p bs rxXo
  else if a.ty = 3 then d.sensorAct gen a p bs rxXo
  else if a.ty = 4 then d.mgmtAct gen p bs
  else d.actionDrop

/-- The bytes of the second pass (R310): an inner IP packet gets an Ethernet header whose addresses are 0. -/
def Pkt.innerFrame (p : Pkt) (bs : Bytes) : Bytes :=
  if p.l4 = 3 && p.innerEt != 0 then List.replicate 12 0 ++ toBE 2 p.innerEt ++ bs.drop p.inner else bs.drop p.inner

/-- The ports that the parser recognises. -/
def Dev.parseAs (d : Dev) (badV lim : Nat) (bs : Bytes) : Pkt :=
  parsePkt (d.get R.CLS_PARSE F.CLS_PARSE_vxlan_port) (d.get R.CLS_PARSE F.CLS_PARSE_zil_port) badV lim bs

/-- A decap action on a first pass: the frame waits for its second pass, ahead of any later frame of its port (R310 to R312, R316). -/
def Dev.decapAct (d : Dev) (gen : Nat) (f : RxFrame) (p : Pkt) : Dev :=
  if p.inner = 0 then d.bump R.CLS_DROP_X F.CLS_DROP_X_decap_bad
  else
    let x : SecondPass := ⟨p.innerFrame f.data, if p.innerEt != 0 then 206 else 192, gen, f.xo⟩
    { d with cls := { d.cls with passes := smInsert f.port x d.cls.passes } }

/-- The second pass of a port's frame, under its stamp (R310, R311, R315); its last lookup may let the inactive generation drain (R316). -/
def Dev.secondPass (d : Dev) (port badV : Nat) (x : SecondPass) : Dev :=
  let d := { d with cls := { d.cls with passes := smErase d.cls.passes port } }
  let q := d.parseAs badV x.lim x.data
  let a := d.decide_ x.gen (q.key port 1) port
  let d := if a.ty = 2 then d.bump R.CLS_DROP_X F.CLS_DROP_X_pass_limit else d.actOn x.gen a q x.data x.xo
  d.genDrain

/-! ## Fragments (R321) -/

def Dev.fragFind (d : Dev) (key : Bytes) : Option ClsAct := (d.cls.frags.find? (fun e => e.key == key)).map (·.act)

/-- A stored decision carried out on a later fragment. -/
def Dev.fragAct (d : Dev) (a : ClsAct) (badV : Nat) (f : RxFrame) : Dev :=
  if a.ty = 1 then d.forward a (d.parseAs badV 192 f.data) f.data f.xo else d.actionDrop

/-- A decision is stored for a key, and the later fragments that wait for it are released in arrival order. -/
def Dev.fragStore (d : Dev) (key : Bytes) (a : ClsAct) (badV : Nat) : Dev :=
  let held := d.cls.pending.filter (fun x => x.1 == key)
  let d := { d with cls := { d.cls with
    frags := d.cls.frags.filter (fun e => e.key != key) ++ [⟨key, a, d.xo⟩]
    pending := d.cls.pending.filter (fun x => x.1 != key) } }
  held.foldl (fun d x => d.fragAct a badV x.2.1) d

/-- A first fragment (R321). -/
def Dev.firstFrag (d : Dev) (gen badV : Nat) (f : RxFrame) (p : Pkt) : Dev :=
  let key := p.fragKey
  let a := d.decide_ gen (p.key f.port 0) f.port
  if (d.fragFind key).isNone && decide (2048 ≤ d.cls.frags.length) then
    let d := (d.bump R.CLS_FRAG_DROP F.CLS_FRAG_DROP_table_full).raise 49 f.port
    if a.ty = 2 then d.decapAct gen f p else d.actOn gen a p f.data f.xo
  else
    let a := if a.ty = 1 then a else ⟨0, 0, 0⟩
    (d.actOn gen a p f.data f.xo).fragStore key a badV

/-- A later fragment (R321). -/
def Dev.laterFrag (d : Dev) (badV : Nat) (f : RxFrame) (p : Pkt) : Dev :=
  let key := p.fragKey
  match d.fragFind key with
  | some a => d.fragAct a badV f
  | none =>
    if d.cls.pending.length < 64 then { d with cls := { d.cls with pending := d.cls.pending ++ [(key, f, d.xo)] } }
    else d.bump R.CLS_FRAG_DROP F.CLS_FRAG_DROP_pending_full

/-- Later fragments that have waited 50 ms are dropped (R321). -/
def Dev.fragWaitExpire (d : Dev) : Dev :=
  let old := d.cls.pending.filter (fun x => decide (x.2.2 + 50000000 ≤ d.xo))
  { d with cls := { d.cls with pending := d.cls.pending.filter (fun x => !decide (x.2.2 + 50000000 ≤ d.xo)) } }.bumpBy
    R.CLS_FRAG_DROP F.CLS_FRAG_DROP_expired old.length

/-- Decisions stored 2 s ago are freed (R321). -/
def Dev.fragEntryExpire (d : Dev) : Dev :=
  { d with cls := { d.cls with frags := d.cls.frags.filter (fun e => !decide (e.at_ + 2000000000 ≤ d.xo)) } }

/-! ## Soft errors (R322) -/

/-- An error that a table shows. A template has no valid bit: its words are then left open. -/
def Dev.clsErr (d : Dev) : ClsErr → Dev
  | .tcam e =>
    if e.lost then
      let a := R.CLS_TCAM (32 * e.entry.val + 31)
      (d.setWord a (d.word a &&& 0x7FFFFFFF)).fatal 5 0
    else (d.bump R.CLS_SCRUB F.CLS_SCRUB_restored).recovery 4
  | .exact i => (d.setWord (R.CLS_HASH (16 * i.val + 15)) (d.word (R.CLS_HASH (16 * i.val + 15)) &&& 0x7FFFFFFF)).fatal 5 0
  | .template t => ((List.range 16).foldl (fun d w =>
      let (v, d) := d.takeWord
      d.setWord (R.CLS_TMPL (16 * t.val + w)) v) d).fatal 5 0
  | .fragment i => ({ d with cls := { d.cls with frags := d.cls.frags.eraseIdx i } }).fatal 5 0

def Dev.clsErrs (d : Dev) (errs : List ClsErr) : Dev := errs.foldl Dev.clsErr d

/-! ## A frame (R308, R347) -/

/-- The classifier accepts the oldest frame of MAC n's receive buffer and acts on it; a frame of that port that waits for its second pass comes first
(R312). -/
def Dev.classify (d : Dev) (n : Nat) (errs : List ClsErr) : Dev :=
  match smFind d.cls.passes n, (d.mac n).rx with
  | some x, _ =>
    let (v, d) := (d.clsErrs errs).takeWord
    d.secondPass n (v.toNat % 8) x
  | none, [] => d
  | none, f :: rest =>
    let d := d.clsErrs errs
    let (v, d) := d.takeWord
    let badV := v.toNat % 8
    let d := d.setMac n { d.mac n with rx := rest }
    let gen := d.activeGen
    let p := d.parseAs badV 192 f.data
    let d :=
      if p.frag = 2 then d.laterFrag badV f p
      else if p.frag = 1 then d.firstFrag gen badV f p
      else
        let a := d.decide_ gen (p.key f.port 0) f.port
        if a.ty = 2 then d.decapAct gen f p else d.actOn gen a p f.data f.xo
    d.checkMarks n

/-! ## The sensor port (R185, R318, R319) -/

/-- The 24 bytes of the Ziloth transport header of a record (R185). -/
def transportHeader (rec : Bytes) : Bytes :=
  let b15 := byteAt rec 29
  sliceB rec 0 14 ++ toLE 1 (recRadioA rec * 64 + recMode rec * 8) ++ toLE 2 (recGroup rec * 16384 + recK0A rec) ++ toLE 1 (recLqf rec)
    ++ toLE 2 (recFev rec) ++ toLE 3 (wrapNat 24 (satS 24 (recOffsetA rec)))
    ++ toLE 1 (bitOf ((recControl rec / 2 ^ 24).testBit 4) * 32 + bitOf (recJoin rec) * 16 + bitOf (recPilot rec) * 8
      + bitOf (b15.testBit 3) * 4 + bitOf (b15.testBit 2) * 2 + bitOf (recDual rec))

/-- The words of template t. -/
def Dev.template (d : Dev) (t : Nat) : List Nat := (List.range 16).map (fun w => (d.word (R.CLS_TMPL (16 * t + w))).toNat)

/-- A UDP payload leaves in the frame of a template's words, metered by the policer of an uplink action (R319, R331). -/
def Dev.sendWords (d : Dev) (ws : List Nat) (policer : Option Nat) (body : Bytes) : Dev :=
  let w0 := ws.getD 0 0
  if 8 ≤ w0 / 2 ^ 28 then d
  else d.offer (w0 / 2 ^ 28) (bitsOf 27 25 w0) policer (mkFrame (datagram ws body) true false false d.xo)

/-- A UDP payload leaves through template t. -/
def Dev.sendTemplate (d : Dev) (t : Nat) (policer : Option Nat) (body : Bytes) : Dev := d.sendWords (d.template t) policer body

/-- A record and its payload enter from the release queue (R318). -/
def Dev.recordLookup (d : Dev) (rec payload : Bytes) : Dev :=
  let a := match d.exactFind d.activeGen (d.nodeKeyWords 1 (recAddress rec)) with
    | some w => w
    | none => (d.word R.CLS_UL_DEFAULT).toNat
  let pol := if a.testBit 13 then some (bitsOf 12 3 a) else none
  if recStatus rec = 0 then
    if a.testBit 31 then d.sendTemplate (bitsOf 30 23 a) pol (transportHeader rec ++ payload) else d
  else if a.testBit 22 then d.sendTemplate (bitsOf 21 14 a) pol rec
  else d

/-! ## Writing entries (R314, R317) -/

/-- A word of a table entry may be written: not while a drain is under way and the entry belongs to the inactive generation (R317). -/
def Dev.entryOpen (d : Dev) (last : Nat) : Bool :=
  d.flag R.CLS_GEN F.CLS_GEN_drained || !(d.word last).getLsbD (29 + (1 - d.activeGen))

/-- A word of an entry of the given size in bytes is written; a write other than to its last word first clears its valid bit (R314). -/
def Dev.entryWrite (d : Dev) (base size a : Nat) (w : Word) : Dev :=
  let e := a - (a - base) % size
  let last := e + size - 4
  if a = last then d.setWord a w
  else (d.setWord last (d.word last &&& 0x7FFFFFFF)).setWord a w

end Sys2Proof.Machine
end

