-- ==== Sys2Proof/Machine/Stores.lean ====
section
/-! DEFINITION. Bit errors in the on-die stores that no block chapter covers (21_reliability_and_ordering.md, R466). -/

namespace Sys2Proof.Machine

open Sys2Proof

/-! ## Toybox entries and contexts -/

/-- A task leaves the core it runs on or is queued on; the core goes on with the queued task. -/
def Dev.pullTask (d : Dev) (c i : Nat) : Dev :=
  let p := d.pcore c
  if p.run = some i then
    let d := (d.setMcore c { d.mcore c with running := false, tru := [], truWait := none, stores := [], pipe := [] }).cipDrop c
    let d := d.setPcore c { p with run := none, queued := none, done := none }
    match p.queued with
    | some (j, desc) => d.startOn c j desc
    | none => if p.retiring then d.retireCore c else d
  else if p.queued.map (·.1) = some i then d.setPcore c { p with queued := none }
  else d

/-- A task is removed wherever it stands, its flow free for the next one (R253). -/
def Dev.removeTask (d : Dev) (i : Nat) (t : Task) : Dev :=
  let d := if t.state = 3 then d.pullTask t.core i else d
  let d := { d with pup := { d.pup with redo := d.pup.redo.filter (fun p => p.1 != i) } }
  let d := if 3 ≤ t.state then d.setFlow t.flow { d.flow t.flow with inService := false } else d
  d.expireTask i t

/-- A Toybox entry is lost: its task expires with no record (R466, R239). -/
def Dev.loseTask (d : Dev) (i : Nat) : Dev :=
  match d.task i with
  | none => d
  | some t => ((d.removeTask i t).fatal 6 0).dispatch

/-- The messages of a context's downlink queue leave the pool. -/
def Dev.dropMessages (d : Dev) (x : Ctx) : Dev := { d with sched := { d.sched with pool := x.dq.foldl smErase d.sched.pool } }

/-- A node context is lost: it is freed without write-back, its node must join again, and its scheduled tasks that no core has yet are dropped with the
gap of R216 (R466). -/
def Dev.loseContext (d : Dev) (i : Nat) : Dev :=
  match d.ctx i with
  | none => d
  | some x =>
    let d := match d.regEntry x.address with
      | some e => d.setReg x.address { e with needJoin := true }
      | none => d
    let waiting := d.pup.tasks.filter (fun p => p.2.flow == i && decide (p.2.state ≤ 2))
    let d := waiting.foldl (fun d p =>
      (((d.freeTaskOps p.1 p.2).dropTask p.1).bump R.SCH_CTX_STAT F.SCH_CTX_STAT_ctx_full).raise 41) d
    let busy := (d.flow i).inService
    let d := (d.dropMessages x).freeCtx i
    (d.setFlow i { d.flow i with inService := busy }).fatal 7 0

/-! ## Action-list entries -/

/-- An entry of the action list is removed. -/
def Dev.dropAct (d : Dev) (i : Nat) : Dev := { d with acts := smErase d.acts i }

/-- A stage of the configuration. -/
def Dev.stage (d : Dev) (s : Nat) : Stage := smGet (fun _ => Stage.reset) d.stages s

/-- The device with a stage replaced. -/
def Dev.setStage (d : Dev) (s : Nat) (x : Stage) : Dev := { d with stages := smSet (fun _ => Stage.reset) d.stages s x }

/-- An action of the list does not fire: a RAD_TX_START raises event 46, a CFG_STAGE_TAKEOVER leaves its stage unarmed (R62, R435, R466). -/
def Dev.actLost (d : Dev) (a : Act) : Dev :=
  if a.ty = 1 then ((d.dropOwn a.target a.arg).settleTx a.target d.nt).raise 46 a.target
  else if a.ty = 5 && decide (a.arg < 8) then d.setStage a.arg { d.stage a.arg with armed := false }
  else d

/-- An action-list entry is lost (R466). -/
def Dev.loseAct (d : Dev) (i : Nat) : Dev :=
  match smFind d.acts i with
  | none => d
  | some a => (((d.dropAct i).bump R.CLK_ACT_LATE F.CLK_ACT_LATE_late_skipped).actLost a).fatal 8 0

/-! ## Command and release queues -/

/-- A command-queue entry is lost: its command will complete in its place with status 3 (R466). -/
def Dev.loseCmd (d : Dev) (i : Nat) : Dev :=
  if i < d.cmd.queue.length then
    { d with cmd := { d.cmd with queue := modifyNth d.cmd.queue i (fun c => { c with lost := true }) } }.fatal 11 0
  else d

/-- A release-queue entry is lost: its task is treated as abandoned (R466, R248). -/
def Dev.loseRelease (d : Dev) (i : Nat) : Dev :=
  match d.task i with
  | none => d
  | some t => if t.state = 4 then (d.abandonTask i t).fatal 12 0 else d

/-- An error in a store of R466. -/
def Dev.storeErr (d : Dev) (e : StoreErr) : Dev :=
  if !e.uncorrectable then d.corrected
  else match e.store with
    | .toybox => d.loseTask e.index
    | .context => d.loseContext e.index
    | .action => d.loseAct e.index
    | .key => d.keySlotLost e.index
    | .logRec => d.replaceLog e.index
    | .cmdQueue => d.loseCmd e.index
    | .releaseQueue => d.loseRelease e.index

/-- The errors that the accesses of a command find. -/
def Dev.storeErrs (d : Dev) (es : List StoreErr) : Dev := es.foldl Dev.storeErr d

end Sys2Proof.Machine
end

