-- ==== Sys2Proof/Machine/Actions.lean ====
section
/-! DEFINITION. The action list (02_clockwork.md, R58 to R66) and the actions it fires: burst sets (R119 to R122, R510), radio states, generation
switches, gate takeovers, stage takeovers, quiet calibrations and GPIO levels; and return-loss aborts (R135, R468). -/

namespace Sys2Proof.Machine

open Sys2Proof

/-! ## Arming (R58 to R64) -/

/-- The target range of an action type (R61); none for a type that does not exist. -/
def actTargets : Nat → Option Nat
  | 1 | 2 | 6 => some 2
  | 3 | 5 => some 0
  | 4 => some 7
  | 7 => some 23
  | _ => none

/-- The four registers give an action that may be armed (R63). -/
def Dev.armValid (d : Dev) (a : Act) (ns : Nat) : Bool :=
  (match actTargets a.ty with
    | none => false
    | some top => decide (a.target ≤ top))
  && decide (ns ≤ 999999999)
  && !(a.ty == 6 && slotOf a.time != d.quietAt a.time)
  && !(a.ty == 1 && decide (1023 < a.arg))

/-- The staged action (R58). -/
def Dev.stagedAct (d : Dev) : Act where
  time := (d.get R.CLK_ACT_TIME_HI F.CLK_ACT_TIME_HI_sec_hi * 2 ^ 32 + d.get R.CLK_ACT_TIME_LO F.CLK_ACT_TIME_LO_sec_lo) * 1000000000
    + d.get R.CLK_ACT_TIME_NS F.CLK_ACT_TIME_NS_ns
  ty := d.get R.CLK_ACT_SPEC F.CLK_ACT_SPEC_type
  target := d.get R.CLK_ACT_SPEC F.CLK_ACT_SPEC_target
  arg := d.get R.CLK_ACT_SPEC F.CLK_ACT_SPEC_arg

/-- The outcome of an arm or a cancel (R58, R65). -/
def Dev.actResult (d : Dev) (outcome index : Nat) : Dev :=
  (d.put R.CLK_ACT_RESULT F.CLK_ACT_RESULT_outcome outcome).put R.CLK_ACT_RESULT F.CLK_ACT_RESULT_index index

/-- The time of a late action advanced by whole superframes until it lies at least 1 ms ahead (R62). -/
def Dev.laterTime (d : Dev) (t : Nat) : Nat := t + ceilDiv (d.nt + 1000000 - t) superNs * superNs

/-- A CFG_STAGE_TAKEOVER is armed: its stage is armed, and event 10 is raised (R435). -/
def Dev.stageArmed (d : Dev) (a : Act) : Dev :=
  if a.ty = 5 && decide (a.arg < 8) then (d.setStage a.arg { d.stage a.arg with armed := true }).raise 10 a.arg else d

/-- The effect of an action other than RAD_TX_START at NT t (R61). -/
def Dev.actEffect (d : Dev) (a : Act) (t : Nat) : Dev :=
  match a.ty with
  | 2 => d.during (sampleInstant t) (·.radStateAction a.target a.arg)
  | 3 => d.genSwitch a.arg
  | 4 => d.gateTakeover a.target a.arg t
  | 5 =>
    let d := { d with sched := { d.sched with dirTake := true } }
    if a.arg < 8 then { d with stagesFired := d.stagesFired ++ [a.arg] } else d
  | 6 => d.calQuiet a.target a.arg
  | 7 => d.put R.GPIO_OUT ⟨a.target, a.target⟩ a.arg
  | _ => d

/-- An action is placed in the list. -/
def Dev.placeAct (d : Dev) (i : Nat) (a : Act) : Dev := { d with acts := smInsert i a d.acts, actsFired := d.actsFired.filter (· != i) }

/-- A late action follows its policy (R62): the device and the outcome. The entry stands at index i. -/
def Dev.lateAct (d : Dev) (i : Nat) (a : Act) : Dev × Nat :=
  if a.ty = 2 || a.ty = 3 || a.ty = 5 then
    let d := (d.dropAct i).bump R.CLK_ACT_LATE F.CLK_ACT_LATE_late_other
    ({ d with actsFired := d.actsFired ++ [i] }.actEffect a d.nt, 2)
  else if a.ty = 4 || a.ty = 6 then
    ((d.placeAct i { a with time := d.laterTime a.time }).bump R.CLK_ACT_LATE F.CLK_ACT_LATE_late_other, 4)
  else (((d.dropAct i).bump R.CLK_ACT_LATE F.CLK_ACT_LATE_late_skipped).actLost a, 3)

/-- An action of a valid kind is armed (R58, R59, R64): the device, its outcome, and its index. -/
def Dev.armAct (d : Dev) (a : Act) : Dev × Nat × Nat :=
  match smLowestFree d.acts 1024 with
  | none =>
    let d := d.bump R.CLK_ACT_STATUS F.CLK_ACT_STATUS_refused
    (if a.ty = 1 then d.raise 46 a.target else d, 5, 0)
  | some i =>
    let d := (d.placeAct i a).stageArmed a
    if a.time < d.nt + 2000 then
      let (d, o) := d.lateAct i a
      (d, o, i)
    else (d, 1, i)

/-- CLK_ACT_CTRL.arm is set (R58, R63). A refused arm names no entry: CLK_ACT_RESULT.index reads 0 (DESIGN CHOICE, log entry 210). -/
def Dev.actionArm (d : Dev) : Dev :=
  let a := d.stagedAct
  if d.armValid a (d.get R.CLK_ACT_TIME_NS F.CLK_ACT_TIME_NS_ns) then
    let (d, o, i) := d.armAct a
    d.actResult o i
  else d.actResult 6 0

/-- CLK_ACT_CTRL.cancel is set with an index (R65). -/
def Dev.actionCancel (d : Dev) (i : Nat) : Dev :=
  let d := d.put R.CLK_ACT_CTRL F.CLK_ACT_CTRL_index i
  match smFind d.acts i with
  | some a =>
    let d := d.dropAct i
    let d := if a.ty = 5 && decide (a.arg < 8) then d.setStage a.arg { d.stage a.arg with armed := false }
      else if a.ty = 1 then (d.dropOwn a.target a.arg).settleTx a.target d.nt else d
    d.actResult 7 i
  | none => d.actResult (if d.actsFired.contains i then 8 else 9) i

/-! ## Firing (R60, R66) -/

/-- The action of a type at an index fires now: it is armed, its time has come, and no armed action of the same time has a lower index. -/
def Dev.firing (d : Dev) (i ty : Nat) : Option Act :=
  (smFind d.acts i).filter (fun a => a.ty == ty && decide (a.time ≤ d.nt) && !d.acts.any (fun p => p.2.time == a.time && decide (p.1 < i)))

/-- The entry that fires leaves the list (R60). -/
def Dev.takeAct (d : Dev) (i : Nat) : Dev := { d.dropAct i with actsFired := d.actsFired ++ [i] }

/-- An action other than RAD_TX_START fires. -/
def Dev.fireAct (d : Dev) (i ty : Nat) : Dev :=
  match d.firing i ty with
  | none => d
  | some a => (d.takeAct i).actEffect a a.time

/-- The actions that a step of NT skipped, in order of time and index (R55, R62). -/
def Dev.skippedActs (d : Dev) : List (Nat × Act) :=
  let le (p q : Nat × Act) : Bool := decide (p.2.time < q.2.time) || (p.2.time == q.2.time && decide (p.1 ≤ q.1))
  (d.acts.filter (fun p => decide (p.2.time < d.nt))).foldl (fun acc p => acc.takeWhile (fun q => le q p) ++ [p] ++ acc.dropWhile (fun q => le q p)) []

/-- The actions a step skipped follow their late policies (R55). -/
def Dev.stepActs (d : Dev) : Dev := d.skippedActs.foldl (fun d p => (d.lateAct p.1 p.2).1) d

/-- NT that the carriers and the release steps of the radios are kept in moves with a step of NT. -/
def Dev.shiftAir (d : Dev) (delta : Int) : Dev :=
  let sh (t : Nat) : Nat := ((t : Int) + delta).toNat
  (List.range 3).foldl (fun d r =>
    let x := d.radio r
    d.setRadio r { x with
      air := x.air.map (fun c => { c with start := sh c.start, stop := sh c.stop })
      release := x.release.map (fun p => (sh p.1, p.2)) }) d

/-- A step of NT with all that follows from it (R55, R62, R240). -/
def Dev.stepAll (d : Dev) (delta : Int) : Dev := (((d.stepNt delta).shiftAir delta).stepActs).stepDeadlines

/-! ## RAD_TX_START (R118 to R122, R158, R510) -/

/-- The burst set of a handle: its good bursts in the order of the chain, and the number of bad descriptors (R158). -/
def Dev.burstSet (d : Dev) (r handle : Nat) : List TxDesc × Nat :=
  let (xs, cut) := d.txChain r 64 handle []
  (xs.filter TxDesc.ok, (xs.filter (fun x => !x.ok)).length + bitOf cut)

/-- The cause of checks 1 to 5 that cancels every burst of a set (R510). -/
def Dev.txCheck (d : Dev) (r : Nat) : Option Nat :=
  if d.radState r == radOFF || d.radTarget r == radOFF || (!d.clk.lockedOnce && !d.flag R.CFG_FLAGS F.CFG_FLAGS_free_run) then some 5
  else if d.evt.trip then some 6
  else if d.ampBlocked r then some 3
  else if (d.txPort r).isNone then some 4
  else none

/-- A RAD_TX_START of a radio whose die runs fires at T (R119 to R121, R510). -/
def Dev.txFire (d : Dev) (r handle time : Nat) : Dev :=
  let (bursts, bad) := d.burstSet r handle
  let d := d.bumpBy (R.KAL_TX_STATUS r) F.KAL_TX_STATUS_bad_desc bad
  match d.txCheck r with
  | some cause =>
    let d := if cause = 4 then d.put (R.RAD_ANT r) F.RAD_ANT_tx_port 3 else d
    ((d.txCancels r cause bursts.length).dropOwn r handle).settleTx r d.nt
  | none =>
    if bursts.isEmpty then d.settleTx r d.nt
    else if d.canSend r then
      let t := sampleInstant time
      (d.startSet r handle t time bursts).settleTx r t
    else
      let d := d.setRadio r { d.radio r with held := (d.radio r).held ++ [⟨handle, time, bursts⟩] }
      if d.radInTx r || (d.radio r).returning then d else d.leaveForTx r

/-- A RAD_TX_START fires (R118, R510): a set for a die that is fenced, off or gone is cancelled. -/
def Dev.txStart (d : Dev) (i : Nat) : Dev :=
  match d.firing i 1 with
  | none => d
  | some a =>
    let r := a.target
    let d := d.takeAct i
    if d.radioUp r then d.txFire r a.arg a.time
    else if !d.present (r + 1) || d.dieIsolated (r + 1) then d.dropOwn r a.arg
    else if d.dom (4 + r) = 2 then (d.txCancels r 5 (d.burstSet r a.arg).1.length).dropOwn r a.arg
    else (d.raise 28 r 5).dropOwn r a.arg

/-- The end of the last slot of a burst of a held set: of its run, where the scheduler made the set, else of the slot in which it would have ended at
its own T (R121). -/
def Dev.burstEnd (d : Dev) (r : Nat) (h : HeldSet) (x : TxDesc) : Nat :=
  match smFind d.sched.own (r * 1024 + h.handle) with
  | some o => o.stop
  | none => ceilDiv (h.time + x.ns + 1000000) slotNs * slotNs

/-- The radio has become able to transmit: the held sets start, a burst that would end less than 1 ms before the end of its last slot is cancelled
(R121). -/
def Dev.deferredStart (d : Dev) (r : Nat) : Dev :=
  if !d.radioUp r || !d.canSend r then d
  else
    let t := sampleInstant d.nt
    let (now, later) := (d.radio r).held.partition (fun h => decide (h.time ≤ t) && decide (t ≤ h.time + d.txGuard r))
    let d := d.setRadio r { d.radio r with held := later }
    let d := now.foldl (fun d h =>
      let before := (d.radio r).air.length
      let (ok, late) := h.bursts.partition (fun x => decide (t + x.ns + 1000000 ≤ d.burstEnd r h x))
      let d := (d.txCancels r 1 late.length).startSet r h.handle t h.time ok
      if h.time < d.nt && decide (before < (d.radio r).air.length) then d.bump (R.RAD_TX_STATS r) F.RAD_TX_STATS_deferred else d) d
    if now.isEmpty then d else d.settleTx r t

/-- T + guard has passed: held sets that have not started are cancelled (R122). -/
def Dev.guardExpire (d : Dev) (r : Nat) : Dev :=
  if !d.radioUp r then d
  else
    let (gone, kept) := (d.radio r).held.partition (fun h => decide (h.time + d.txGuard r ≤ d.nt))
    let d := d.setRadio r { d.radio r with held := kept }
    let d := gone.foldl (fun d h => (d.txCancels r 1 h.bursts.length).dropOwn r h.handle) d
    if !gone.isEmpty && kept.isEmpty && (d.radio r).air.isEmpty then
      if d.radInTx r then d.stretchEnds r d.nt false false else d.xampIdle r d.nt
    else d

/-! ## Return loss (R135, R468) -/

/-- Control entries return to their node's queue in their former order (R468). -/
def Dev.returnEntries (d : Dev) (es : List CtlEntry) : Dev :=
  es.foldl (fun d e => match d.ctx e.ctx with
    | none => d
    | some x => d.setCtx e.ctx { x with ctl := insertEntry e x.ctl, coming := x.coming.filter (fun p => p.grant != e.grant) }) d

/-- A message returns to the head of its node's queue with the count it was sent under (R468). -/
def Dev.returnMessage (d : Dev) (o : TxOwn) : Dev :=
  match o.msg, d.ctx o.ctx with
  | some m, some x =>
    match smLowestFree d.sched.pool poolSize with
    | some b => { d with sched := { d.sched with pool := smInsert b m d.sched.pool } }.setCtx o.ctx { x with dq := b :: x.dq, headAt := superOf d.nt }
    | none => d
  | _, _ => d

/-- What an aborted burst set carried returns for the next window (R468): data and grants do, a join response does not. -/
def Dev.returnSet (d : Dev) (r handle : Nat) : Dev :=
  match smFind d.sched.own (r * 1024 + handle) with
  | none => d
  | some o =>
    let d := d.dropOwn r handle
    match o.kind with
    | 0 => (d.returnMessage o).recovery 3
    | 1 => (d.returnEntries o.entries).recovery 3
    | 2 => if o.entries.isEmpty then d else (d.returnEntries o.entries).recovery 3
    | _ => d

/-- A port that carries a carrier reads return loss below 3 dB (R135). -/
def Dev.returnLossAbort (d : Dev) (r port : Nat) : Dev :=
  let cs := (d.radio r).air.filter (fun c => c.port == port)
  if !d.radioUp r || cs.isEmpty then d
  else
    let d := d.markTx r port
    let d := d.setRadio r { d.radio r with air := (d.radio r).air.filter (fun c => c.port != port) }
    let d := (d.txCancels r 4 cs.length).dutyRefresh r
    let sets := cs.foldl (fun acc c => if acc.contains c.set then acc else acc ++ [c.set]) []
    let d := sets.foldl (fun d h => d.returnSet r h) d
    if (d.radio r).air.isEmpty then d.lastEnds r d.nt else d

end Sys2Proof.Machine
end

