-- ==== Sys2Proof/Machine/Drc.lean ====
section
/-! DEFINITION. The DRAM controller: address mapping, the two channels' bank queues, refresh and derating, inline ECC and the patrol scrub
(16_dram_controller.md). -/

namespace Sys2Proof.Machine

open Sys2Proof

/-- The controller is in service and accepts requests (R380, DRC_CTRL.en). -/
def Dev.drcServes (d : Dev) : Bool := d.memUp && d.flag R.DRC_CTRL F.DRC_CTRL_en

/-! ## Address mapping (R383) -/

/-- The channel of an address. -/
def dramChan (a : Nat) : Nat := bitsOf 6 6 a

/-- The row of an address. -/
def dramRow (a : Nat) : Nat := bitsOf 31 17 a

/-- The bank of an address under a mapping order; order 3 acts as 2. -/
def dramBank (map a : Nat) : Nat :=
  match map with
  | 0 => bitsOf 16 13 a
  | 1 => bitsOf 10 7 a
  | _ => bitsOf 10 7 a ^^^ bitsOf 20 17 a

/-- The column of an address under a mapping order. -/
def dramCol (map a : Nat) : Nat := if map = 0 then bitsOf 12 7 a else bitsOf 16 11 a

/-- The bank of an address under the order in force. -/
def Dev.bankOf (d : Dev) (a : Nat) : Nat := dramBank (d.get R.DRC_CTRL F.DRC_CTRL_map) a

/-! ## Requests (R386 to R389) -/

/-- The requests a channel holds, in order of arrival. -/
def Dev.chan (d : Dev) (c : Nat) : List DramReq := if c = 0 then d.drc.ch0 else d.drc.ch1

/-- The device with a channel's requests replaced. -/
def Dev.setChan (d : Dev) (c : Nat) (rs : List DramReq) : Dev :=
  if c = 0 then { d with drc := { d.drc with ch0 := rs } } else { d with drc := { d.drc with ch1 := rs } }

/-- A request's age in ns. -/
def Dev.dramAge (d : Dev) (r : DramReq) : Nat := d.xo - r.at_

/-- A request's urgency (R388). -/
def Dev.urgency (d : Dev) (r : DramReq) : Nat :=
  let a := 100 * d.dramAge r
  if 100 * r.target ≤ a then 3 else if 75 * r.target ≤ a then 2 else if 50 * r.target ≤ a then 1 else 0

/-- A request that has reached urgency 3 is counted once (R389). -/
def Dev.markUrgent (d : Dev) (rs : List DramReq) : Dev × List DramReq :=
  (rs.foldl (fun d r => if !r.urgent && d.urgency r == 3 then d.bump (R.DRC_PORT_STAT r.port) F.DRC_PORT_STAT_urgent else d) d,
   rs.map (fun r => { r with urgent := r.urgent || d.urgency r == 3 }))

/-- Every request that has reached urgency 3 by now is counted (R389). -/
def Dev.dramAges (d : Dev) : Dev :=
  let (d, c0) := d.markUrgent d.drc.ch0
  let (d, c1) := d.markUrgent d.drc.ch1
  let (d, ps) := d.markUrgent d.drc.ports
  { d with drc := { d.drc with ch0 := c0, ch1 := c1, ports := ps } }

/-- A request may enter its channel: the controller accepts requests, the channel has room, and no earlier request of its port waits (R386, R387). -/
def Dev.dramRoom (d : Dev) (r : DramReq) (ahead : List DramReq) : Bool :=
  d.drcServes && decide ((d.chan (dramChan r.addr)).length < 128) && !ahead.any (fun x => x.port == r.port)

/-- Requests that wait at their ports enter their channels as far as there is room, oldest first (R386). -/
def Dev.dramPump (d : Dev) : List DramReq → List DramReq → Dev
  | held, [] => { d with drc := { d.drc with ports := held } }
  | held, r :: rest =>
    if d.dramRoom r held then (d.setChan (dramChan r.addr) (d.chan (dramChan r.addr) ++ [r])).dramPump held rest
    else d.dramPump (held ++ [r]) rest

/-- A request arrives (R381, R382, R386). One at or above the data range, or while the MEM die is out of service, makes no access and completes with
an error. -/
def Dev.dramArrive (d : Dev) (port : Nat) (write : Bool) (burst mask : Nat) (data : Bytes) : Dev :=
  let d := d.dramAges
  let r : DramReq := ⟨port, write, 64 * burst, mask, padTo 64 data, d.xo, max 1 (d.get (R.DRC_PORT_CFG port) F.DRC_PORT_CFG_target), false⟩
  if !d.memUp || 0xE0000000 ≤ r.addr then { d with drc := { d.drc with last := some ⟨port, r.addr, [], 1⟩ } }
  else d.dramPump [] (d.drc.ports ++ [r])

/-- The candidates of a channel: of each bank queue its oldest request. In in-order mode that is R387's order; out of it, the oldest request has no
earlier request to its row, so it is the oldest of those R389 names. -/
def Dev.candidates (d : Dev) : List DramReq → List Nat → List DramReq
  | [], _ => []
  | r :: rest, seen =>
    if seen.contains (d.bankOf r.addr) then d.candidates rest seen else r :: d.candidates rest (d.bankOf r.addr :: seen)

/-- The candidate of highest urgency, the oldest among equals (R389). -/
def Dev.dramPick (d : Dev) (c : Nat) : Option DramReq :=
  (d.candidates (d.chan c) []).foldl (fun best r =>
    match best with
    | none => some r
    | some b => if d.urgency b < d.urgency r then some r else some b) none

/-! ## Inline ECC (R396, R397) -/

/-- A single-bit error is corrected and counted; event 56 at each multiple of corr_thr (R397). -/
def Dev.eccCorr (d : Dev) (a : Nat) : Dev :=
  let old := d.get R.DRC_ECC_CORR F.DRC_ECC_CORR_corrected
  let thr := d.get R.DRC_ECC_CTRL F.DRC_ECC_CTRL_corr_thr
  let d := d.bump R.DRC_ECC_CORR F.DRC_ECC_CORR_corrected
  if thr != 0 && old != 2 ^ 32 - 1 && (old + 1) % thr == 0 then d.raise 56 (dramChan a) else d

/-- Uncorrectable words of a burst: recorded, each counted, event 57 once, and each word takes the poison code (R397). -/
def Dev.eccUncorr (d : Dev) (a : Nat) (words : List Nat) : Dev :=
  if words.isEmpty then d
  else
    let d := (d.put R.DRC_ECC_ADDR F.DRC_ECC_ADDR_addr (a / 64)).bumpBy R.DRC_ECC_UNCORR F.DRC_ECC_UNCORR_uncorrected words.length
    let d := { d with drc := { d.drc with poison := d.drc.poison ++ (words.map (a / 8 + ·)).filter (fun w => !d.drc.poison.contains w) } }
    d.raise 57 (dramChan a)

/-- The words among ws of a burst that a read finds uncorrectable: poisoned ones, and those with an uncorrectable error. -/
def Dev.badWords (d : Dev) (a : Nat) (errs : List DramErr) (ws : List Nat) : List Nat :=
  ws.filter (fun w => d.drc.poison.contains (a / 8 + w) || errs.any (fun e => e.word.val == w && e.uncorrectable))

/-- The words among ws of a burst that a read finds with a single-bit error. -/
def Dev.fixedWords (d : Dev) (a : Nat) (errs : List DramErr) (ws : List Nat) : List Nat :=
  ws.filter (fun w => !d.drc.poison.contains (a / 8 + w) && errs.any (fun e => e.word.val == w) &&
    !errs.any (fun e => e.word.val == w && e.uncorrectable))

/-- The words ws of a burst are read and their errors act (R397); the uncorrectable ones are answered. -/
def Dev.eccRead (d : Dev) (a : Nat) (errs : List DramErr) (ws : List Nat) : Dev × List Nat :=
  let bad := d.badWords a errs ws
  let d := (d.fixedWords a errs ws).foldl (fun d _ => d.eccCorr a) d
  (d.eccUncorr a bad, bad)

/-- The mask bits of a word of a burst. -/
def DramReq.wordMask (r : DramReq) (w : Nat) : Nat := r.mask / 2 ^ (8 * w) % 256

/-- The words of a burst whose mask satisfies a condition. -/
def DramReq.wordsWith (r : DramReq) (p : Nat → Bool) : List Nat := (List.range 8).filter (fun w => p (r.wordMask w))

/-- The bytes that a read returns; those of an uncorrectable word are free (log entry 3). -/
def Dev.burstData (d : Dev) (a : Nat) (bad : List Nat) : Dev × Bytes :=
  (List.range 8).foldl (fun (x : Dev × Bytes) w =>
    if bad.contains w then
      let (lo, d) := x.1.takeWord
      let (hi, d) := d.takeWord
      (d, x.2 ++ toLE 4 lo.toNat ++ toLE 4 hi.toNat)
    else (x.1, x.2 ++ d.dramRead (a + 8 * w) 8)) (d, [])

/-- The bytes of a write that its mask covers reach memory, but for those of a refused word (R396, R397). -/
def Dev.burstStore (d : Dev) (r : DramReq) (refused : List Nat) : Dev :=
  (List.range 64).foldl (fun d i =>
    if r.mask.testBit i && !refused.contains (i / 8) then d.dramWrite (r.addr + i) (sliceB r.data i 1) else d) d

/-- A request makes its access (R385, R396, R397): the device, the data and the outcome. -/
def Dev.dramAccess (d : Dev) (r : DramReq) (errs : List DramErr) : Dev × Bytes × Nat :=
  if r.write then
    let whole := r.wordsWith (· == 255)
    let (d, bad) := d.eccRead r.addr errs (r.wordsWith (fun m => m != 0 && m != 255))
    let d := { d with drc := { d.drc with poison := d.drc.poison.filter (fun w => !(whole.map (r.addr / 8 + ·)).contains w) } }
    (d.burstStore r bad, [], if bad.isEmpty then 0 else 2)
  else
    let (d, bad) := d.eccRead r.addr errs (List.range 8)
    let (d, data) := d.burstData r.addr bad
    (d, data, if bad.isEmpty then 0 else 2)

/-- The list without the first request equal to one. -/
def dropReq (r : DramReq) : List DramReq → List DramReq
  | [] => []
  | x :: rest => if x = r then rest else x :: dropReq r rest

/-- A command opportunity of a channel (R389): the chosen request issues and completes; its age is sampled, its lateness counted. -/
def Dev.dramIssue (d : Dev) (c : Nat) (errs : List DramErr) : Dev :=
  let d := d.dramAges
  if !d.drcServes then d
  else match d.dramPick c with
  | none => d
  | some r =>
    let (d, data, outcome) := (d.setChan c (dropReq r (d.chan c))).dramAccess r errs
    let d := if r.target ≤ d.dramAge r then d.bump (R.DRC_PORT_STAT r.port) F.DRC_PORT_STAT_late else d
    let d := (d.sample 3 r.port (d.dramAge r)).dramPump [] d.drc.ports
    { d with drc := { d.drc with last := some ⟨r.port, r.addr, data, outcome⟩ } }

/-! ## Refresh (R390 to R395) -/

/-- The refreshes a bank owes. -/
def Dev.owed (d : Dev) (c b : Nat) : Nat := smGet (fun _ => 0) d.drc.owed (c * 16 + b)

/-- The device with a bank's owed count set. -/
def Dev.setOwed (d : Dev) (c b o : Nat) : Dev :=
  { d with drc := { d.drc with owed := smSet (fun _ => 0) d.drc.owed (c * 16 + b) o } }

/-- The refresh multiplier. -/
def Dev.refMult (d : Dev) : Nat := d.get R.DRC_STATUS F.DRC_STATUS_mult

/-- A bank has no pending request. -/
def Dev.bankIdle (d : Dev) (c b : Nat) : Bool := !(d.chan c).any (fun r => d.bankOf r.addr == b)

/-- A forced refresh is counted (R391). -/
def Dev.capForced (d : Dev) : Dev := d.bump R.DRC_REF_STAT F.DRC_REF_STAT_cap_forced

/-- A bank falls due (R390, R391, R393): an idle bank is refreshed at once; a busy one owes one more, unless it owes 8 already or m is above 1, where
the refresh is forced. -/
def Dev.refreshDue (d : Dev) (c b : Nat) : Dev :=
  if !d.memUp then d
  else if d.refMult = 1 then
    if 8 ≤ d.owed c b then d.capForced
    else if d.bankIdle c b then d
    else d.setOwed c b (d.owed c b + 1)
  else if d.bankIdle c b then d
  else d.capForced

/-- A bank that owes refreshes and is idle is refreshed once (R390). -/
def Dev.idleRefresh (d : Dev) (c b : Nat) : Dev :=
  if d.memUp && d.bankIdle c b then d.setOwed c b (d.owed c b - 1) else d

/-- The multiplier takes a value: owed counts follow, and a rise opens a derate window (R393, R394). -/
def Dev.setMult (d : Dev) (m : Nat) : Dev :=
  let old := max 1 d.refMult
  let scale (o : Nat) : Nat := if old < m then o * m / old else ceilDiv (o * m) old
  if m = old then d
  else
    let d := d.put R.DRC_STATUS F.DRC_STATUS_mult m
    let d := { d with drc := { d.drc with owed := d.drc.owed.map (fun p => (p.1, scale p.2)) } }
    if old < m then
      ({ d with drc := { d.drc with window := some (d.xo + 8 * 3904 / m) } }).put R.DRC_STATUS F.DRC_STATUS_window 1
    else d

/-- The multiplier must be at least 2 (R392). -/
def Dev.derateHeld (d : Dev) : Bool := d.flag R.DRC_CTRL F.DRC_CTRL_derate_force || !(d.link 5).up

/-- What R392 demands at once when derate_force is set or string link 6 goes down. -/
def Dev.derateNow (d : Dev) : Dev := if d.memUp && d.derateHeld then d.setMult (max 2 d.refMult) else d

/-- The MR4 read (R392): the devices' rates as powers of 2. -/
def Dev.mr4Read (d : Dev) (r0 r1 : Nat) : Dev :=
  if !d.memUp then d
  else
    let m := if (d.link 5).up then max (2 ^ r0) (2 ^ r1) else d.refMult
    d.setMult (if d.derateHeld then max 2 m else m)

/-- The derate window closes (R393): every refresh owed is forced. -/
def Dev.derateClose (d : Dev) : Dev :=
  match d.drc.window with
  | none => d
  | some w =>
    if w ≤ d.xo then
      let k := (d.drc.owed.headD (0, 0)).1
      let d := d.bumpBy R.DRC_REF_STAT F.DRC_REF_STAT_derate_forced (d.drc.owed.foldl (fun s p => s + p.2) 0)
      let d := { d with drc := { d.drc with owed := [], window := none } }
      (d.put R.DRC_STATUS F.DRC_STATUS_window 0).raise 58 (k / 16) (k % 16)
    else d

/-- Every owed refresh is issued before self-refresh, and the banks owe none after it (R395). -/
def Dev.refreshAll (d : Dev) : Dev := { d with drc := { d.drc with owed := [] } }

/-- DRC_REF_DEBT (R390). -/
def Dev.refDebt (d : Dev) : Word :=
  let top (c : Nat) : Nat := (List.range 16).foldl (fun m b => max m (d.owed c b)) 0
  BitVec.ofNat 32 (min 63 (top 1) * 256 + min 63 (top 0))

/-! ## Patrol scrub (R398) -/

/-- The next burst is read, and the position moves on. Its write-back is dropped where a requestor write to the burst has arrived. -/
def Dev.patrolRead (d : Dev) (errs : List DramErr) : Dev :=
  if !d.drcServes || !d.flag R.DRC_SCRUB F.DRC_SCRUB_en then d
  else
    let p := d.get R.DRC_SCRUB_POS F.DRC_SCRUB_POS_pos
    let written := (d.drc.ch0 ++ d.drc.ch1).any (fun r => r.write && r.addr == 64 * p)
    let kept := d.drc.poison
    let d := (d.eccRead (64 * p) errs (List.range 8)).1
    let d := if written then { d with drc := { d.drc with poison := kept } } else d
    d.put R.DRC_SCRUB_POS F.DRC_SCRUB_POS_pos ((p + 1) % (0xE0000000 / 64))

end Sys2Proof.Machine
end

