-- ==== Sys2Proof/Machine/Link.lean ====
section
/-! DEFINITION. The string links: flits, replay, lanes and their sparing, retraining (01_architecture.md, R16 to R25). -/

namespace Sys2Proof.Machine

open Sys2Proof

/-- One direction of a link. -/
def Link.dir (l : Link) : Dir → LinkDir
  | .out => l.out
  | .in_ => l.in_

/-- The link with one direction replaced. -/
def Link.setDir (l : Link) (k : Dir) (x : LinkDir) : Link :=
  match k with
  | .out => { l with out := x }
  | .in_ => { l with in_ := x }

/-- The opposite direction. -/
def dirOpp : Dir → Dir
  | .out => .in_
  | .in_ => .out

/-- The lanes that are not retired, lowest first. -/
def Link.goodLanes (l : Link) : List Nat := (List.range 9).filter (fun k => !l.retired.testBit k)

/-- The link's width in lanes: the largest of 8, 4, 2, 1 that its good lanes fill; 0 when none is left (R23, R24). -/
def Link.width (l : Link) : Nat :=
  let n := l.goodLanes.length
  if 8 ≤ n then 8 else if 4 ≤ n then 4 else if 2 ≤ n then 2 else n

/-- The lanes that carry data: the lowest-numbered good lanes of the width (R22, R23). -/
def Link.lanes (l : Link) : List Nat := l.goodLanes.take l.width

/-- Lane 8 carries data (LNK_n_STATUS.spare_used). -/
def Link.spareUsed (l : Link) : Bool := l.lanes.contains 8

/-- The lane at a position of the link's width: at eight lanes lane 8 stands in the place of the lane it replaced (R22), and at a narrower width the
lanes in service stand in ascending order (R23; DEDUCED, log entry 200). -/
def Link.laneAt (l : Link) (p : Nat) : Nat :=
  if l.width = 8 then (if l.retired.testBit p then 8 else p) else nthD l.lanes p 0

/-- The bytes that each lane carries of a flit: byte i travels on the lane at position i mod w (R16). -/
def Link.onLanes (l : Link) (raw : Bytes) : List (Nat × Bytes) :=
  (List.range l.width).map (fun p => (l.laneAt p, (chunksOf l.width raw).filterMap (fun c => (c.drop p).head?)))

/-- The lanes in service as a mask. -/
def Link.laneMask (l : Link) : Nat := l.lanes.foldl (fun m k => m + 2 ^ k) 0

/-- The 256 bytes of a flit (R16); the header and acknowledgement words lie little-endian (log entry 13). -/
def flitBytes (ty seq : Nat) (nak : Bool) (ack : Nat) (payload : Bytes) : Bytes :=
  let body := toLE 2 (ty * 4096 + seq) ++ toLE 2 (bitOf nak * 32768 + ack) ++ padTo 248 payload
  body ++ toLE 4 (crc32 body)

/-- The last sequence number a receiver got in order. -/
def LinkDir.lastGood (x : LinkDir) : Nat := (x.expect + 4095) % 4096

/-- A flit that leaves in direction k, carrying the acknowledgement of the other direction. -/
def Link.flitFor (l : Link) (k : Dir) (f : FlitRec) : Bytes :=
  let o := l.dir (dirOpp k)
  flitBytes f.ty f.seq o.nakOwed o.lastGood f.payload

/-- Sends one piece of a transfer, or holds it back while the replay buffer is full or the link is down (R17). -/
def Link.sendPiece (l : Link) (k : Dir) (ty : Nat) (payload : Bytes) : Link :=
  let x := l.dir k
  if l.up && x.replay.length < 64 && x.stalled.isEmpty then
    let f : FlitRec := ⟨x.next, ty, payload, 0⟩
    let raw := l.flitFor k f
    let o := l.dir (dirOpp k)
    (l.setDir k { x with next := (x.next + 1) % 4096, replay := x.replay ++ [f], wire := x.wire ++ [l.onLanes raw] }).setDir (dirOpp k)
      { o with nakOwed := false }
  else l.setDir k { x with stalled := x.stalled ++ [(ty, payload)] }

/-- The pieces of a transfer, 248 bytes each (R16). -/
def flitPieces (payload : Bytes) : List Bytes := if payload.isEmpty then [[]] else chunksOf 248 payload

/-- A source hands over a transfer (R17). -/
def Link.send (l : Link) (k : Dir) (ty : Nat) (payload : Bytes) : Link :=
  if l.isolated then l
  else (flitPieces payload).foldl (fun l p => l.sendPiece k ty p) (l.setDir k { l.dir k with wire := [] })

/-- Stalled pieces go on as far as the replay buffer has room. The fuel is the buffer's size. -/
def Link.unstall (l : Link) (k : Dir) : Nat → Link
  | 0 => l
  | fuel + 1 =>
    let x := l.dir k
    match x.stalled with
    | [] => l
    | (ty, p) :: rest =>
      if l.up && x.replay.length < 64 then
        let l1 := (l.setDir k { x with stalled := [] }).sendPiece k ty p
        (l1.setDir k { l1.dir k with stalled := rest }).unstall k fuel
      else l

/-- Every flit of the replay buffer goes out again, in the original order (R18, R19). -/
def Link.resendAll (l : Link) (k : Dir) : Link :=
  let x := l.dir k
  let fs := x.replay.map (fun f => { f with resent := f.resent + 1 })
  let o := l.dir (dirOpp k)
  let wire := fs.map (fun f => l.onLanes (l.flitFor k f))
  if fs.isEmpty then l
  else (l.setDir k { x with replay := fs, wire := wire, resendTo := x.replay.getLast?.map (·.seq) }).setDir (dirOpp k)
    { o with nakOwed := false }

/-- A flit has been resent 8 times without success (R19). -/
def Link.exhausted (l : Link) : Bool :=
  l.out.replay.any (fun f => decide (8 ≤ f.resent)) || l.in_.replay.any (fun f => decide (8 ≤ f.resent))

/-- The acknowledgement a flit carries acts on the sender of direction k: flits up to it leave the replay buffer, and a nak makes the sender resend
what is left, unless a flit has been resent 8 times (R17 to R19). -/
def Link.acked (l : Link) (k : Dir) (nak : Bool) (ack : Nat) : Link :=
  let x := l.dir k
  let x := match x.replay.findIdx? (fun f => f.seq == ack) with
    | none => x
    | some i => { x with
        replay := x.replay.drop (i + 1)
        resendTo := if (x.replay.take (i + 1)).any (fun f => x.resendTo == some f.seq) then none else x.resendTo }
  let l := l.setDir k { x with wire := [] }
  let l := if nak && !l.exhausted then l.resendAll k else l
  l.unstall k 64

/-- The receiver of direction k discards a flit and returns a nak in the other direction (R18). -/
def Link.nakBack (l : Link) (k : Dir) : Link :=
  let l := l.setDir k { l.dir k with discarding := true, nakOwed := true }
  l.sendPiece (dirOpp k) 0 []

/-- The outcome of a flit's arrival at the receiver of direction k: the link, whether its CRC failed, and whether the sender started a replay (R18). -/
def Link.receive (l : Link) (k : Dir) (raw : Bytes) : Link × Bool × Bool :=
  let x := l.dir k
  if raw.length != 256 || leAt raw 252 4 != crc32 (raw.take 252) then (l.nakBack k, true, false)
  else
    let hdr := leAt raw 0 2
    let ackw := leAt raw 2 2
    let ty := hdr / 4096
    let seq := hdr % 4096
    if seq != x.expect then ((if x.discarding then l else l.nakBack k), false, false)
    else
      let x := { x with
        expect := (x.expect + 1) % 4096
        discarding := false
        delivered := if ty = 0 then x.delivered else x.delivered ++ [(ty, sliceB raw 4 248)] }
      let nak := ackw.testBit 15
      let l' := (l.setDir k x).acked (dirOpp k) nak (ackw % 4096)
      (l', false, nak && !l.exhausted)

/-- The window of R21 in ns, and the errors in it that fail a lane; 0 acts as 1 in both. -/
def Dev.retireWindow (d : Dev) : Nat := max 1 (d.get R.LNK_CTRL F.LNK_CTRL_retire_window) * 100000
def Dev.retireCount (d : Dev) : Nat := max 1 (d.get R.LNK_CTRL F.LNK_CTRL_retire_count)

/-- An error charged to a lane (R21); a lane that carries no data has no block of a flit to spoil (R16). -/
def Dev.chargeLane (d : Dev) (n : Nat) (lane : Nat) : Dev :=
  let l := d.link n
  if l.lanes.contains lane then
    d.setLink n { l with
      laneErrs := (l.laneErrs.filter (fun e => decide (d.xo < e.2 + d.retireWindow))) ++ [(lane, d.xo)] }
  else d

/-- A lane has reached retire_count errors within retire_window (R21). -/
def Dev.laneOver (d : Dev) (n : Nat) (lane : Nat) : Bool :=
  decide (d.retireCount ≤ ((d.link n).laneErrs.filter (fun e => e.1 == lane && decide (d.xo < e.2 + d.retireWindow))).length)

/-- A lane of link n (0 to 6) fails: the spare takes over, or the link narrows, or the die is isolated (R22 to R24). Lane 8 that carries no data, before
its use or left out by narrowing, is retired without an event (R23). -/
def Dev.failLane (d : Dev) (n : Nat) (lane : Nat) : Dev :=
  let l := d.link n
  if l.retired.testBit lane || l.isolated then d
  else
    let l1 := { l with retired := l.retired + 2 ^ lane }
    if l1.goodLanes.isEmpty then (d.fatal 2 (n + 1)).setLink n { l1 with isolated := true, up := false, retraining := false }
    else if lane = 8 && !l.spareUsed then d.setLink n l1
    else if lane < 8 && l.spared.isNone && !l.retired.testBit 8 then
      (d.setLink n { l1 with spared := some lane }).recovery 1
    else (d.setLink n l1).fatal 1 (n + 1)

/-- Every lane of a mask fails in one training: lane 8 first, so that a spare that failed with them is not steered onto, then the data lanes in
ascending order (R19, R21, R22; DESIGN CHOICE of the order, log entry 201). -/
def Dev.failLanes (d : Dev) (n failed : Nat) : Dev :=
  (8 :: List.range 8).foldl (fun d k => if failed.testBit k then d.failLane n k else d) d

/-- A data lane's failure makes the flits in flight go out again in both directions (R22, R18). -/
def Dev.resendLink (d : Dev) (n : Nat) : Dev :=
  let l := d.link n
  if l.up then d.setLink n ((l.resendAll .out).resendAll .in_) else d

end Sys2Proof.Machine
end

