-- ==== Sys2Proof/Machine/Rtc.lean ====
section
/-! DEFINITION. The real-time clock: calendar, staging and commits, leap seconds, trim and alarms (20_rtc.md). -/

namespace Sys2Proof.Machine

open Sys2Proof

/-! ## The calendar (R450) -/

/-- A year counted from 2000 is a leap year. -/
def leapYear (y : Nat) : Bool := y % 4 == 0 && (y % 100 != 0 || y % 400 == 0)

/-- The days of a month. -/
def monthDays (y m : Nat) : Nat :=
  if m = 2 then (if leapYear y then 29 else 28) else if m = 4 ∨ m = 6 ∨ m = 9 ∨ m = 11 then 30 else 31

/-- The days from 2000-01-01 to the first of a year, and within a year to the first of a month. -/
def daysToYear (y : Nat) : Nat := if y = 0 then 0 else 365 * y + (y + 3) / 4 - (y - 1) / 100 + (y - 1) / 400
def daysToMonth (y m : Nat) : Nat := (List.range (m - 1)).foldl (fun s i => s + monthDays y (i + 1)) 0

/-- The number of a date's day from 2000-01-01. -/
def Utc.dayNo (u : Utc) : Nat := daysToYear u.year + daysToMonth u.year u.month + (u.day - 1)

/-- A calendar instant in seconds from 2000-01-01 00:00:00; an inserted second 60 counts as the end of its day. -/
def Utc.secs (u : Utc) : Nat := u.dayNo * 86400 + u.hour * 3600 + u.minute * 60 + u.second

/-- The weekday, 1 Monday to 7 Sunday. -/
def weekdayOf (dayNo : Nat) : Nat := (dayNo + 5) % 7 + 1

/-- The year of a day number, and the days into it. -/
def yearOf (n : Nat) : Nat := ((List.range 200).reverse.find? (fun y => decide (daysToYear y ≤ n))).getD 0

/-- The month of a day of a year. -/
def monthOf (y n : Nat) : Nat := (((List.range 12).reverse.find? (fun m => decide (daysToMonth y (m + 1) ≤ n))).getD 0) + 1

/-- The calendar instant of a number of seconds from 2000-01-01 00:00:00. -/
def utcOf (s : Nat) : Utc :=
  let n := s / 86400
  let y := yearOf n
  let m := monthOf y (n - daysToYear y)
  ⟨y, m, n - daysToYear y - daysToMonth y m + 1, s / 3600 % 24, s / 60 % 60, s % 60⟩

/-- The first second of the next day; 2199 wraps to 2000 (R451). -/
def Utc.nextDay (u : Utc) : Utc :=
  if u.day < monthDays u.year u.month then ⟨u.year, u.month, u.day + 1, 0, 0, 0⟩
  else if u.month < 12 then ⟨u.year, u.month + 1, 1, 0, 0, 0⟩
  else ⟨(u.year + 1) % 200, 1, 1, 0, 0, 0⟩

/-- The next second of an ordinary day. -/
def Utc.tick (u : Utc) : Utc :=
  if u.second < 59 then { u with second := u.second + 1 }
  else if u.minute < 59 then { u with minute := u.minute + 1, second := 0 }
  else if u.hour < 23 then { u with hour := u.hour + 1, minute := 0, second := 0 }
  else u.nextDay

/-- The fields are in range (R453). -/
def Utc.ok (u : Utc) : Bool :=
  decide (u.second ≤ 59) && decide (u.minute ≤ 59) && decide (u.hour ≤ 23) && decide (1 ≤ u.month) && decide (u.month ≤ 12) &&
  decide (u.year ≤ 199) && decide (1 ≤ u.day) && decide (u.day ≤ monthDays u.year u.month)

/-- The TAI epoch's seconds at 2000-01-01 00:00:00 UTC, less the leap seconds. -/
def utcEpoch : Nat := 946684800

/-! ## Alarms (R460 to R463) -/

/-- A mask bit of an alarm is set: the field always compares equal. -/
def Dev.almMask (d : Dev) (a i : Nat) : Bool := (d.get (R.RTC_ALM_CTRL a) F.RTC_ALM_CTRL_mask).testBit i

/-- An alarm's date fields match a day. -/
def Dev.almDay (d : Dev) (a year month day dayNo : Nat) : Bool :=
  (d.almMask a 3 || d.get (R.RTC_ALM_TIME a) F.RTC_ALM_TIME_weekday == weekdayOf dayNo) &&
  (d.almMask a 4 || d.get (R.RTC_ALM_DATE a) F.RTC_ALM_DATE_day == day) &&
  (d.almMask a 5 || d.get (R.RTC_ALM_DATE a) F.RTC_ALM_DATE_month == month) &&
  (d.almMask a 6 || d.get (R.RTC_ALM_DATE a) F.RTC_ALM_DATE_year == year)

/-- An alarm's time fields match a second of the day. -/
def Dev.almTime (d : Dev) (a s : Nat) : Bool :=
  (d.almMask a 0 || d.get (R.RTC_ALM_TIME a) F.RTC_ALM_TIME_second == s % 60) &&
  (d.almMask a 1 || d.get (R.RTC_ALM_TIME a) F.RTC_ALM_TIME_minute == s / 60 % 60) &&
  (d.almMask a 2 || d.get (R.RTC_ALM_TIME a) F.RTC_ALM_TIME_hour == s / 3600)

/-- An alarm matches a calendar instant; an inserted second 60 goes with the second before it (R460). -/
def Dev.almMatch (d : Dev) (a : Nat) (u : Utc) : Bool :=
  d.almDay a u.year u.month u.day u.dayNo && d.almTime a (u.hour * 3600 + u.minute * 60 + min 59 u.second)

/-- An entry into a matching run lies at a second of a day, whose date and the day before match or not. -/
def Dev.almEntry (d : Dev) (a : Nat) (today before : Bool) (s : Nat) : Bool :=
  today && d.almTime a s && !(if s = 0 then before && d.almTime a 86399 else d.almTime a (s - 1))

/-- An entry lies in seconds lo to hi - 1 of the day with number n. -/
def Dev.almEntryIn (d : Dev) (a n lo hi : Nat) : Bool :=
  let u := utcOf (n * 86400)
  let b := utcOf ((n - 1) * 86400)
  let today := d.almDay a u.year u.month u.day n
  let before := n != 0 && d.almDay a b.year b.month b.day (n - 1)
  today && (List.range (hi - lo)).any (fun i => d.almEntry a today before (lo + i))

/-- An entry into a matching run lies strictly between two instants, in seconds from 2000 (R462). -/
def Dev.almPassed (d : Dev) (a old new : Nat) : Bool :=
  let lo := old + 1
  if new ≤ lo then false
  else if lo / 86400 = new / 86400 then d.almEntryIn a (lo / 86400) (lo % 86400) (new % 86400)
  else d.almEntryIn a (lo / 86400) (lo % 86400) 86400 || d.almEntryIn a (new / 86400) 0 (new % 86400) ||
    (List.range (new / 86400 - lo / 86400 - 1)).any (fun i => d.almEntryIn a (lo / 86400 + 1 + i) 0 86400)

/-- An alarm fires (R461, R462). -/
def Dev.almFire (d : Dev) (a : Nat) (skipped : Bool) : Dev :=
  let d := (d.put (R.RTC_ALM_CTRL a) F.RTC_ALM_CTRL_fired 1).raise (20 + a)
  if skipped then (d.put (R.RTC_ALM_CTRL a) F.RTC_ALM_CTRL_skipped 1).raise 22 a else d

/-- The calendar goes from one instant to another, with a jump or without: each enabled alarm is judged (R460, R462, R463). -/
def Dev.judgeAlarms (d : Dev) (old new : Utc) (jump : Bool) : Dev :=
  (List.range 2).foldl (fun d a =>
    if d.flag (R.RTC_ALM_CTRL a) F.RTC_ALM_CTRL_en then
      let passed := jump && d.almPassed a old.secs new.secs
      let enters := new.second != 60 && d.almMatch a new && !d.almMatch a old
      if passed || enters then d.almFire a passed else d
    else d) d

/-! ## Running (R451, R456) -/

/-- The date of the armed leap second, and whether it deletes (R456). -/
def Dev.leapArmed (d : Dev) (delete : Bool) (u : Utc) : Bool :=
  d.flag R.RTC_LEAP F.RTC_LEAP_armed && (d.flag R.RTC_LEAP F.RTC_LEAP_delete == delete) &&
  d.get R.RTC_LEAP F.RTC_LEAP_year == u.year && d.get R.RTC_LEAP F.RTC_LEAP_month == u.month && d.get R.RTC_LEAP F.RTC_LEAP_day == u.day

/-- The leap second applies (R456): armed clears, and TAI - UTC moves in AO, and in Clockwork while the HUB is powered. -/
def Dev.leapApply (d : Dev) (delete : Bool) : Dev :=
  let step (v : Nat) : Nat := if delete then v + 255 else v + 1
  let d := d.put R.RTC_LEAP F.RTC_LEAP_armed 0
  let d := d.put R.RTC_TAI F.RTC_TAI_tai_utc (step (d.get R.RTC_TAI F.RTC_TAI_tai_utc))
  if d.pwr.hubOn then d.put R.CLK_CTRL F.CLK_CTRL_tai_utc (step (d.get R.CLK_CTRL F.CLK_CTRL_tai_utc)) else d

/-- The trim in force, 0.1 ppm (R451). -/
def Dev.rtcTrim (d : Dev) : Int := clampInt (-2000) 2000 (sext 16 (d.get R.RTC_TRIM F.RTC_TRIM_trim))

/-- The ticks of the next second (R451). -/
def Dev.rtcPrescale (d : Dev) : Dev :=
  let acc := d.rtc.acc + d.rtcTrim * 32768
  let k := acc / 10000000
  { d with rtc := { d.rtc with acc := acc - k * 10000000, len := (32768 - k).toNat } }

/-- The calendar stands at an instant, whose second begins now. -/
def Dev.setUtc (d : Dev) (u : Utc) : Dev := { d with rtc := { d.rtc with now := u, secAt := d.xo } }

/-- The calendar enters the next day; after the last day of 2199 it has wrapped (R451). -/
def Dev.enterNextDay (d : Dev) (u : Utc) : Dev :=
  let d := if u.year == 199 && u.month == 12 && u.day == 31 then d.put R.RTC_STATUS F.RTC_STATUS_wrapped 1 else d
  d.setUtc u.nextDay

/-- A second of the calendar ends (R451, R456, R460). -/
def Dev.rtcTick (d : Dev) : Dev :=
  if !d.pwr.aoOn then d
  else
    let u := d.rtc.now
    let d := d.rtcPrescale
    let last (s : Nat) : Bool := u.hour == 23 && u.minute == 59 && u.second == s
    if last 60 then ((d.enterNextDay u).leapApply false).judgeAlarms u u.nextDay false
    else if last 59 && d.leapArmed false u then (d.setUtc { u with second := 60 }).judgeAlarms u { u with second := 60 } false
    else if last 58 && d.leapArmed true u then ((d.enterNextDay u).leapApply true).judgeAlarms u u.nextDay true
    else if last 59 then (d.enterNextDay u).judgeAlarms u u.nextDay false
    else (d.setUtc u.tick).judgeAlarms u u.tick false

/-! ## Setting and reading (R452 to R455) -/

/-- A field is staged (R452). -/
def Dev.rtcStage (d : Dev) (f : RtcField) (v : Nat) : Dev :=
  { d with rtc := match f with
    | .minute => { d.rtc with stMin := some (v % 64) }
    | .hour => { d.rtc with stHour := some (v % 32) }
    | .day => { d.rtc with stDay := some (v % 32) }
    | .month => { d.rtc with stMonth := some (v % 16) }
    | .year => { d.rtc with stYear := some (v % 256) } }

/-- The staging copy empties. -/
def Dev.rtcUnstage (d : Dev) : Dev :=
  { d with rtc := { d.rtc with stMin := none, stHour := none, stDay := none, stMonth := none, stYear := none } }

/-- A date lies before another. -/
def dateLt (y m dd y' m' dd' : Nat) : Bool := decide (y * 512 + m * 32 + dd < y' * 512 + m' * 32 + dd')

/-- The armed date lies before an instant's date (R457). -/
def Dev.leapPast (d : Dev) (u : Utc) : Bool :=
  dateLt (d.get R.RTC_LEAP F.RTC_LEAP_year) (d.get R.RTC_LEAP F.RTC_LEAP_month) (d.get R.RTC_LEAP F.RTC_LEAP_day) u.year u.month u.day

/-- A commit (R452, R453, R457, R462, R463): refused where out of range; else the calendar takes the instant. -/
def Dev.rtcCommit (d : Dev) (u : Utc) : Dev :=
  let old := d.rtc.now
  let d := d.rtcUnstage
  if !u.ok then d.put R.RTC_STATUS F.RTC_STATUS_set_err 1
  else
    let d := d.setUtc u
    let d := if d.leapPast u then d.put R.RTC_LEAP F.RTC_LEAP_armed 0 else d
    d.judgeAlarms old u (decide (old.secs < u.secs))

/-- A write to RTC_SEC (R452). -/
def Dev.rtcSecWrite (d : Dev) (v : Nat) : Dev :=
  let u := d.rtc.now
  d.rtcCommit ⟨d.rtc.stYear.getD u.year, d.rtc.stMonth.getD u.month, d.rtc.stDay.getD u.day, d.rtc.stHour.getD u.hour,
    d.rtc.stMin.getD u.minute, v % 64⟩

/-- The prescaler count of the running second: ticks of the nominal crystal since it began (R451). -/
def Dev.rtcTicks (d : Dev) : Nat := min (d.rtc.len - 1) ((d.xo - d.rtc.secAt) * 32768 / 1000000000)

/-- The calendar and prescaler as a read sees them (R454). -/
def Dev.rtcSeen (d : Dev) : Utc × Nat :=
  match d.rtc.snap with
  | some (u, t, _) => (u, t)
  | none => (d.rtc.now, d.rtcTicks)

/-- A calendar register as a read sees it. -/
def Dev.rtcView (d : Dev) (a : Nat) : Nat :=
  let (u, t) := d.rtcSeen
  if a = R.RTC_SEC then t * 65536 + u.second
  else if a = R.RTC_MIN then u.minute
  else if a = R.RTC_HOUR then u.hour
  else if a = R.RTC_DAY then u.day
  else if a = R.RTC_MONTH then u.month
  else if a = R.RTC_WDAY then weekdayOf u.dayNo
  else u.year

/-- A read of RTC_SEC latches every field (R454). -/
def Dev.rtcSecRead (d : Dev) : Dev :=
  let d := { d with rtc := { d.rtc with snap := some (d.rtc.now, d.rtcTicks, d.xo) } }
  d.answer (BitVec.ofNat 32 (d.rtcView R.RTC_SEC))

/-- A read of RTC_YEAR releases the snapshot (R454). -/
def Dev.rtcYearRead (d : Dev) : Dev :=
  { d with rtc := { d.rtc with snap := none }, rdata := BitVec.ofNat 32 (d.rtcView R.RTC_YEAR) }

/-- 1 s after the latch the snapshot is released (R454). -/
def Dev.rtcSnapTimeout (d : Dev) : Dev :=
  match d.rtc.snap with
  | some (_, _, t) => if t + 1000000000 ≤ d.xo then { d with rtc := { d.rtc with snap := none } } else d
  | none => d

/-- RTC_CTRL.nt_set is set (R455). -/
def Dev.ntSet (d : Dev) : Dev := d.put R.RTC_CTRL F.RTC_CTRL_nt_set 1

/-- The UTC of a network time, where the calendar can hold it (R455). -/
def Dev.utcAt (d : Dev) (t : Nat) : Utc :=
  let s : Int := (t / 1000000000 : Nat) - (d.get R.CLK_CTRL F.CLK_CTRL_tai_utc : Int) - utcEpoch
  if s < 0 ∨ (daysToYear 200 * 86400 : Nat) ≤ s then ⟨200, 1, 1, 0, 0, 0⟩ else utcOf s.toNat

/-- An NT whole second with nt_set pending: the calendar commits from NT while Clockwork is LOCKED or HOLDOVER (R455, R456). -/
def Dev.ntSetCommit (d : Dev) : Dev :=
  if d.flag R.RTC_CTRL F.RTC_CTRL_nt_set && d.nt % 1000000000 == 0 && decide (2 ≤ d.clkState) && d.rtc.now.second != 60 && d.hubUp then
    (d.put R.RTC_CTRL F.RTC_CTRL_nt_set 0).rtcCommit (d.utcAt d.nt)
  else d

/-! ## Leap seconds, trim, alarm writes (R457, R459, R460) -/

/-- A write to RTC_LEAP: a date that has already ended stores armed as 0 (R457). -/
def Dev.leapWrite (d : Dev) (w : Word) : Dev :=
  let d := d.setWord R.RTC_LEAP (w &&& 0xC0FF0F1F)
  if d.leapPast d.rtc.now then d.put R.RTC_LEAP F.RTC_LEAP_armed 0 else d

/-- The trim windows run while meas_en is 1 and Clockwork is LOCKED: the first starts at the next whole second (R459). -/
def Dev.trimSync (d : Dev) : Dev :=
  if d.flag R.RTC_TRIM_CTRL F.RTC_TRIM_CTRL_meas_en && d.clkState == clkLOCKED then
    match d.rtc.trimAt with
    | some _ => d
    | none =>
      let w := (ceilDiv d.nt 1000000000, max 1 (d.get R.RTC_TRIM_CTRL F.RTC_TRIM_CTRL_window))
      { d with rtc := { d.rtc with trimAt := some w } }
  else { d with rtc := { d.rtc with trimAt := none } }

/-- A trim window ends with c ticks counted (R459). -/
def Dev.trimDone (d : Dev) (c : Nat) : Dev :=
  match d.rtc.trimAt with
  | none => d
  | some (start, n) =>
    if d.nt < (start + n) * 1000000000 then d
    else
      let m := roundAway (((32768 * n : Nat) - (c : Int) : Int) * 10000000 / ((32768 * n : Nat) : Rat))
      let d := (d.put R.RTC_TRIM_MEAS F.RTC_TRIM_MEAS_valid 1).put R.RTC_TRIM_MEAS F.RTC_TRIM_MEAS_meas (wrapNat 16 (satS 16 m))
      let d := if d.flag R.RTC_TRIM_CTRL F.RTC_TRIM_CTRL_auto then d.put R.RTC_TRIM F.RTC_TRIM_trim (wrapNat 16 (clampInt (-2000) 2000 m)) else d
      let w := (start + n, max 1 (d.get R.RTC_TRIM_CTRL F.RTC_TRIM_CTRL_window))
      let d := { d with rtc := { d.rtc with trimAt := some w } }
      d.raise 23

/-- A write to an alarm's registers (R460): it acts from the next second boundary on, since alarms are judged only there; fired and skipped clear where
the word writes 1 (R461). -/
def Dev.alarmWrite (d : Dev) (a : Nat) (g : AlarmReg) (w : Word) : Dev :=
  match g with
  | .time => d.setWord (R.RTC_ALM_TIME a) (w &&& 0x071F3F3F)
  | .date => d.setWord (R.RTC_ALM_DATE a) (w &&& 0x00FF0F1F)
  | .ctrl =>
    let old := d.word (R.RTC_ALM_CTRL a)
    d.setWord (R.RTC_ALM_CTRL a) ((w &&& 0x0000FF04) ||| (old &&& 3 &&& ~~~w))

end Sys2Proof.Machine
end

