-- ==== Sys2Proof/Machine/Settle.lean ====
section
/-! DEFINITION. The end of a command: the events of its instant are logged, and every pin takes the level its rule gives it (R53, R133, R445,
R461, R484, R485, R500, R503, R505). -/

namespace Sys2Proof.Machine

open Sys2Proof

/-- The HUB has passed boot step 2 and runs (R422, R503). -/
def Dev.pinsLive (d : Dev) : Bool := d.hubUp && d.boot.phase != .idle

/-- ALARM_N (R484, R503). -/
def Dev.alarmPin (d : Dev) : Bool :=
  d.pwr.mode == .wakeFail ||
    (d.pinsLive && (d.boot.phase == .fail || (List.range 64).any (fun e => d.evtStatus e && d.evtEnabled e && d.evtRoute e == 1)))

/-- RTC_ALARM_N: an alarm with pin_en 1 has fired (R461). -/
def Dev.rtcPin (d : Dev) : Bool :=
  d.pwr.aoOn && (List.range 2).any (fun a => d.flag (R.RTC_ALM_CTRL a) F.RTC_ALM_CTRL_pin_en && d.flag (R.RTC_ALM_CTRL a) F.RTC_ALM_CTRL_fired)

/-- The XAMP outputs of a radio as pin levels, BIAS, TRSW and EN as bits 0 to 2; none while undriven (R133, R503). -/
def Dev.xampPins (d : Dev) (r : Nat) : Option Nat :=
  if d.pinsLive && d.present (r + 1) && d.dom (4 + r) != 0 && d.pwr.mode == .run then
    some (d.get (R.RAD_XAMP_CTRL r) ⟨4, 2⟩ ^^^ (d.radio r).xamp)
  else none

/-- The MACs that R503 lets drive ETHn_TXDIS low: those enabled, in VIGIL the management MAC only. -/
def Dev.txdisLowPins (d : Dev) : Nat :=
  if d.pinsLive then
    (List.range 8).foldl (fun m n =>
      if d.flag (R.MAC_CTRL n) F.MAC_CTRL_enable && (d.pwr.mode != .vigil || n == d.pwr.mgmtMac) then m + 2 ^ n else m) 0
  else 0

/-- The cage outputs that are on (R500). -/
def Dev.cagePins (d : Dev) : Nat :=
  if !d.pwr.hubOn || d.dom 8 = 0 then (if d.pwr.mode == .vigil && d.pwr.hubOn then 2 ^ d.pwr.mgmtMac &&& (255 ^^^ (255 &&& d.cagesFolded)) else 0)
  else 255 ^^^ (255 &&& d.cagesFolded)

/-- Every pin the block drives, from the rest of the state. -/
def Dev.pinsOf (d : Dev) : Pins where
  alarm := d.alarmPin
  rtcAlarm := d.rtcPin
  ppsOut := if d.pinsLive then some (d.clk.ppsRise.isSome && d.ppsRuns) else none
  gpioDir := if d.pinsLive then d.get R.GPIO_DIR F.GPIO_DIR_out_en else 0
  gpioOut := if d.pinsLive then d.get R.GPIO_OUT F.GPIO_OUT_level &&& d.get R.GPIO_DIR F.GPIO_DIR_out_en else 0
  xamp := [d.xampPins 0, d.xampPins 1, d.xampPins 2]
  txdisLow := d.txdisLowPins
  txdisHigh := if d.pinsLive then 255 ^^^ d.txdisLowPins else 0
  cages := d.cagePins
  jackHasI2c := !d.pinsLive || d.pwr.jack

/-- The end of a command: the trim windows follow Clockwork's state (R459), events are logged, the pins follow. -/
def Dev.settle (d : Dev) : Dev :=
  let e := d.trimSync.flushEvents
  { e with pins := e.pinsOf }

/-- A command completes with the device it leaves; the queue is as it was. -/
def finish (s : State) (d : Dev) : Host.Outcome State Fault Refusal := .next { s with dev := d.settle }

end Sys2Proof.Machine
end

