-- ==== Sys2Proof/Machine/Bus.lean ====
section
/-! DEFINITION. The register bus (01_architecture.md, Address map): what a read and a write of one register word do, and which accesses are refused.
The Command Port, boot, stages and REGISTER_WRITE all reach registers through it. -/

namespace Sys2Proof.Machine

open Sys2Proof

/-! ## Which accesses are made (R4, R24, R28, R33, R439) -/

/-- The die whose window holds an address (R29). -/
def addrDie (a : Nat) : Nat :=
  if a < 0x1000000 then 0 else if a < 0x1800000 then 4 else if a < 0x2000000 then 5 else if a < 0x2100000 then 1
  else if a < 0x2200000 then 2 else if a < 0x2300000 then 3 else if a < 0x3100000 then 6 else 7

/-- The address is one of the 32-bit register space, a multiple of 4, with a register (R29, R33). -/
def mapped (a : Nat) : Bool := a % 4 == 0 && decide (a < 2 ^ 32) && (rowAt a).isSome

/-- The access is refused: unmapped, or the window of a die that is absent, isolated or stopped (R4, R24, R28, R33). -/
def Dev.accessRefused (d : Dev) (a : Nat) : Bool :=
  let die := addrDie a
  !mapped a || !d.present die || d.dieIsolated die || (die != 0 && d.dieClockOff die)

/-- The target domain is fenced, off or powering up (R439, R440). -/
def Dev.accessOff (d : Dev) (a : Nat) : Bool := d.dom (domOfDie (addrDie a)) != 1

/-- The status of an access to a list of addresses before any is made: 2 refused, 5 powered down, 0 made (R423, R427). -/
def Dev.accessStatus (d : Dev) (as : List Nat) : Nat :=
  if as.any d.accessRefused then 2 else if as.any d.accessOff then 5 else 0

/-! ## What the registers of a block show -/

/-- A GPIO pad's level as GPIO_IN shows it (R505): what drives it outside, what the pin itself drives, its pull-down, or, floating, either level. -/
def Dev.gpioBit (d : Dev) (k : Nat) : Dev × Bool :=
  match smGet (fun _ => none) d.pads k with
  | some b => (d, b)
  | none =>
    if (d.get R.GPIO_DIR F.GPIO_DIR_out_en).testBit k then (d, (d.get R.GPIO_OUT F.GPIO_OUT_level).testBit k)
    else if (d.get R.GPIO_PULL F.GPIO_PULL_pd_en).testBit k then (d, false)
    else let (b, d) := d.takeBit; (d, b)

/-- GPIO_IN. -/
def Dev.gpioIn (d : Dev) : Dev × Nat :=
  (List.range 24).foldl (fun (p : Dev × Nat) k => let (e, b) := p.1.gpioBit k; (e, p.2 + bitOf b * 2 ^ k)) (d, 0)

/-- A die's service state in ID_DIE_STATE (R36). The HUB's field reads 1 always, as its table says, where R36 would give 2 for an isolated block; a die
both isolated and off, to which R36 gives 3 and 1, reads 3 (DESIGN CHOICE both, log entry 202). A die whose link has not trained since reset reads the
field's reset value, 0. -/
def Dev.dieState (d : Dev) (die : Nat) : Nat :=
  let l := d.link (die - 1)
  if die = 0 then 1
  else if !d.present die then 0
  else if l.isolated then 3
  else if d.dom (domOfDie die) == 0 then 1
  else if !l.up && !l.retraining then 0
  else if d.dieClockOff die || decide (l.width < 8) then 2
  else 1

/-- The AO status byte (R447). -/
def Dev.aoByte (d : Dev) : Nat :=
  (match d.pwr.mode with
    | .run => 0 | .vigil => 1 | .dormant => 2 | .wakeFail => 3) * 64
    + bitOf d.pwr.entry.isSome * 32 + bitOf d.pwr.wake.isSome * 16 + d.pwr.failStage % 4 * 4 + bitOf d.pwr.wakePending * 2 + 1

/-- PWR_STATE.state. -/
def Dev.pwrStateCode (d : Dev) : Nat :=
  if d.pwr.entry.isSome then 2 else if d.pwr.wake.isSome then 3 else if d.pwr.mode == .vigil then 1 else 0

/-- The die of a power domain; the HUB for a domain without one of its own. -/
def dieOfDom : Nat → Nat
  | 2 => 4 | 3 => 5 | 4 => 1 | 5 => 2 | 6 => 3 | 7 => 6 | _ => 0

/-- PWR_DOMAIN: two bits a domain; a domain of an absent die is off. -/
def Dev.pwrDomains (d : Dev) : Nat :=
  (List.range 9).foldl (fun s c => s + (if d.present (dieOfDom c) then d.dom c else 0) * 4 ^ c) 0

/-- Unread completions of the I2C transport. -/
def Dev.i2cWaiting (d : Dev) : Nat := (d.cmd.i2c.filter (fun r => !r.notif)).length

/-- CMD_STATUS. -/
def Dev.cmdStatus (d : Dev) : Nat :=
  d.pwr.straps % 8 * 2 ^ 24 + d.cmd.queue.length * 2 ^ 16 + d.i2cWaiting * 256 + (match d.boot.phase with
    | .run => 1 | .fail => 2 | _ => 0)

/-- The stages that are armed, as CFG_STAGE_STAT shows them. -/
def Dev.armedStages (d : Dev) : Nat := (List.range 8).foldl (fun s k => s + bitOf (d.stage k).armed * 2 ^ k) 0

/-- LNK_n_STATUS (01_architecture.md). -/
def Dev.lnkStatus (d : Dev) (n : Nat) : Nat :=
  let l := d.link n
  if !d.present (n + 1) || !(l.up || l.retraining || l.isolated) then 5 * 16
  else
    let w := l.width
    let code := if l.isolated then 4 else if w = 8 then 0 else if w = 4 then 1 else if w = 2 then 2 else 3
    l.goodLanes.length * 256 + code * 16 + bitOf l.spareUsed * 8 + bitOf l.retraining * 4
      + bitOf (l.out.resendTo.isSome || l.in_.resendTo.isSome) * 2 + bitOf l.up

/-- LNK_n_LANES. -/
def Dev.lnkLanes (d : Dev) (n : Nat) : Nat :=
  let l := d.link n
  if !d.present (n + 1) || !(l.up || l.retraining || l.isolated) then 0
  else l.retired % 512 * 512 + (if l.isolated then 0 else l.laneMask)

/-- The identity, power, configuration, command and link registers that show state held elsewhere. -/
def Dev.hubView (d : Dev) (a : Nat) : Nat :=
  let w := d.word a
  if a = R.ID_DEVICE then (F.ID_DEVICE_part.into w (memberPart d.member)).toNat
  else if a = R.ID_REVISION then
    (List.range 8).foldl (fun s k => s + (if d.present k then d.fuse a / 16 ^ k % 16 else 0) * 16 ^ k) 0
  else if a = R.ID_DIES then memberDies d.member
  else if a = R.ID_DIE_STATE then (List.range 8).foldl (fun s k => s + d.dieState k * 4 ^ k) 0
  else if a = R.ID_SERIAL_LO || a = R.ID_SERIAL_HI then d.fuse a
  else if a = R.EVT_LOG_STAT then (F.EVT_LOG_STAT_in_use.into w d.evt.log.length).toNat
  else if a = R.PWR_STATE then (F.PWR_STATE_state.into w d.pwrStateCode).toNat
  else if a = R.PWR_DOMAIN then d.pwrDomains
  else if a = R.PWR_AO_STATUS then (F.PWR_AO_STATUS_status.into w d.aoByte).toNat
  else if a = R.CFG_STAGE_STAT then (F.CFG_STAGE_STAT_armed.into w d.armedStages).toNat
  else if a = R.CMD_STATUS then d.cmdStatus
  else if a = R.CMD_REPLAY_LO then d.cmd.replay % 2 ^ 32
  else if a = R.CMD_REPLAY_HI then d.cmd.replay / 2 ^ 32
  else if a = R.LNK_CTRL then w.toNat
  else if 0x5000 ≤ a && a < 0x6000 then
    let n := (a - 0x5010) / 16
    if a % 16 = 0 then d.lnkStatus n else if a % 16 = 4 then d.lnkLanes n else w.toNat
  else w.toNat

/-- A read that answers in the read-data word, as the rows of single-register reads do. -/
def Dev.answered (d : Dev) (f : Dev → Dev) : Dev × Option Word := let e := f d; ({ e with rdata := d.rdata }, some e.rdata)

/-- A read of the Clockwork and RTC blocks. -/
def Dev.clkRead (d : Dev) (a : Nat) : Dev × Option Word :=
  if a = R.CLK_NT_SEC_HI then d.answered Dev.readNtSecHi
  else if a = R.CLK_NT_SEC_LO then (d, some (ntSecLo d.snapNt))
  else if a = R.CLK_NT_NS then (d, some (ntNs d.snapNt))
  else if a = R.CLK_SF then (d, some (ntSf d.snapNt))
  else if a = R.CLK_SLOT then d.answered Dev.readClkSlot
  else if a = R.CLK_ACT_STATUS then (d, some (F.CLK_ACT_STATUS_in_use.into (d.word a) d.acts.length))
  else if a = R.RTC_SEC then d.answered Dev.rtcSecRead
  else if a = R.RTC_YEAR then d.answered Dev.rtcYearRead
  else if a = R.RTC_STATUS then (d, some (F.RTC_STATUS_snap.into (d.word a) (bitOf d.rtc.snap.isSome)))
  else if R.RTC_SEC ≤ a && a ≤ R.RTC_YEAR then (d, some (BitVec.ofNat 32 (d.rtcView a)))
  else (d, some (d.word a))

/-- A read of a MAC block. -/
def Dev.macRead (d : Dev) (a : Nat) : Dev × Option Word :=
  let n := (a - 0x20000) / 0x1000
  let off := a % 0x1000
  if off = 0x1C then (d, some (F.MAC_RXBUF_used.into (d.word a) (ceilDiv (d.rxUsed n) 1024)))
  else if off = 0x28 then d.answered (·.readPtpHi n)
  else if off = 0x2C then (d, some (d.ptpLo n))
  else if off = 0x30 then (d, some (d.ptpNs n))
  else if off = 0x34 then d.answered (·.readPtpId n)
  else if 0x400 ≤ off then
    let c := (off - 0x400) / 8
    if off % 8 = 4 then d.answered (·.readCntHi n c) else d.answered (·.readCntLo n c)
  else (d, some (d.word a))

/-- A read of the classifier and traffic manager blocks. -/
def Dev.netRead (d : Dev) (a : Nat) : Dev × Option Word :=
  if a = R.CLS_FRAG_STAT then (d, some (BitVec.ofNat 32 (d.cls.frags.length * 2 ^ 16 + d.cls.pending.length)))
  else if a = R.SHP_SRAM_USE then (d, some (BitVec.ofNat 32 (d.cellsUsed false)))
  else if a = R.SHP_DRAM_USE then (d, some (BitVec.ofNat 32 (d.cellsUsed true)))
  else if 0x42000 ≤ a && a < 0x42200 && a % 64 = 0x20 then d.answered (·.readVtHi ((a - 0x42000) / 64))
  else if 0x42000 ≤ a && a < 0x42200 && a % 64 = 0x24 then (d, some (d.vtLo ((a - 0x42000) / 64)))
  else (d, some (d.word a))

/-- A read of the cipher engine block by the Command Port; none where the stream interface's owner rule bars it or the word is not there yet. -/
def Dev.cipRead (d : Dev) (a : Nat) : Dev × Option Word :=
  let nodes := d.cip.slots.filter (fun p => decide (256 ≤ p.1))
  if R.STR_OWNER ≤ a then if a = R.STR_OWNER || d.strMay 64 then d.strRead (a - R.STR_OWNER) else (d, none)
  else if a = R.CIP_STATUS then
    let busy := (d.cip.jobs.filter (·.started)).length
    (d, some (BitVec.ofNat 32 (busy * 2 ^ 16 + (d.cip.jobs.length - busy))))
  else if a = R.CIP_NODE_SLOTS then
    (d, some (BitVec.ofNat 32 ((nodes.filter (fun p => p.2.locked)).length * 2 ^ 16 + nodes.length)))
  else if a = R.CIP_ROOT_STATUS then (d, some (BitVec.ofNat 32 (bitOf d.rootProgrammed * 2 ^ 31 + d.kcv)))
  else (d, some (d.word a))

/-- A read of the Puppeteer and scheduler blocks. -/
def Dev.schedRead (d : Dev) (a : Nat) : Nat :=
  if a = R.CLS_GEN_FLIGHT then d.genFlight 1 * 2 ^ 16 + d.genFlight 0
  else if a = R.PUP_STATUS then d.firedTasks.length * 2 ^ 16 + d.occupancy
  else if a = R.PUP_CORES then d.coresIn 0 * 2 ^ 16 + d.coresIn 1 * 256 + d.coresRetired
  else if R.PUP_CORE_STATE 0 ≤ a && a ≤ R.PUP_CORE_STATE 3 then
    let w := (a - R.PUP_CORE_STATE 0) / 4
    (List.range 16).foldl (fun s k => s + d.coreState (16 * w + k) * 4 ^ k) 0
  else if a = R.SCH_STATUS then d.sched.ctxs.length
  else if a = R.SCH_REG_STATUS then d.sched.registry.length
  else if R.SCH_CTX_WINDOW 0 ≤ a then
    let i := (a - R.SCH_CTX_WINDOW 0) / 128
    match d.ctx i with
    | some x => leAt (d.ctxBytes i x) (a % 128) 4
    | none => 0
  else (d.word a).toNat

/-- A read of the monitors (R490, R493). -/
def Dev.monRead (d : Dev) (a : Nat) : Dev × Option Word :=
  let n := (a - 0xA0000) / 0x100
  let off := a % 0x100
  let x := (d.monRes n).stat
  if off = 0x20 then d.answered (·.readMonStatus n)
  else if off = 0xFC then d.answered (·.readMonHist31 n)
  else if off = 0x24 then (d, some (BitVec.ofInt 32 x.min_))
  else if off = 0x28 then (d, some (BitVec.ofInt 32 x.max_))
  else if off = 0x2C then (d, some (BitVec.ofNat 32 x.count))
  else if off = 0x30 then (d, some (BitVec.ofInt 32 x.sum))
  else if off = 0x34 then (d, some (BitVec.ofNat 32 (wrapNat 48 x.sum / 2 ^ 32)))
  else if 0x80 ≤ off then (d, some (BitVec.ofNat 32 (smGet (fun _ => 0) x.hist ((off - 0x80) / 4))))
  else (d, some (d.word a))

/-- A read of a radio die's window. -/
def Dev.radRead (d : Dev) (a : Nat) : Nat :=
  let r := (a - 0x2000000) / 0x100000
  if a = R.RAD_DUTY_METER r then d.dutyUs r (d.get (R.RAD_DUTY_CTRL r) F.RAD_DUTY_CTRL_entry) / 1000
  else if a = R.KAL_LEVEL r || (R.RAD_RP_E r 0 0 ≤ a && a ≤ R.RAD_RP_HDR r) then d.fuse a
  else if a = R.KAL_CAP_CTRL r then (F.KAL_CAP_CTRL_in_use.into (d.word a) (d.kal r).caps.length).toNat
  else if a = R.KAL_TX_STATUS r then (F.KAL_TX_STATUS_in_service.into (d.word a) (d.radio r).air.length).toNat
  else (d.word a).toNat

/-- What a baseband window address names (R30). -/
inductive BbCell where
  | reg
  | imem (core word : Nat)
  | dmem (core addr : Nat)
  | shared (key : Nat)
deriving DecidableEq, Repr

/-- The cell behind an address of a baseband window, through the page selects (R30). -/
def Dev.bbCell (d : Dev) (a : Nat) : BbCell :=
  let die := (a - 0x1000000) / 0x800000
  let off := a % 0x800000
  if off < 0x400000 then
    let n := off / 0x20000
    let o := off % 0x20000
    if o < 0x10000 then .imem (32 * die + n) (o / 4)
    else .dmem (32 * die + n) (d.get (R.MAR_CTRL die n) F.MAR_CTRL_dpage * 0x10000 + (o - 0x10000))
  else if off < 0x600000 then .reg
  else .shared (0x102000000 + die * 0x400000 + d.get (R.MAR_SHARED die) F.MAR_SHARED_spage * 0x200000 + (off - 0x600000))

/-- MAR_n_STATUS of a core: 0 idle, 1 running a task, 2 in a handler, 3 stopped; and its bundle address. -/
def Dev.marStatus (d : Dev) (c : Nat) : Nat :=
  let k := d.mcore c
  (if k.stopped then 3 else if !k.running then 0 else if k.shadow then 2 else 1) * 2 ^ 30 + k.pc % 8192

/-- A read of a baseband die's window. -/
def Dev.bbRead (d : Dev) (a : Nat) : Nat :=
  match d.bbCell a with
  | .imem c w => (smGet (fun _ => 0) (d.mcore c).imem w).toNat
  | .dmem c o => ofLE ((d.mcore c).bytesAt o 4)
  | .shared key => (d.word key).toNat
  | .reg => if a % 0x800000 < 0x400200 && a % 16 = 4 then d.marStatus (32 * ((a - 0x1000000) / 0x800000) + a % 0x400 / 16) else (d.word a).toNat

/-- One register is read at a mapped address of a die in service. None: the access is refused at this register and reads 0 (R509). Bits of write-only
fields read 0 (R10). -/
def Dev.busRead (d : Dev) (a : Nat) : Dev × Option Word :=
  if a = R.EVT_LOG_REC 0 then d.answered Dev.readLog0
  else if a = R.EVT_LOG_REC 1 then d.answered (·.readLogMid 1)
  else if a = R.EVT_LOG_REC 2 then d.answered (·.readLogMid 2)
  else if a = R.EVT_LOG_REC 3 then d.answered Dev.readLog3
  else if a = R.GPIO_IN then let (e, v) := d.gpioIn; (e, some (BitVec.ofNat 32 v))
  else if a < 0x10000 then (d, some (BitVec.ofNat 32 (d.hubView a)))
  else if a < 0x20000 then d.clkRead a
  else if a < 0x30000 then d.macRead a
  else if a < 0x50000 then d.netRead a
  else if a < 0x60000 then let (e, w) := d.cipRead a; (e, w.map (· &&& ~~~(accMask (· = .wo) a)))
  else if 0x60000 ≤ a && a < 0x70000 && !d.present 6 then (d, some 0)
  else if a = R.DRC_REF_DEBT then (d, some d.refDebt)
  else if a < 0x70000 then (d, some (d.word a))
  else if a < 0x90000 then (d, some (BitVec.ofNat 32 (d.schedRead a)))
  else if a < 0xA0000 then (d, some (d.word a))
  else if a < 0xB0000 then d.monRead a
  else if a < 0x800000 then (d, some (d.word a))
  else if a < 0x1000000 then (d, some (BitVec.ofNat 32 (d.schedRead a)))
  else if a < 0x2000000 then (d, some (BitVec.ofNat 32 (d.bbRead a)))
  else (d, some (BitVec.ofNat 32 (d.radRead a)))

/-! ## Writes -/

/-- Clearing PWR_AO_STATUS.fail_seen clears fail_stage (R447). -/
def Dev.aoFailClear (d : Dev) : Dev :=
  { d.put R.PWR_AO_STATUS F.PWR_AO_STATUS_fail_seen 0 with pwr := { d.pwr with failStage := 0 } }

/-- A write to CLK_CTRL (R43, R44): quiet_slot 0 stores 255, and a reference whose enable falls is dropped. -/
def Dev.clkCtrl (d : Dev) (w : Word) : Dev :=
  let w := if F.CLK_CTRL_quiet_slot.of w = 0 then F.CLK_CTRL_quiet_slot.into w 255 else w
  let e := d.rawWrite R.CLK_CTRL w
  [RefId.ptp, .pps, .ref10m].foldl (fun e k => if d.refOn k && !e.refOn k then e.refDisable k else e) e

/-- A write to CLK_SLEW: what slewing has removed so far stays removed, and the rest goes on at the new rate (R54). -/
def Dev.slewWrite (d : Dev) (w : Word) : Dev :=
  ({ d with clk := { d.clk with slew := (d.clk.slew.1 - d.slewAt d.nt, d.nt) } }).rawWrite R.CLK_SLEW w

/-- A write to a register of the Clockwork or RTC block. Where one write of CLK_ACT_CTRL sets both bits, the arm acts first, then the cancel, whose
outcome CLK_ACT_RESULT shows (DESIGN CHOICE, log entry 209). -/
def Dev.clkWrite (d : Dev) (a : Nat) (w : Word) : Dev :=
  if a = R.CLK_CTRL then d.clkCtrl w
  else if a = R.CLK_PPS_CTRL then (d.rawWrite a w).ppsStop
  else if a = R.CLK_SLEW then d.slewWrite w
  else if a = R.CLK_TOD_CTRL then if w.getLsbD 0 then d.todLoad else d
  else if a = R.CLK_ACT_CTRL then
    let d := d.put a F.CLK_ACT_CTRL_index (F.CLK_ACT_CTRL_index.of w)
    let d := if w.getLsbD 0 then d.actionArm else d
    if w.getLsbD 1 then d.actionCancel (F.CLK_ACT_CTRL_index.of w) else d
  else if a = R.RTC_CTRL then if w.getLsbD 0 then d.ntSet else d
  else if a = R.RTC_SEC then d.rtcSecWrite w.toNat
  else if a = R.RTC_MIN then d.rtcStage .minute w.toNat
  else if a = R.RTC_HOUR then d.rtcStage .hour w.toNat
  else if a = R.RTC_DAY then d.rtcStage .day w.toNat
  else if a = R.RTC_MONTH then d.rtcStage .month w.toNat
  else if a = R.RTC_YEAR then d.rtcStage .year w.toNat
  else if a = R.RTC_LEAP then d.leapWrite w
  else if R.RTC_ALM_TIME 0 ≤ a && a < 0x18070 then
    d.alarmWrite ((a - R.RTC_ALM_TIME 0) / 16) (if a % 16 = 0 then .time else if a % 16 = 4 then .date else .ctrl) w
  else d.rawWrite a w

/-- A write to a register of a MAC; false where R344 refuses it. MAC_CTRL.fec reads 0 on MAC2 to MAC7 (R343). -/
def Dev.macWrite (d : Dev) (a : Nat) (w : Word) : Dev × Bool :=
  let n := (a - 0x20000) / 0x1000
  let off := a % 0x1000
  if off = 0 then
    let e := d.rawWrite a (if n < 2 then w else F.MAC_CTRL_fec.into w 0)
    let same (f : Fld) : Bool := d.get a f == e.get a f
    if d.macOn n && !(same F.MAC_CTRL_mode && same F.MAC_CTRL_fec && same F.MAC_CTRL_an_en) then (d, false)
    else (if d.macOn n && !e.macOn n then e.loseWire n else e, true)
  else if off = 0x20 then ((d.rawWrite a w).startVerify n, true)
  else if off = 0x108 then (if w.getLsbD 0 then d.clearCounters n else d, true)
  else (d.rawWrite a w, true)

/-- What a write may store in word k of an entry of the associative table (0) or of the exact-match pool (1): the bits an action shows as "—" read 0
(R309, R318, R11); every other word of the two tables holds what is written, the ones whose content the spec gives as 0 too (DEDUCED). -/
def entryMask (table k : Nat) : Word :=
  if table = 0 && k = 20 then 0xFFFFFFE0 else if table = 0 && k = 23 then 0 else if table = 1 && k = 5 then 0xFFFFFFF8 else 0xFFFFFFFF

/-- A write to a word of a classifier table; false where R317 refuses it. -/
def Dev.tableWrite (d : Dev) (base size table a : Nat) (w : Word) : Dev × Bool :=
  if d.entryOpen (a - (a - base) % size + size - 4) then (d.entryWrite base size a (w &&& entryMask table ((a - base) % size / 4)), true)
  else (d, false)

/-- A write to a register of the classifier or traffic manager; false where R317 or R338 refuses it. Without the MEM die dram_en stays 0 (R327). -/
def Dev.netWrite (d : Dev) (a : Nat) (w : Word) : Dev × Bool :=
  if 0x400000 ≤ a && a < 0x500000 then d.tableWrite 0x400000 128 0 a w
  else if 0x600000 ≤ a then d.tableWrite 0x600000 64 1 a w
  else if a = R.CLS_UL_DEFAULT then (d.setWord a (w &&& entryMask 1 5), true)
  else if R.CLS_MISS 0 ≤ a && a ≤ R.CLS_MISS 7 then (d.setWord a (w &&& entryMask 0 20), true)
  else if a = R.SHP_BUF_BASE then (d.rawWrite a (if d.present 6 then w else F.SHP_BUF_BASE_dram_en.into w 0), true)
  else if 0x38000 ≤ a && a < 0x40000 then (d.setWord a w, true)
  else if 0x42000 ≤ a && a < 0x42200 then
    let n := (a - 0x42000) / 64
    let b := d.gateBank n
    if a = R.SHP_PORT_CTRL n then ((d.rawWrite a w).gateSync n, true)
    else if a = (if b = 0 then R.SHP_PORT_CYC0 n else R.SHP_PORT_CYC1 n) then (d, false)
    else if a = R.SHP_PORT_LEN n then
      let f := if b = 0 then F.SHP_PORT_LEN_len0 else F.SHP_PORT_LEN_len1
      if f.of w = d.get a f then (d.rawWrite a w, true) else (d, false)
    else (d.rawWrite a w, true)
  else if 0x44000 ≤ a && a < 0x4C000 then
    let k := (a - 0x44000) / 4
    if k / 512 % 2 = d.gateBank (k / 1024) then (d, false)
    else (d.setWord a (if k % 2 = 1 then w &&& 0xFF else w), true)
  else if 0x4C000 ≤ a then (d.policerWrite ((a - 0x4C000) / 16) (a % 16 / 4) w, true)
  else (d.rawWrite a w, true)

/-- CIP_KEY_CMD is written with go (R368). -/
def Dev.keyCmd (d : Dev) (w : Word) : Dev :=
  let d := d.rawWrite R.CIP_KEY_CMD (w &&& ~~~1)
  let slot := F.CIP_KEY_CMD_slot.of w
  let op := F.CIP_KEY_CMD_op.of w
  if !w.getLsbD 0 then d
  else if op = 1 then d.keyLoad slot (F.CIP_KEY_CMD_class.of w) (F.CIP_KEY_CMD_size.of w == 1)
  else if op = 2 then d.keyClear slot
  else d.put R.CIP_KEY_CMD F.CIP_KEY_CMD_result 4

/-- The word of CIP_KEY_CMD that starts an operation on a slot. -/
def keyCmdWord (op slot cls : Nat) (big : Bool) : Word := BitVec.ofNat 32 (cls * 2 ^ 26 + bitOf big * 2 ^ 25 + slot * 256 + op * 2 + 1)

/-- A write to a register of the cipher engine by the Command Port; false where the stream interface's owner rule bars it. -/
def Dev.cipWrite (d : Dev) (a : Nat) (w : Word) : Dev × Bool :=
  if R.STR_OWNER ≤ a then
    if a = R.STR_OWNER || d.strMay 64 then ((d.strWrite 64 (a - R.STR_OWNER) w).1, true) else (d, false)
  else if R.CIP_CLASS 0 ≤ a && a ≤ R.CIP_CLASS 3 then (d.classWrite ((a - R.CIP_CLASS 0) / 4) w, true)
  else if a = R.CIP_KEY_CMD then (d.keyCmd w, true)
  else if a = R.CIP_SLOT_IDX then (d.slotIdx w.toNat, true)
  else if a = R.CIP_ROOT_CTRL then (if w.getLsbD 0 then d.rootBlowStart else d, true)
  else if R.CIP_ROOT_KEY 0 ≤ a && a ≤ R.CIP_ROOT_KEY 7 then (if d.rootProgrammed then d else d.setWord a w, true)
  else if R.CIP_KEY_BUF 0 ≤ a && a ≤ R.CIP_KEY_BUF 9 then (d.setWord a w, true)
  else (d.rawWrite a w, true)

/-- A write to a register of the DRAM controller; false where R384 refuses it. Without the MEM die its registers hold nothing and read 0 (R380). -/
def Dev.drcWrite (d : Dev) (a : Nat) (w : Word) : Dev × Bool :=
  if !d.present 6 then (d, true)
  else if a = R.DRC_CTRL then
    let e := d.rawWrite a w
    if d.flag a F.DRC_CTRL_en && d.get a F.DRC_CTRL_map != e.get a F.DRC_CTRL_map then (d, false)
    else (if e.flag a F.DRC_CTRL_derate_force && !d.flag a F.DRC_CTRL_derate_force then e.derateNow else e, true)
  else (d.rawWrite a w, true)

/-- PUP_CORE_CMD is written (R252). -/
def Dev.coreCmdWrite (d : Dev) (w : Word) : Dev :=
  let d := d.rawWrite R.PUP_CORE_CMD (w &&& ~~~1)
  let c := F.PUP_CORE_CMD_core.of w
  let op := F.PUP_CORE_CMD_op.of w
  if !w.getLsbD 0 then d else if op = 1 then d.coreRetire c else if op = 2 then d.coreReturn c else d.coreCmdOther

/-- SCH_REG_CMD is written (R205). -/
def Dev.regCmd (d : Dev) (w : Word) : Dev :=
  let d := d.rawWrite R.SCH_REG_CMD (w &&& ~~~1)
  let op := F.SCH_REG_CMD_op.of w
  if !w.getLsbD 0 then d
  else if op = 1 then d.provision else if op = 2 then d.registryRead else if op = 3 then d.registryDelete else d.regResult 6

/-- SCH_NODE_CMD is written (R230). -/
def Dev.nodeCmdWrite (d : Dev) (w : Word) : Dev :=
  let d := d.rawWrite R.SCH_NODE_CMD (w &&& ~~~1)
  let op := F.SCH_NODE_CMD_op.of w
  if !w.getLsbD 0 then d
  else if op = 1 then d.nodeRelease
  else if op = 2 then d.nodePilotHold (F.SCH_NODE_CMD_hold.of w == 1)
  else if op = 3 then d.nodeRevoke
  else if op = 4 then d.nodeReplace (F.SCH_NODE_CMD_mode.of w) (F.SCH_NODE_CMD_period_log2.of w)
  else d.nodeResult 2

/-- A write to a register of the Puppeteer or the scheduler; false where R203 refuses it. -/
def Dev.schedWrite (d : Dev) (a : Nat) (w : Word) : Dev × Bool :=
  if a = R.PUP_CORE_CMD then (d.coreCmdWrite w, true)
  else if a = R.PUP_PEEK_IDX then (d.peek (w.toNat % 8192), true)
  else if a = R.SCH_REG_CMD then (d.regCmd w, true)
  else if a = R.SCH_NODE_CMD then (d.nodeCmdWrite w, true)
  else if R.SCH_CTX_WINDOW 0 ≤ a then (d, false)
  else (d.rawWrite a w, true)

/-- CAL_CMD is written (R403, R404). -/
def Dev.calCmd (d : Dev) (w : Word) : Dev :=
  let u := F.CAL_CMD_unit.of w
  let op := F.CAL_CMD_op.of w
  if !w.getLsbD 0 then d.rawWrite R.CAL_CMD w
  else if op = 1 then d.calRunCmd u else if op = 2 then d.calStopCmd u else d.calOther u op

/-- A write to a register of the calibration controller or the monitors. -/
def Dev.calWrite (d : Dev) (a : Nat) (w : Word) : Dev :=
  if a = R.CAL_CMD then d.calCmd w
  else if a = R.CAL_DRAM_IDX then d.dramIdx (F.CAL_DRAM_IDX_ch.of w) (F.CAL_DRAM_IDX_bit.of w)
  else if 0xA0000 ≤ a && a % 0x100 ≤ 4 then (d.rawWrite a w).monRestart ((a - 0xA0000) / 0x100)
  else d.rawWrite a w

/-- RAD_XAMP_CTRL is written: while enable is 0 the outputs are inactive. A block of R134 goes on for its flt_hold. -/
def Dev.xampCtrl (d : Dev) (r : Nat) (w : Word) : Dev :=
  let d := d.rawWrite (R.RAD_XAMP_CTRL r) w
  if d.xampOn r then d else d.setRadio r { d.radio r with xamp := 0, release := none }

/-- A write to a radio die's window; false where R109 or R140 refuses it. -/
def Dev.radWrite (d : Dev) (a : Nat) (w : Word) : Dev × Bool :=
  let r := (a - 0x2000000) / 0x100000
  if a = R.RAD_FC r then d.writeFc r w.toNat
  else if a = R.RAD_CTRL r then
    let e := d.rawWrite a (w &&& ~~~0x40)
    (if w.getLsbD 6 then e.vcoRequest r else e, true)
  else if a = R.RAD_RP_PROG r then
    let e := d.rawWrite a (w &&& ~~~0x10000)
    (if w.getLsbD 16 then e.rpGo r else e, true)
  else if a = R.RAD_XAMP_CTRL r then (d.xampCtrl r w, true)
  else if R.KAL_SHAPING r 0 0 ≤ a && a < R.KAL_SHAPING r 5 0 && a % 256 < 192 then
    (d.shapeWrite r ((a - R.KAL_SHAPING r 0 0) / 256) (a % 256 / 4) w, true)
  else if R.KAL_COEF r 0 0 ≤ a && (a - R.KAL_COEF r 0 0) / 0x20000 = d.get (R.KAL_CTRL r) F.KAL_CTRL_coef_active then (d, false)
  else (d.rawWrite a w, true)

/-- Every core counts as out of service during boot (R419). -/
def Dev.imemOpen (d : Dev) (c : Nat) : Bool := d.boot.phase == .applying || d.coreState c == 3

/-- A write to a baseband die's window; false where R256 refuses it. The demodulation registers keep their own access codes (R188). -/
def Dev.bbWrite (d : Dev) (a : Nat) (w : Word) : Dev × Bool :=
  match d.bbCell a with
  | .imem c k =>
    if d.imemOpen c then (d.setMcore c { d.mcore c with imem := smSet (fun _ => 0) (d.mcore c).imem k w }, true) else (d, false)
  | .dmem c o => (d.setMcore c ((d.mcore c).store o (toLE 4 w.toNat)), true)
  | .shared key => (if (rowAt key).isSome then d.rawWrite key w else d.setWord key w, true)
  | .reg => (d.rawWrite a w, true)

/-- One register is written at a mapped address of a die in service. False: the register refuses the write and keeps its value (R509). -/
def Dev.busWrite (d : Dev) (a : Nat) (w : Word) : Dev × Bool :=
  if a = R.PWR_AO_STATUS then (if w.getLsbD 8 then d.aoFailClear else d, true)
  else if a < 0x10000 then (d.rawWrite a w, true)
  else if a < 0x20000 then (d.clkWrite a w, true)
  else if a < 0x30000 then d.macWrite a w
  else if a < 0x50000 then d.netWrite a w
  else if a < 0x60000 then d.cipWrite a w
  else if a < 0x70000 then d.drcWrite a w
  else if a < 0x90000 then d.schedWrite a w
  else if a < 0xB0000 then (d.calWrite a w, true)
  else if a < 0x800000 then d.netWrite a w
  else if a < 0x1000000 then d.schedWrite a w
  else if a < 0x2000000 then d.bbWrite a w
  else d.radWrite a w

/-- A write that waits: STR_DIN while din_free is 0 (R379). -/
def Dev.writeWaits (d : Dev) (a : Nat) : Bool := a == R.STR_DIN && d.strMay 64 && !(d.strDin 0).2

/-- A read that waits: STR_DOUT while no word is there (R379). -/
def Dev.readWaits (d : Dev) (a : Nat) : Bool := a == R.STR_DOUT && d.strMay 64 && !d.strDout.2

/-- A stage pair (R436): it may also write KAL_CTRL.coef_stage, which then takes effect, and DEM_ACTIVE.set. -/
def Dev.pairWrite (d : Dev) (a : Nat) (w : Word) : Dev × Bool :=
  let r := (a - 0x2000000) / 0x100000
  if 0x2000000 ≤ a && a = R.KAL_CTRL r then
    let b := F.KAL_CTRL_coef_stage.of w
    (((d.rawWrite a w).put a F.KAL_CTRL_coef_stage b).put a F.KAL_CTRL_coef_active b, true)
  else if 0x1000000 ≤ a && a < 0x2000000 then
    match d.bbCell a with
    | .shared key =>
      if key = R.DEM_ACTIVE 0 || key = R.DEM_ACTIVE 1 then (d.put key F.DEM_ACTIVE_set (F.DEM_ACTIVE_set.of w), true) else d.busWrite a w
    | _ => d.busWrite a w
  else d.busWrite a w

/-- A write to a register from outside the queue of commands: it acts as the register's access codes and rules say, and is not made where R4, R33 or
the register refuses it (R10). -/
def Dev.registerWrite (d : Dev) (a : Nat) (w : Word) : Dev := if d.accessStatus [a] = 0 then (d.busWrite a w).1 else d

end Sys2Proof.Machine
end

