-- ==== Sys2Proof/Machine/Copy.lean ====
section
/-! DEFINITION. The configuration copies in the flash: layout, the checks that make a copy valid, and the records of its body (18_configuration_and_commands.md,
R415 to R419). -/

namespace Sys2Proof.Machine

open Sys2Proof

/-- A copy fills 56 MiB (R415). -/
def copySize : Nat := 0x3800000

/-- The flash offset of a copy: 0 for A, 1 for B. -/
def copyBase (x : Nat) : Nat := if x = 0 then 0 else copySize

/-- n bytes of the flash; an erased byte reads 0xFF. -/
def Dev.flashBytes (d : Dev) (a n : Nat) : Bytes := (List.range n).map (fun i => smGet (fun _ => 0xFF) d.flash (a + i))

/-- Bytes programmed into the flash. -/
def Dev.flashStore (d : Dev) (a : Nat) (bs : Bytes) : Dev :=
  { d with flash := (bs.zipIdx).foldl (fun m p => smSet (fun _ => 0xFF) m (a + p.2) p.1) d.flash }

/-- The header of a copy. -/
def Dev.header (d : Dev) (x : Nat) : Bytes := d.flashBytes (copyBase x) 256

/-- The body of a copy, as its header's length gives it. -/
def Dev.copyBody (d : Dev) (x : Nat) : Bytes := d.flashBytes (copyBase x + 256) (leAt (d.header x) 12 4)

/-- The words of a body. -/
def wordsOf (bs : Bytes) : List Word := (chunksOf 4 bs).map (fun b => BitVec.ofNat 32 (ofLE b))

/-- The sequence number of a header. -/
def headSeq (h : Bytes) : Nat := leAt h 4 4

/-! ## Checks 1 to 3 (R417) -/

/-- Check 1: magic, version, flags and reserved bytes. -/
def headFixed (h : Bytes) : Bool :=
  leAt h 0 4 == 0x4F4D5A44 && byteAt h 20 == 1 && byteAt h 22 / 2 == 0
    && (sliceB h 23 41).all (· == 0) && (sliceB h 192 64).all (· == 0)

/-- Check 2: seq and its inverse. -/
def headSeqOk (h : Bytes) : Bool := headSeq h + leAt h 8 4 == 0xFFFFFFFF && headSeq h != 0xFFFFFFFF

/-- Check 3: the length. -/
def headLen (h : Bytes) : Bool :=
  let n := leAt h 12 4
  decide (8 ≤ n) && decide (n ≤ 58720000) && n % 4 == 0

/-- The first of checks 1 to 3 that a header fails; 0 where it passes. -/
def headCause (h : Bytes) : Nat := if !headFixed h then 1 else if !headSeqOk h then 2 else if !headLen h then 3 else 0

/-- Copy with seq x is newer than the copy with seq y (R418). -/
def newer (x y : Nat) : Bool :=
  let n := (x + 2 ^ 32 - y) % 2 ^ 32
  decide (1 ≤ n) && decide (n < 2 ^ 31)

/-! ## The records of a body (R419) -/

/-- A record of a body. -/
inductive Rec where
  | write (addr : Nat) (data : List Word)
  | fill (addr n : Nat) (w : Word)
  | table (addr w : Nat) (data : List Word)
  | key (slot cls : Nat) (big : Bool) (data : List Word)
  | poll (addr mask value ms : Nat)
  | finish
deriving DecidableEq, Repr, Inhabited

/-- The first record of a body and the words after it; none where its header or its length is out of range. -/
def takeRec : List Word → Option (Rec × List Word)
  | h :: a :: rest =>
    let ty := h.toNat / 2 ^ 28
    let n := h.toNat % 2 ^ 24
    if h.toNat / 2 ^ 24 % 16 != 0 then none
    else match ty, rest with
      | 1, _ => if n = 0 ∨ rest.length < n then none else some (.write a.toNat (rest.take n), rest.drop n)
      | 2, w :: rest => some (.fill a.toNat n w, rest)
      | 3, w :: rest =>
        let k := n * (w.toNat % 256)
        if rest.length < k then none else some (.table a.toNat (w.toNat % 256) (rest.take k), rest.drop k)
      | 4, _ =>
        if n != 10 ∨ rest.length < 10 then none
        else some (.key (F.CIP_KEY_CMD_slot.of a) (F.CIP_KEY_CMD_class.of a) (F.CIP_KEY_CMD_size.of a == 1) (rest.take 10), rest.drop 10)
      | 5, m :: v :: t :: rest => if t.toNat < 1 ∨ 1000 < t.toNat then none else some (.poll a.toNat m.toNat v.toNat t.toNat, rest)
      | 6, _ => if n = 0 then some (.finish, rest) else none
      | _, _ => none
  | _ => none

/-- The registers that n words from an address cover. -/
def wordAddrs (a n : Nat) : List Nat := (List.range n).map (fun i => a + 4 * i)

/-- The registers a record names. -/
def Rec.addrs : Rec → List Nat
  | .write a ws => wordAddrs a ws.length
  | .fill a n _ => wordAddrs a n
  | .table a _ ws => wordAddrs a ws.length
  | .poll a _ _ _ => [a]
  | _ => []

/-- A record names an address that R33 would refuse, or one in the window of an absent die. -/
def Dev.recBad (d : Dev) (r : Rec) : Bool := r.addrs.any (fun a => !mapped a || !d.present (addrDie a))

/-- Every record of a body meets R419, and END is its last. The fuel is the number of words. -/
def Dev.recsOk (d : Dev) : Nat → List Word → Bool
  | 0, _ => false
  | n + 1, ws => match takeRec ws with
    | none => false
    | some (.finish, rest) => rest.isEmpty
    | some (r, rest) => !d.recBad r && d.recsOk n rest

/-! ## Checks 4 to 8 -/

/-- Check 4: the crc over the body. -/
def Dev.crcOk (d : Dev) (x : Nat) : Bool := crc32 (d.copyBody x) == leAt (d.header x) 16 4

/-- The digest that the signature covers: the header with bytes 4 to 11 as 0xFF, the key, the body (R416). -/
def signedDigest (h body : Bytes) : Bytes :=
  sha256 (h.take 4 ++ List.replicate 8 0xFF ++ sliceB h 12 52 ++ sliceB h 128 64 ++ body)

/-- The first of checks 4 to 8 that a copy fails; 0 where it passes. -/
def Dev.bodyCause (d : Dev) (x : Nat) : Nat :=
  let h := d.header x
  let body := d.copyBody x
  let key := sliceB h 128 64
  if !d.crcOk x then 4
  else if ofBE (sha256 key) != d.pubDigest then 5
  else if !ecdsaOk key (sliceB h 64 64) (signedDigest h body) then 6
  else if !d.recsOk (wordsOf body).length (wordsOf body) then 7
  else if (List.range 8).any (fun k => (byteAt h 21).testBit k && !d.present k) then 8
  else 0

/-! ## Applying records (R419, R420, R440) -/

/-- Words are written to registers in order; false where one is refused. While a domain powers up its registers are reached though it does not yet
serve. -/
def Dev.writeAll (d : Dev) (up : Bool) : List (Nat × Word) → Dev × Bool
  | [] => (d, true)
  | p :: rest =>
    if d.accessRefused p.1 || (!up && d.accessOff p.1) then (d, false)
    else match d.busWrite p.1 p.2 with
      | (e, true) => e.writeAll up rest
      | (e, false) => (e, false)

/-- A record is applied as the matching command would; false where its write fails. POLL and END are boot's. -/
def Dev.applyRec (d : Dev) (up : Bool) : Rec → Dev × Bool
  | .write a ws => d.writeAll up ((wordAddrs a ws.length).zip ws)
  | .fill a n w => d.writeAll up ((wordAddrs a n).map (fun x => (x, w)))
  | .table a _ ws => d.writeAll up ((wordAddrs a ws.length).zip ws)
  | .key slot cls big ws =>
    ((ws.zipIdx.foldl (fun d p => d.setWord (R.CIP_KEY_BUF p.2) p.1) d).keyCmd (keyCmdWord 1 slot cls big), true)
  | _ => (d, true)

/-- A record re-applied when a die's domain powers up: a WRITE, FILL or TABLE whose address lies in the die's window (R440). -/
def Rec.forDie (die : Nat) : Rec → Bool
  | .write a _ => addrDie a == die
  | .fill a _ _ => addrDie a == die
  | .table a _ _ => addrDie a == die
  | _ => false

/-- The records of a body for a die are applied in body order; false where a write fails. The fuel is the number of words. -/
def Dev.applyFor (d : Dev) (die : Nat) : Nat → List Word → Dev × Bool
  | 0, _ => (d, true)
  | n + 1, ws => match takeRec ws with
    | none => (d, true)
    | some (r, rest) =>
      if r.forDie die then
        match d.applyRec true r with
        | (e, true) => e.applyFor die n rest
        | (e, false) => (e, false)
      else d.applyFor die n rest

end Sys2Proof.Machine
end

