-- ==== Sys2Proof/Machine/Slots.lean ====
section
/-! DEFINITION. What happens at slot starts and superframe boundaries (02_clockwork.md, 08_access_scheduler.md, 18_configuration_and_commands.md),
and the actions of the list that act through the register bus. -/

namespace Sys2Proof.Machine

open Sys2Proof

/-! ## Stages (R435, R436) -/

/-- One pair of a stage that is applied: a pair whose register is refused or powered down is skipped, counted, and raises event 13. -/
def Dev.applyPair (d : Dev) (p : Nat × Word) : Dev :=
  let skip (d : Dev) : Dev := (d.bump R.CFG_STAGE_STAT F.CFG_STAGE_STAT_failed).raise 13
  if d.accessStatus [p.1] != 0 then skip d
  else match d.pairWrite p.1 p.2 with
    | (e, true) => e
    | (_, false) => skip d

/-- A fired stage is applied: its pairs in order, event 11; the stage is then empty and unarmed. -/
def Dev.applyStage (d : Dev) (s : Nat) : Dev :=
  let d := (d.stage s).pairs.foldl Dev.applyPair d
  ((d.setStage s Stage.reset).bump R.CFG_STAGE_STAT F.CFG_STAGE_STAT_applied).raise 11 s

/-- The stages that have fired are applied in the order in which they fired. -/
def Dev.applyStages (d : Dev) : Dev := d.stagesFired.foldl Dev.applyStage { d with stagesFired := [] }

/-- A CFG_STAGE_TAKEOVER fires. Where it fires at a slot start already served, its stage is applied at once (R436). -/
def Dev.stageTakeover (d : Dev) (i : Nat) : Dev :=
  let d := d.fireAct i 5
  if d.nt % slotNs = 0 && d.clk.lastSlot == some (absSlot d.nt) then d.applyStages else d

/-! ## The slot start (R57, R111, R135, R227, R410, R436) -/

/-- Before the quiet slot a CAL_QUIET action is armed for each radio whose calibration is due and that is in RX or TUNE (R410). -/
def Dev.autoVco (d : Dev) (a : Nat) : Dev :=
  if d.flag R.CAL_CTRL F.CAL_CTRL_auto_vco && (a + 1) % 256 == d.quietAt ((a + 1) * slotNs) then
    (List.range 3).foldl (fun d r =>
      if d.radioUp r && d.vcoDue r && (d.radState r == radRX || d.radState r == radTUNE) then
        let (d, o, i) := d.armAct ⟨(a + 1) * slotNs, 6, r, 1⟩
        d.actResult o i
      else d) d
  else d


/-- The start of absolute slot a; rx gives, for a quiet slot, port 0's wideband power less port 1's of each
radio in RX, in 0.25 dB. -/
def Dev.slotStart (d : Dev) (a : Nat) (rx : List (Nat × Int)) : Dev :=
  let again := d.slotServed a
  let d := d.applyStages
  let d := (List.range 3).foldl Dev.trimUpdate d
  let d := d.calSlot
  let d := (List.range 3).foldl (fun d r => d.kalSlot r a) d
  let d := d.autoVco a
  let d := if again then d else { d.schedSlot a with clk := { d.clk with lastSlot := some a } }
  let d := d.sample 10 0 d.occupancy
  let d := if a % 256 = d.clk.quiet then rx.foldl (fun d p => if d.radioUp p.1 then d.rxCheck p.1 p.2 else d) d else d
  d.dispatch

/-- SLOT_START: NT is the first instant of slot a. -/
def Dev.slotAt (d : Dev) (a : Nat) (rx : List (Nat × Int)) (ecc : List StoreErr) : Dev :=
  let d := d.storeErrs ecc
  if d.nt ≤ a * slotNs then (d.at_ (a * slotNs)).slotStart a rx else d

/-- The boundary at which superframe sf begins (R42, R52, R208, R217). -/
def Dev.superStart (d : Dev) (sf : Nat) : Dev :=
  let d := { d with clk := { d.clk with quiet := d.get R.CLK_CTRL F.CLK_CTRL_quiet_slot } }
  d.holdFeedback.schedSuper sf

/-- SUPERFRAME_BOUNDARY: NT is the first instant of superframe sf. -/
def Dev.superAt (d : Dev) (sf : Nat) : Dev := if d.nt ≤ sf * superNs then (d.at_ (sf * superNs)).superStart sf else d

/-- The step that waits for a 1 ms boundary is applied there (R55). -/
def Dev.stepMsAt (d : Dev) : Dev :=
  match d.clk.stepMs with
  | some x => if d.nt % 1000000 = 0 then d.stepAll x else d
  | none => d

/-- The step that waits for the quiet slot is applied at its start (R55). -/
def Dev.stepQuietAt (d : Dev) : Dev :=
  match d.clk.stepQuiet with
  | some x => if d.nt % slotNs = 0 && slotOf d.nt = d.quietAt d.nt then d.stepAll x else d
  | none => d

/-- A frame of the sample ring is complete: its samples are written and the operands that end with it filled (R145, R163, R237). -/
def Dev.ringFrame (d : Dev) (r a : Nat) : Dev := ((d.writeFrame r a).fillFrames r a).dispatch

end Sys2Proof.Machine
end

