-- ==== Sys2Proof/Machine/Cmd.lean ====
section
/-! DEFINITION. The Command Port: commands and completions, the executor, and both transports (18_configuration_and_commands.md, R423 to R435). -/

namespace Sys2Proof.Machine

open Sys2Proof

/-! ## Commands (R423) -/

/-- The data bytes a command's op and arg ask for; none where they do not fix them. -/
def cmdLen (op arg : Nat) : Option Nat :=
  match op with
  | 1 => some 0
  | 2 => some (4 * arg)
  | 3 => some 4
  | 4 => some (4 * (arg / 2 ^ 16 % 256) * (arg % 2 ^ 16))
  | 5 => some (8 * (arg % 256))
  | 6 => some 16
  | 7 => if arg = 1 then none else some 0
  | 8 => some 0
  | 9 => some 0
  | 10 => some 0
  | _ => none

/-- The command that a byte string spells; a header cut short reads 0 beyond its end. -/
def parseCmd (mgmt : Bool) (frame : Nat) (bs : Bytes) : Cmd :=
  let h := padTo 12 bs
  let op := leAt h 0 1
  let arg := leAt h 8 4
  let data := bs.drop 12
  { mgmt := mgmt, frame := frame, op := op, tag := leAt h 2 2, addr := leAt h 4 4, arg := arg, data := data
    bad := decide (bs.length < 12) || decide (1024 < data.length) || leAt h 1 1 != 0
      || (match cmdLen op arg with
        | some n => data.length != n
        | none => false)
    targeted := false, aborted := false, outcome := 0, lost := false }

/-- Words per entry and entries of a TABLE_WRITE. -/
def Cmd.w (c : Cmd) : Nat := c.arg / 2 ^ 16 % 256
def Cmd.n (c : Cmd) : Nat := c.arg % 2 ^ 16

/-- The words that a READ, WRITE, WRITE_MASKED or TABLE_WRITE covers. -/
def Cmd.count (c : Cmd) : Nat := if c.op = 4 then c.w * c.n else if c.op = 3 then 1 else c.arg

/-- The registers that the command covers. -/
def Cmd.covers (c : Cmd) : List Nat := wordAddrs c.addr c.count

/-- A well-formed POWER command (R438). -/
def Cmd.powerOk (c : Cmd) : Bool :=
  if c.addr = 0 then c.arg == 1 || c.arg == 2
  else c.addr == 1 && decide (c.arg < 512) && bitsOf 7 4 c.arg == 0 && decide (2 ≤ c.arg % 16) && decide (c.arg % 16 ≤ 6)

/-- The fields of a well-formed NVM_WRITE phase (R434). -/
def Cmd.nvmOk (c : Cmd) : Bool :=
  match c.arg with
  | 0 => c.addr == 0 && c.data.isEmpty
  | 1 => c.addr % 4 == 0 && decide (4 ≤ c.data.length) && decide (c.data.length ≤ 1024)
      && (decide (c.addr + c.data.length ≤ 4) || decide (12 ≤ c.addr)) && decide (c.addr + c.data.length ≤ copySize)
  | 2 => c.data.isEmpty && c.addr != 0xFFFFFFFF
  | _ => false

/-- A command is malformed: unknown op, or a field or length out of range (status 3). -/
def Cmd.malformed (c : Cmd) : Bool :=
  c.bad || match c.op with
    | 1 => !(decide (1 ≤ c.arg) && decide (c.arg ≤ 256))
    | 2 => !(decide (1 ≤ c.arg) && decide (c.arg ≤ 256))
    | 3 => false
    | 4 => c.arg / 2 ^ 24 != 0 || !(decide (1 ≤ c.w) && decide (c.w ≤ 32) && decide (1 ≤ c.n) && decide (c.n * c.w ≤ 256))
    | 5 => decide (7 < c.addr) || bitsOf 30 8 c.arg != 0 || decide (128 < c.arg % 256)
    | 6 => c.addr != 0 || c.arg != 0
    | 7 => !c.nvmOk
    | 8 => !c.powerOk
    | 9 => decide (0xFFFF < c.addr) || c.arg != 0
    | 10 => c.addr != 0 || c.arg != 0
    | _ => true

/-- Neither a state entry nor a wake is under way, and the device is not in a reduced state. -/
def Dev.fullRun (d : Dev) : Bool := d.pwr.mode == .run && d.pwr.entry.isNone && d.pwr.wake.isNone

/-- The status with which the device's state turns a command away: before RUN (R427), in BOOT_FAIL (R421), and in or around VIGIL (R441). -/
def Dev.cmdGate (d : Dev) (c : Cmd) : Option Nat :=
  match d.boot.phase with
  | .run =>
    if d.fullRun || c.op = 1 || c.op = 10 || (c.op = 8 && c.addr = 0 && c.arg = 2) then none else some 5
  | .fail => if c.op = 1 || c.op = 7 || c.op = 10 then none else some 7
  | _ =>
    let last := c.addr + 4 * (c.arg - 1)
    if c.op = 10 || (c.op = 1 && (decide (last < 0x1000) || (decide (0x3000 ≤ c.addr) && decide (last < 0x4000)))) then none else some 7

/-- The status with which a command completes without being executed; an ABORT that was served has its own row. -/
def Dev.preStatus (d : Dev) (c : Cmd) : Option Nat :=
  if c.aborted then some 1
  else if c.lost then some 3
  else if c.op = 9 then none
  else match d.cmdGate c with
    | some st => some st
    | none => if c.malformed then some 3 else none

/-! ## Completions (R426, R429, R433) -/

/-- The bytes of a completion or notification record. -/
def CmdRec.bytes (r : CmdRec) : Bytes :=
  toLE 1 r.op ++ toLE 1 r.status ++ toLE 2 r.tag ++ toLE 4 (bitOf r.abortLate + 2 * bitOf r.partial_) ++ toLE 4 r.detail
    ++ toLE 4 r.data.length ++ r.data

/-- The tag that a host slot's key gives over bytes, through the cipher engine; none where the slot holds no usable key (R366, R371, R373). -/
def Dev.cmacOf (d : Dev) (slot : Nat) (bs : Bytes) : Dev × Option Bytes :=
  match d.keySlot slot with
  | none => (d.countResult 4, none)
  | some k =>
    if k.locked then (d.countResult 3, none)
    else (d.useSlot slot k, some (toBytes ((cmacRun (aesRoundKeys (toNats k.key)) (toNats bs)).take 8)))

/-- A management payload of the layout of R431 with the TT3008's own next counter; none where no tag can be made. -/
def Dev.ownFrame (d : Dev) (content : Bytes) : Dev × Option Bytes :=
  let d := { d with cmd := { d.cmd with own := d.cmd.own + 1 } }
  let body := toLE 4 1 ++ toLE 8 d.cmd.own ++ content
  let (d, tag) := d.cmacOf (d.get R.CMD_MGMT F.CMD_MGMT_key_slot) body
  (d, tag.map (body ++ ·))

/-- The template's words with the frame's own destination: address and UDP port (R433). -/
def replyWords (ws : List Nat) (ip : Bytes) (udp : Nat) : List Nat :=
  let put (ws : List Nat) (k v : Nat) : List Nat := ws.set k v
  let ws := put ws 4 udp
  if (ws.getD 0 0).testBit 24 then (List.range 4).foldl (fun ws k => put ws (9 + k) (leAt ip (4 * k) 4)) ws
  else put ws 9 (leAt ip 12 4)

/-- The completions of one management frame travel together (R433). -/
def Dev.sendReply (d : Dev) (r : MgmtReply) : Dev :=
  match d.ownFrame (r.done.flatMap CmdRec.bytes) with
  | (d, some body) => d.sendWords (replyWords (d.template (d.get R.CMD_MGMT F.CMD_MGMT_tmpl)) r.ip r.udp) none body
  | (d, none) => d

/-- A completion joins those of its management frame, which leave once the last is there. -/
def Dev.placeReply (d : Dev) (frame : Nat) (rec : CmdRec) : Dev :=
  match d.cmd.replies.find? (fun r => r.frame == frame) with
  | none => d
  | some r =>
    let r := { r with left := r.left - 1, done := r.done ++ [rec] }
    let others := d.cmd.replies.filter (fun x => x.frame != frame)
    if r.left = 0 then ({ d with cmd := { d.cmd with replies := others } }).sendReply r
    else { d with cmd := { d.cmd with replies := others ++ [r] } }

/-- The completion record is placed for its transport. -/
def Dev.placeRec (d : Dev) (c : Cmd) (rec : CmdRec) : Dev :=
  if c.mgmt then d.placeReply c.frame rec else { d with cmd := { d.cmd with i2c := d.cmd.i2c ++ [rec] } }

/-- The command at the head of the queue completes: its record, CMD_STAT, and event 12 or 13 (R426). One whose
queue entry was lost completes with status 3 (R466). -/
def Dev.complete (d : Dev) (c : Cmd) (status detail : Nat) (data : Bytes) (part : Bool) : Dev :=
  let status := if c.lost then 3 else status
  let d := { d with cmd := { d.cmd with queue := d.cmd.queue.tail, busy := none } }
  let d := d.placeRec c ⟨false, c.op, status, c.tag, c.targeted && !c.aborted, part, detail, data⟩
  let d := if c.op = 7 then d.put R.CFG_NVM F.CFG_NVM_result status else d
  if status = 0 then (d.bump R.CMD_STAT F.CMD_STAT_done).raise 12 0 c.tag
  else (d.bump R.CMD_STAT F.CMD_STAT_errors).raise 13 0 c.tag

/-- Completion records that a transport holds. -/
def Dev.heldRecs (d : Dev) (mgmt : Bool) : Nat :=
  if mgmt then d.cmd.replies.foldl (fun s r => s + r.done.length) 0 else d.i2cWaiting

/-- The executor may start the command: its transport's completion buffer is not full (R429). -/
def Dev.mayStart (d : Dev) (c : Cmd) : Bool := decide (d.heldRecs c.mgmt < 32)

/-- The commands at the head of the queue that complete without being executed do so in order. The fuel is the queue's length. -/
def Dev.cmdPumpAux : Nat → Dev → Dev
  | 0, d => d
  | n + 1, d => match d.cmd.queue.head? with
    | none => d
    | some c =>
      if d.cmd.busy.isSome || !d.mayStart c then d
      else match d.preStatus c with
        | some st => (d.complete c st 0 [] false).cmdPumpAux n
        | none => d

def Dev.cmdPump (d : Dev) : Dev := d.cmdPumpAux d.cmd.queue.length

/-- The command at the head of the queue, where the executor may start it. -/
def Dev.headCmd (d : Dev) : Option Cmd :=
  match d.cmd.queue.head? with
  | none => none
  | some c => if d.mayStart c && (d.preStatus c).isNone then some c else none

/-- A row of the executor acts on the command at the head, where it is of the row's kind and nothing else is under way. -/
def Dev.runHead (d : Dev) (p : Cmd → Bool) (f : Dev → Cmd → Dev) : Dev :=
  match d.headCmd with
  | some c => if p c && d.cmd.busy.isNone then (f d c).cmdPump else d.cmdPump
  | none => d.cmdPump

/-! ## READ, WRITE, TABLE_WRITE and WRITE_MASKED (R423 to R425, R509) -/

/-- How far a READ, WRITE or TABLE_WRITE has come. -/
structure CmdWords where
  dev : Dev
  done : Nat
  data : Bytes
  refused : Bool
  /-- A write was refused at the next word. -/
  stop : Bool

/-- Up to n more words are read; a read that has no word yet waits, a refused one gives 0 (R34, R379, R509). -/
def readMore (addr last : Nat) : Nat → CmdWords → CmdWords
  | 0, x => x
  | n + 1, x =>
    let a := addr + 4 * x.done
    if last ≤ x.done || x.dev.readWaits a then x
    else
      let (d, w) := if x.dev.accessStatus [a] = 0 then x.dev.busRead a else (x.dev, none)
      readMore addr last n ⟨d, x.done + 1, x.data ++ toLE 4 (w.getD 0).toNat, x.refused || w.isNone, false⟩

/-- Up to n more words are written, up to the refused one. -/
def writeMore (addr : Nat) (ws : List Word) : Nat → CmdWords → CmdWords
  | 0, x => x
  | n + 1, x =>
    let a := addr + 4 * x.done
    if ws.length ≤ x.done || x.dev.writeWaits a then x
    else
      let (d, ok) := if x.dev.accessStatus [a] = 0 then x.dev.busWrite a (ws.getD x.done 0) else (x.dev, false)
      if ok then writeMore addr ws n ⟨d, x.done + 1, [], false, false⟩ else ⟨d, x.done, [], true, true⟩

/-- The executor's place in the command at the head. -/
def Dev.progress (d : Dev) : CmdWords :=
  match d.cmd.busy with
  | some (.words n data r) => ⟨d, n, data, r, false⟩
  | _ => ⟨d, 0, [], false, false⟩

/-- The executor goes on later. -/
def CmdWords.hold (x : CmdWords) : Dev := { x.dev with cmd := { x.dev.cmd with busy := some (.words x.done x.data x.refused) } }

/-- Up to n words of the READ, WRITE or TABLE_WRITE of an opcode are done; the whole command is refused first where R4, R24, R28, R33 or R439
refuses any word it covers. -/
def Dev.runWords (d : Dev) (op n : Nat) (f : CmdWords → Cmd → Dev) : Dev :=
  match d.cmd.busy, d.cmd.queue.head?, d.headCmd with
  | some (.words _ _ _), some c, _ => if c.op = op && n != 0 then (f d.progress c).cmdPump else d
  | none, _, some c =>
    let st := d.accessStatus c.covers
    if c.op != op || n = 0 then d.cmdPump
    else if st != 0 then (d.complete c st 0 (if op = 1 && st = 2 then List.replicate (4 * c.arg) 0 else []) false).cmdPump
    else (f d.progress c).cmdPump
  | _, _, _ => d.cmdPump

/-- READ: up to n words. -/
def Dev.cmdRead (d : Dev) (n : Nat) : Dev := d.runWords 1 n (fun x c =>
  let x := readMore c.addr c.arg n x
  if x.done = c.arg then x.dev.complete c (if x.refused then 2 else 0) c.arg x.data false else x.hold)

/-- WRITE: up to n words. -/
def Dev.cmdWrite (d : Dev) (n : Nat) : Dev := d.runWords 2 n (fun x c =>
  let x := writeMore c.addr (wordsOf c.data) n x
  if x.stop then x.dev.complete c 2 x.done [] false
  else if x.done = c.arg then x.dev.complete c 0 c.arg [] false else x.hold)

/-- A TABLE_WRITE ends with the entries written whole. -/
def Dev.tableEnd (d : Dev) (c : Cmd) (status entries : Nat) : Dev :=
  d.complete c status entries [] (status != 0 && entries != 0)

/-- The words left of the entry in progress. -/
def entryLeft (w done : Nat) : Nat := if done % w = 0 then 0 else w - done % w

/-- TABLE_WRITE: up to n words, entry by entry; an aborted one stops after the entry in progress (R424, R428). -/
def Dev.tableGo (c : Cmd) (n : Nat) (x : CmdWords) : Dev :=
  let x := writeMore c.addr (wordsOf c.data) (if c.aborted then min n (entryLeft c.w x.done) else n) x
  if x.stop then x.dev.tableEnd c 2 (x.done / c.w)
  else if c.aborted && x.done % c.w = 0 then x.dev.tableEnd c 1 (x.done / c.w)
  else if x.done = c.count then x.dev.tableEnd c 0 c.n
  else x.hold

/-- TABLE_WRITE: up to n words. -/
def Dev.cmdTable (d : Dev) (n : Nat) : Dev := d.runWords 4 n (fun x c => Dev.tableGo c n x)

/-- The bits whose old value counts as 0 in a WRITE_MASKED (R425). -/
def actingBits (a : Nat) : Word := accMask (fun x => x = .w1c || x = .w1s || x = .rwsc || x = .wo) a

/-- WRITE_MASKED. -/
def Dev.cmdMasked (d : Dev) : Dev := d.runHead (fun c => c.op == 3) (fun d c =>
  let st := d.accessStatus [c.addr]
  if st != 0 then d.complete c st 0 [] false
  else if d.readWaits c.addr || d.writeWaits c.addr then d
  else
    let (e, old) := d.busRead c.addr
    match old with
    | none => d.complete c 2 0 [] false
    | some old =>
      let mask := BitVec.ofNat 32 c.arg
      let v := BitVec.ofNat 32 (leAt c.data 0 4)
      let (g, ok) := e.busWrite c.addr ((old &&& ~~~mask &&& ~~~(actingBits c.addr)) ||| (v &&& mask))
      g.complete c (if ok then 0 else 2) 0 [] false)

/-! ## STAGE, ARM and STATUS (R426, R435, R64) -/

/-- The pairs of a STAGE. -/
def Cmd.pairs (c : Cmd) : List (Nat × Word) := (chunksOf 8 c.data).map (fun b => (leAt b 0 4, BitVec.ofNat 32 (leAt b 4 4)))

/-- STAGE. -/
def Dev.cmdStage (d : Dev) : Dev := d.runHead (fun c => c.op == 5) (fun d c =>
  let s := d.stage c.addr
  let held := if c.arg.testBit 31 then [] else s.pairs
  if c.pairs.any (fun p => d.accessRefused p.1) then d.complete c 2 0 [] false
  else if s.armed || decide (256 < held.length + c.pairs.length) then d.complete c 4 0 [] false
  else (d.setStage c.addr { s with pairs := held ++ c.pairs }).complete c 0 0 [] false)

/-- ARM: the four staging words in their register order, then arm. -/
def Dev.cmdArm (d : Dev) : Dev := d.runHead (fun c => c.op == 6) (fun d c =>
  let w (k : Nat) : Word := BitVec.ofNat 32 (leAt c.data (4 * k) 4)
  let d := (((d.rawWrite R.CLK_ACT_TIME_HI (w 0)).rawWrite R.CLK_ACT_TIME_LO (w 1)).rawWrite R.CLK_ACT_TIME_NS (w 2)).rawWrite R.CLK_ACT_SPEC (w 3)
  let d := d.actionArm
  let o := d.get R.CLK_ACT_RESULT F.CLK_ACT_RESULT_outcome
  d.complete c (if o = 5 then 4 else if o = 6 then 3 else 0) (d.word R.CLK_ACT_RESULT).toNat [] false)

/-- STATUS. -/
def Dev.cmdSnapshot (d : Dev) : Dev := d.runHead (fun c => c.op == 10) (fun d c =>
  d.complete c 0 d.cmdStatus ([R.CFG_BOOT, R.CFG_SEQ_A, R.CFG_SEQ_B, R.CFG_STAGE_STAT].flatMap (fun a => toLE 4 (d.hubView a))) false)

/-! ## ABORT (R428) -/

/-- ABORT at the head completes with the status it earned at its arrival. -/
def Dev.cmdAbort (d : Dev) : Dev := d.runHead (fun c => c.op == 9) (fun d c => d.complete c c.outcome 0 [] false)

/-- The open NVM_WRITE stops: it needs a new OPEN. -/
def Dev.nvmStop (d : Dev) : Dev := d.put R.CFG_NVM F.CFG_NVM_phase 0

/-- The target is the command under way: one before its commit point stops, one at or after it only notes the ABORT. -/
def Dev.abortHead (d : Dev) (c : Cmd) : Dev :=
  let mark (d : Dev) (x : Cmd) : Dev := { d with cmd := { d.cmd with queue := d.cmd.queue.set 0 x } }
  let late : Cmd := { c with targeted := true }
  let stop : Cmd := { c with targeted := true, aborted := true }
  match d.cmd.busy with
  | none => mark d stop
  | some (.domain _ _) => mark d late
  | some (.words n _ _) =>
    if c.op = 4 then (if n % c.w = 0 then (mark d stop).tableEnd stop 1 (n / c.w) else mark d stop)
    else if n = 0 then (mark d stop).complete stop 1 0 [] false
    else mark d late
  | some _ => (mark d.nvmStop stop).complete stop 1 0 [] false

/-- An ABORT arrives and acts on its target; it then takes its place in the queue with the status it will have. -/
def Dev.abortArrive (d : Dev) (c : Cmd) : Dev × Cmd :=
  match d.cmdGate c with
  | some st => (d, { c with outcome := st })
  | none =>
    if c.malformed then (d, { c with outcome := 3 })
    else match d.cmd.queue.findIdx? (fun x => x.op != 9 && x.mgmt == c.mgmt && x.tag == c.addr && !x.targeted) with
      | none => (d, { c with outcome := 8 })
      | some i =>
        let d := if i = 0 then d.abortHead (d.cmd.queue.headD c)
          else { d with cmd := { d.cmd with queue := modifyNth d.cmd.queue i (fun x => { x with targeted := true, aborted := true }) } }
        (d, { c with outcome := 0 })

/-! ## Arrival (R429, R430) -/

/-- A command enters the queue, an ABORT after it has acted. -/
def Dev.enqueueCmd (d : Dev) (c : Cmd) : Dev :=
  let (d, c) := if c.op = 9 then d.abortArrive c else (d, c)
  ({ d with cmd := { d.cmd with queue := d.cmd.queue ++ [c] } }).cmdPump

/-- The Command Port answers on the I2C pins. -/
def Dev.portAnswers (d : Dev) : Bool := d.pinsLive && !d.pwr.jack

/-- A write transaction to the Command Port: one command, or a NACK at its first byte while the queue is full (R429, R430). -/
def Dev.i2cWrite (d : Dev) (bs : Bytes) : Dev :=
  if !d.portAnswers || bs.isEmpty || decide (32 ≤ d.cmd.queue.length) then d else d.enqueueCmd (parseCmd false 0 bs)

/-- A read transaction of n bytes: the oldest unread record, with bytes of 0 beyond it; a record read whole is removed (R430). -/
def Dev.i2cRead (d : Dev) (n : Nat) : Dev :=
  if !d.portAnswers then d
  else
    let bs := match d.cmd.i2c with
      | [] => []
      | r :: _ => r.bytes
    let left := if bs.length ≤ n then d.cmd.i2c.tail else d.cmd.i2c
    ({ d with cmd := { d.cmd with i2cOut := padTo n bs, i2c := left } }).cmdPump

/-! ## Management frames (R431, R432, R474) -/

/-- The commands of a frame's bytes; one that cannot be parsed ends the frame. The fuel is the bytes' number. -/
def frameCmds (frame : Nat) : Nat → Bytes → List Cmd
  | 0, _ => []
  | n + 1, bs =>
    if bs.isEmpty then []
    else
      let op := leAt (padTo 12 bs) 0 1
      let arg := leAt (padTo 12 bs) 8 4
      let size := 12 + (cmdLen op arg).getD (bs.length - 12)
      let known := decide (1 ≤ op) && decide (op ≤ 10)
      if !known || bs.length < 12 || bs.length < size || 1024 + 12 < size then
        [{ parseCmd true frame (bs.take 12) with bad := true }]
      else parseCmd true frame (bs.take size) :: frameCmds frame n (bs.drop size)

/-- An accepted frame's commands enter the queue in order; those that find it full are dropped and counted (R429). -/
def Dev.frameEnters (d : Dev) (body ip : Bytes) (udp : Nat) : Dev :=
  let frame := d.cmd.nextFrame
  let cs := frameCmds frame body.length body
  let room := 32 - d.cmd.queue.length
  let d := d.bumpBy R.CMD_DROP F.CMD_DROP_q_full (cs.length - room)
  let cs := cs.take room
  let replies := if cs.isEmpty then d.cmd.replies else d.cmd.replies ++ [⟨frame, cs.length, [], ip, udp⟩]
  let d := { d with cmd := { d.cmd with nextFrame := frame + 1, replies := replies } }
  cs.foldl Dev.enqueueCmd d

/-- A management frame is rejected. -/
def Dev.frameRejected (d : Dev) (f : Fld) : Dev := (d.bump R.CMD_AUTH f).raise 14

/-- A frame whose tag has verified is judged by its counter; it waits while the log write leaves the outcome open. -/
def Dev.frameJudge (d : Dev) (w : MgmtWait) : Dev :=
  let wait := match d.cmd.logging with
    | some v => decide (v + 65536 < w.counter)
    | none => false
  if wait then { d with cmd := { d.cmd with waiting := d.cmd.waiting ++ [w] } }
  else if w.counter ≤ d.cmd.replay then d.frameRejected F.CMD_AUTH_replay
  else
    let log := if d.cmd.logging.isNone && d.cmd.replay / 65536 < w.counter / 65536 then some w.counter else d.cmd.logging
    ({ d with cmd := { d.cmd with replay := w.counter, logging := log } }).frameEnters w.body w.ip w.udp

/-- The oldest management frame has been through the cipher engine (R431). -/
def Dev.frameAuth (d : Dev) : Dev :=
  match d.mgmtIn with
  | [] => d
  | f :: rest =>
    let d := { d with mgmtIn := rest }
    let n := f.body.length - 8
    if f.body.length < 20 || leAt f.body 0 4 != 1 then d.frameRejected F.CMD_AUTH_tag_fail
    else
      let (d, tag) := d.cmacOf (d.get R.CMD_MGMT F.CMD_MGMT_key_slot) (f.body.take n)
      if tag != some (f.body.drop n) then (if tag.isSome then d.countResult 1 else d).frameRejected F.CMD_AUTH_tag_fail
      else d.frameJudge ⟨leAt f.body 4 8, sliceB f.body 12 (n - 12), f.ip, f.udp⟩

/-- The two slots of the replay-counter log, at the start of the log area (R415, R474). -/
def logSlot (k : Nat) : Nat := 2 * copySize + 16 * (k % 2)

/-- The bytes of a log record: the counter, its number and their CRC. -/
def logBytes (counter k : Nat) : Bytes :=
  let body := toLE 8 counter ++ toLE 4 k
  body ++ toLE 4 (crc32 body)

/-- A slot's counter and record number; none where its CRC does not match. -/
def Dev.logRecord (d : Dev) (k : Nat) : Option (Nat × Nat) :=
  let bs := d.flashBytes (logSlot k) 16
  if crc32 (bs.take 12) = leAt bs 12 4 then some (leAt bs 0 8, leAt bs 8 4) else none

/-- The log's latest record: its counter and number. -/
def Dev.logLatest (d : Dev) : Option (Nat × Nat) :=
  match d.logRecord 0, d.logRecord 1 with
  | some a, some b => if a.2 < b.2 then some b else some a
  | some a, none => some a
  | none, b => b

/-- The log write completes, and the frames that waited on it are judged (R474). A counter that has passed a further multiple of 65,536 is
written next. -/
def Dev.logDone (d : Dev) : Dev :=
  match d.cmd.logging with
  | none => d
  | some v =>
    let k := d.cmd.logNo + 1
    let d := d.flashStore (logSlot k) (logBytes v k)
    let next := if v / 65536 < d.cmd.replay / 65536 then some d.cmd.replay else none
    let waiting := d.cmd.waiting
    let d := { d with cmd := { d.cmd with logNo := k, logging := next, waiting := [] } }
    waiting.foldl Dev.frameJudge d

/-! ## Event notifications in management frames (R483) -/

/-- The collected notifications leave, up to 32 to a frame, or are dropped and counted. -/
def Dev.notifySend (d : Dev) : Dev :=
  let recs := d.evt.mgmtOut.map (fun p => (⟨true, 64, 0, p.1, false, false, p.2.seq, p.2.bytes⟩ : CmdRec))
  let d := { d with evt := { d.evt with mgmtOut := [] } }
  let tmpl := d.template (d.get R.EVT_NOTIFY F.EVT_NOTIFY_tmpl)
  if !d.flag R.CMD_MGMT F.CMD_MGMT_mgmt_en || 8 ≤ tmpl.getD 0 0 / 2 ^ 28 then
    d.bumpBy R.EVT_NOTIFY F.EVT_NOTIFY_mgmt_dropped recs.length
  else (chunksOf 32 recs).foldl (fun d rs =>
    match d.ownFrame (rs.flatMap CmdRec.bytes) with
    | (d, some body) => d.sendWords tmpl none body
    | (d, none) => d) d

/-! ## NVM_WRITE (R434) -/

/-- The copy that an OPEN acts on: the one not in force; copy A where none is. -/
def Dev.inactiveCopy (d : Dev) : Nat := if d.boot.inForce = some 0 then 1 else 0

/-- A phase starts on the flash. -/
def Dev.nvmBusy (d : Dev) (b : CmdBusy) : Dev := { d with cmd := { d.cmd with busy := some b } }

/-- The copy is open: an OPEN precedes. -/
def Dev.nvmOpenNow (d : Dev) : Bool := d.get R.CFG_NVM F.CFG_NVM_phase == 1

/-- NVM_WRITE of a phase at the head. -/
def Dev.runNvm (d : Dev) (phase : Nat) (f : Dev → Cmd → Dev) : Dev := d.runHead (fun c => c.op == 7 && c.arg == phase) (fun d c =>
  if phase != 0 && !d.nvmOpenNow then d.complete c 4 0 [] false else f d c)

/-- OPEN: the inactive copy is invalid from the start of its erase. -/
def Dev.nvmOpen (d : Dev) : Dev := d.runNvm 0 (fun d _ =>
  let x := d.inactiveCopy
  let d := { d with nvmCopy := x, flash := smClear d.flash (copyBase x) (copyBase x + copySize) }
  d.nvmStop.nvmBusy .nvmOpen)

/-- DATA starts to program its bytes. -/
def Dev.nvmData (d : Dev) : Dev := d.runNvm 1 (fun d _ => d.nvmBusy .nvmData)

/-- CLOSE: the seq is compared, then checks 1 and 3 to 8 run on the copy. -/
def Dev.nvmClose (d : Dev) : Dev := d.runNvm 2 (fun d c =>
  let old := d.boot.phase != .fail && (match d.boot.inForce with
    | some x => !newer c.addr (headSeq (d.header x))
    | none => false)
  let h := d.header d.nvmCopy
  if old then d.complete c 3 0 [] false
  else if !headFixed h || !headLen h || d.bodyCause d.nvmCopy != 0 then d.nvmStop.complete c 6 0 [] false
  else d.nvmBusy .nvmClose)

/-- The seq unit is programmed: the copy is closed (R434). -/
def Dev.nvmClosed (d : Dev) (seq : Nat) : Dev :=
  let x := d.nvmCopy
  let d := d.flashStore (copyBase x + 4) (toLE 4 seq ++ toLE 4 (0xFFFFFFFF - seq))
  let d := (d.setWord (if x = 0 then R.CFG_SEQ_A else R.CFG_SEQ_B) (BitVec.ofNat 32 seq)).put R.CFG_NVM F.CFG_NVM_phase 2
  let d := if d.boot.phase == .fail && x = 0 then { d with boot := { d.boot with inForce := some 0 } } else d
  d.raise 15 0 x

/-- A flash erase or program of a phase ends; ok is false where it failed. -/
def Dev.nvmPhaseDone (d : Dev) (ok : Bool) : Dev :=
  match d.cmd.queue.head?, d.cmd.busy with
  | some c, some .nvmOpen =>
    (if ok then (d.put R.CFG_NVM F.CFG_NVM_phase 1).complete c 0 0 [] false else d.nvmStop.complete c 6 0 [] false).cmdPump
  | some c, some .nvmData =>
    (if ok then (d.flashStore (copyBase d.nvmCopy + c.addr) c.data).complete c 0 0 [] false
      else d.nvmStop.complete c 6 0 [] false).cmdPump
  | some c, some .nvmClose => (if ok then (d.nvmClosed c.addr).complete c 0 0 [] false else d.nvmStop.complete c 6 0 [] false).cmdPump
  | _, _ => d

end Sys2Proof.Machine
end

