-- ==== Sys2Proof/Machine/Platform.lean ====
section
/-! DEFINITION. What happens to the package as a whole: string-link transfers, lane faults and retraining (R16 to R25), clock faults (R28), temperature
sensors (R15, R125, R488, R511), the supply and the cage outputs (R489, R500), and restores of control state (R467). -/

namespace Sys2Proof.Machine

open Sys2Proof

/-! ## Links (R16 to R25) -/

/-- What follows when a die can no longer be reached or is stopped: tasks of a baseband die are placed elsewhere (R251), calibration runs of a radio end
(R404), and the MEM die's refresh rate is held (R392). -/
def Dev.dieLost (d : Dev) (die : Nat) : Dev :=
  if die = 4 || die = 5 then d.basebandLost die
  else if 1 ≤ die && die ≤ 3 then d.calLost (ofRadio (die - 1))
  else if die = 6 then d.derateNow
  else d

/-- A transfer is handed over on link n + 1 (R13, R16, R17); types 8 to 15 are reserved and never sent. -/
def Dev.flitSend (d : Dev) (n : Nat) (k : Dir) (ty : Nat) (payload : Bytes) : Dev :=
  if d.dieUp (n + 1) && decide (ty < 8) then d.setLink n ((d.link n).send k ty payload) else d

/-- The end of a change of a link's lanes: what follows when the die is now isolated. -/
def Dev.afterLanes (d : Dev) (n : Nat) (was : Bool) : Dev :=
  if (d.link n).isolated && !was then d.dieLost (n + 1) else d

/-- A flit arrives (R18, R21): counted errors are charged to the lane that its block check names. -/
def Dev.flitReceive (d : Dev) (n : Nat) (k : Dir) (raw : Bytes) (lane : Option Nat) : Dev :=
  if !d.dieUp (n + 1) || !(d.link n).up then d
  else
    let (l, bad, replay) := (d.link n).receive k raw
    let d := d.setLink n l
    let d := if bad then d.bump (R.LNK_ERRORS n) F.LNK_ERRORS_crc_errors else d
    let d := if replay then d.bump (R.LNK_ERRORS n) F.LNK_ERRORS_replays else d
    match lane with
    | some k => d.chargeLane n k
    | none => d

/-- A data lane, or lane 8 in its place, loses block lock or has reached retire_count errors (R21 to R24). -/
def Dev.laneFailure (d : Dev) (n lane : Nat) (lost : Bool) : Dev :=
  let l := d.link n
  if !d.present (n + 1) || l.isolated || (lane = 8 && !l.spareUsed) || l.retired.testBit lane then d
  else if lost || d.laneOver n lane then
    ((d.failLane n lane).resendLink n).afterLanes n l.isolated
  else d

/-- Lane 8 fails its own check while it carries no data (R21, R23). -/
def Dev.spareFail (d : Dev) (n : Nat) : Dev :=
  let l := d.link n
  if !d.present (n + 1) || l.isolated || l.spareUsed || l.retired.testBit 8 then d else (d.failLane n 8).afterLanes n l.isolated

/-- A flit has been resent 8 times: the link stops and retrains (R19). -/
def Dev.linkRetrain (d : Dev) (n : Nat) : Dev :=
  let l := d.link n
  if l.up && l.exhausted then d.setLink n { l with up := false, retraining := true } else d

/-- The flits of a direction start their count of resends afresh after a retrain. -/
def LinkDir.fresh (x : LinkDir) : LinkDir := { x with replay := x.replay.map (fun f => { f with resent := 0 }), discarding := false }

/-- A retrain ends: every lane that failed training fails, and the link resends from its replay buffers (R19, R21). -/
def Dev.retrainDone (d : Dev) (n failed : Nat) : Dev :=
  if !(d.link n).retraining then d
  else
    let d := d.failLanes n failed
    if (d.link n).isolated then d.afterLanes n false
    else
      let l := { d.link n with up := true, retraining := false }
      (d.setLink n { l with out := l.out.fresh, in_ := l.in_.fresh }).resendLink n

/-! ## Clocks (R28) -/

/-- The dies that a clock domain reaches (01_architecture.md, Clock domains). -/
def domDies : ClkDom → List Nat
  | .conv => [1, 2, 3]
  | .sig => [1, 2, 3, 4, 5]
  | .core => [0, 7]
  | .memck => [0, 6]
  | .ser25 => [0]
  | .ser2g5 => [0]

/-- A radio die whose clock is stopped has nothing on air and holds no burst. -/
def Dev.radioStopped (d : Dev) (r : Nat) : Dev := (d.setRadio r { d.radio r with air := [], held := [] }).dutyRefresh r

/-- A lane without clock or power loses its lock, and its link with it; a run of its calibration unit ends (R345, R404). -/
def Dev.laneLost (d : Dev) (n : Nat) : Dev :=
  let d := if d.hubUp && d.flag (R.MAC_STATUS n) F.MAC_STATUS_pcs_lock then d.lockChange n false false else d
  if d.macLink n then (d.dropLink n).calLost (fun u => calFam u == 1 && u % 64 == n) else d

/-- The MACs of a stopped SerDes domain lose their links. -/
def Dev.serStopped (d : Dev) (ns : List Nat) : Dev := ns.foldl Dev.laneLost d

/-- A PLL-derived clock departs by more than 1% on a die: its block stops and is isolated (R28). -/
def Dev.clockFault (d : Dev) (dom : ClkDom) (die : Nat) : Dev :=
  if !d.present die || !(domDies dom).contains die || d.clkOff.contains (dom, die) then d
  else
    let d := { d with clkOff := d.clkOff ++ [(dom, die)] }.fatal 3 die
    match dom with
    | .ser25 => d.serStopped [0, 1]
    | .ser2g5 => d.serStopped [2, 3, 4, 5, 6, 7]
    | _ => if 1 ≤ die && die ≤ 3 then (d.radioStopped (die - 1)).dieLost die else d.dieLost die

/-- XO fails: every PLL-derived domain is isolated (R28). -/
def Dev.xoFailure (d : Dev) : Dev :=
  let all := [ClkDom.conv, .sig, .core, .memck, .ser25, .ser2g5].flatMap (fun c => ((domDies c).filter d.present).map (fun x => (c, x)))
  let d := d.fatal 3 0
  let d := (List.range 3).foldl (fun d r => d.radioStopped r) d
  { d with clkOff := d.clkOff ++ all.filter (fun p => !d.clkOff.contains p) }

/-! ## Temperatures (R15, R125, R400, R488, R511) -/

/-- Every sensor of the package has given a reading, and the last one of each is below a limit in 1/16 degree (R125, R488); an absent die has no
sensors. -/
def Dev.allBelow (d : Dev) (limit : Int) : Bool :=
  (List.range 16).all (fun s => !d.present (s / 2) || (smFind d.temps s).any (fun v => decide (v < limit)))

/-- Event 7: every PA and XAMP_EN off before any other action (R125). -/
def Dev.tempTrip (d : Dev) (s : Nat) : Dev :=
  let d := (List.range 3).foldl Dev.tripRadio d
  { d.raise 7 s with evt := { (d.raise 7 s).evt with trip := true } }

/-- A reading within range is judged against the limits of events 6 and 7. -/
def Dev.tempJudge (d : Dev) (s : Nat) (v : Int) : Dev :=
  let d := if d.evt.trip then (if d.allBelow 1600 then { d with evt := { d.evt with trip := false } } else d)
    else if 1760 ≤ v then d.tempTrip s else d
  if d.evt.arm6 then
    if 1600 ≤ v then { d.raise 6 s with evt := { (d.raise 6 s).evt with arm6 := false } } else d
  else if d.allBelow 1520 then { d with evt := { d.evt with arm6 := true } }
  else d

/-- A temperature sensor delivers a reading in 1/16 degree (R15). A reading outside -55 to +150 degrees shows the sensor as invalid and is not judged. -/
def Dev.tempReading (d : Dev) (s : Nat) (v : Int) : Dev :=
  let die := s / 2
  if !d.dieUp die then d
  else
    let d := if s = 0 && tempOk v then d.holdTemp (smFind d.temps 0) v else d
    let d := { d with temps := smInsert s v d.temps }
    let d := d.setWord (R.CAL_TEMP s) (BitVec.ofNat 32 (bitOf (tempOk v) * 2 ^ 31 + wrapNat 16 v))
    if !tempOk v then d
    else
      let d := d.tempJudge s v
      let d := if 1 ≤ die && die ≤ 3 then d.vcoTempCheck (die - 1) else d
      d.sample 8 s v

/-! ## Cages (R500) -/

/-- A cage draws more than its limit: its output folds back, and its link goes down (R345, R500). -/
def Dev.cageFold (d : Dev) (n : Nat) : Dev :=
  if d.cagesFolded.testBit n then d
  else { d with cagesFolded := setBit d.cagesFolded n true }.laneLost n

/-- 1 s after the fold the output is tried again (R500). -/
def Dev.cageRetry (d : Dev) (n : Nat) : Dev := { d with cagesFolded := setBit d.cagesFolded n false }

/-! ## Control state (R467) -/

/-- One copy of a control element had wrong parity: it is restored (R467). -/
def Dev.controlRestored (d : Dev) : Dev := d.corrected.recovery 6

end Sys2Proof.Machine
end

