-- ==== Sys2Proof/Machine/Reset.lean ====
section
/-! DEFINITION. Resets: what each kind keeps, how the device leaves reset, and the end of a wake (R39, R420, R449, R458, R472 to R480). -/

namespace Sys2Proof.Machine

open Sys2Proof

/-! ## What a reset keeps (R472, R473, R475, R479) -/

/-- A Region Profile blow that is cut off: each of its bits is blown or not, which is left open (R473). -/
def Dev.cutRpBlow (d : Dev) (r : Nat) : Dev :=
  match (d.radio r).blow with
  | none => d
  | some (a, bits) =>
    let (w, d) := d.takeWord
    { d with fuses := smSet (fun _ => 0) d.fuses a (BitVec.ofNat 32 (d.fuse a ||| (bits &&& w.toNat))) }

/-- A root key blow that is cut off: programmed stays 0, and each key fuse is blown or not (R475). -/
def Dev.cutRootBlow (d : Dev) : Dev :=
  match d.rootBlow with
  | none => d
  | some key => (List.range 8).foldl (fun (d : Dev) k =>
      let (w, d) := d.takeWord
      { d with rootKey := d.rootKey ||| (key &&& (w.toNat * 2 ^ (32 * k))) }) { d with rootBlow := none }

/-- The blows under way are cut off. -/
def Dev.cutBlows (d : Dev) : Dev := ((List.range 3).foldl Dev.cutRpBlow d).cutRootBlow

/-- Everything at its reset value but what a loss of supply keeps: the flash, the fuses, and what is outside the block (R472). -/
def Dev.bare (d : Dev) : Dev :=
  { Dev.reset with
    member := d.member, xo := d.xo, nt := d.nt, rdata := d.rdata, free := d.free
    flash := d.flash, fuses := d.fuses, rootKey := d.rootKey, rootProgrammed := d.rootProgrammed, pubDigest := d.pubDigest
    pads := d.pads, cagesFolded := d.cagesFolded
    rtc := { Rtc.reset with secAt := d.xo } }

/-- The registers that AO holds: the RTC block, PWR_STAT's wakes and retries, fail_seen, the count of resets, and the number of Understudies (R250,
R479). -/
def Dev.aoRegs (d : Dev) : SMap Word :=
  let keep (m : SMap Word) (a : Nat) (mask : Word) : SMap Word :=
    smSet resetWord m a ((d.word a &&& mask) ||| (resetWord a &&& ~~~mask))
  keep (keep (keep (keep (d.regsIn 0x18000 0x19000) R.PWR_STAT 0xFFFFFF00) R.PWR_AO_STATUS 0x100) R.EVT_RST_CAUSE 0xFFFF0000) R.PUP_CTRL 0xF

/-- Every domain but AO at its reset value (R479): AO keeps the RTC, its status and counts, and the events it has raised.
CLK_CTRL.tai_utc takes the AO value (R458). -/
def Dev.fresh (d : Dev) : Dev :=
  let e : Dev := { d.bare with
    regs := d.aoRegs, rtc := { d.rtc with trimAt := none }, evt := { Evt.reset with lateq := d.evt.lateq }
    pwr := { Pwr.reset with
      aoOn := d.pwr.aoOn, hubOn := d.pwr.hubOn, resetLow := d.pwr.resetLow, brown := d.pwr.brown, vinOut := d.pwr.vinOut
      cause := d.pwr.cause, mode := d.pwr.mode, failStage := d.pwr.failStage, straps := d.pwr.straps } }
  e.put R.CLK_CTRL F.CLK_CTRL_tai_utc (e.get R.RTC_TAI F.RTC_TAI_tai_utc)

/-- NT takes the calendar's time (R39). -/
def Dev.loadNt (d : Dev) : Dev :=
  { d with nt := (utcEpoch + d.rtc.now.secs + d.get R.CLK_CTRL F.CLK_CTRL_tai_utc) * 1000000000 }

/-- GPIO2 to GPIO0 are latched; a pad that nothing drives reads 0 (R430). -/
def Dev.latchStraps (d : Dev) : Dev :=
  let bit (k : Nat) : Nat := bitOf ((smGet (fun _ => none) d.pads k).getD false)
  { d with pwr := { d.pwr with straps := bit 0 + 2 * bit 1 + 4 * bit 2 } }

/-- Every domain but AO is put into reset, and the HUB is held there. -/
def Dev.hold (d : Dev) : Dev :=
  let d := d.cutBlows.fresh
  { d with pwr := { d.pwr with hubOn := false } }

/-- A reset of cause 2 to 5 is counted, and the HUB leaves reset: boot follows (R479). -/
def Dev.leaveReset (d : Dev) (cause : Nat) : Dev :=
  let d := d.bump R.EVT_RST_CAUSE F.EVT_RST_CAUSE_resets
  ({ d with pwr := { d.pwr with hubOn := true, cause := cause } }).loadNt

/-! ## The resets (R478 to R480) -/

/-- The supply rises from below the AO hold level: cause 1. -/
def Dev.powerOn (d : Dev) : Dev :=
  let low := d.pwr.resetLow
  let d := d.cutBlows.bare
  ({ d with pwr := { d.pwr with resetLow := low, hubOn := !low } }).latchStraps.loadNt

/-- RESET_N has been low for 1 us (R478); the reset that its release ends has cause 2. -/
def Dev.resetAssert (d : Dev) : Dev :=
  if !d.pwr.aoOn then { d with pwr := { d.pwr with resetLow := true } }
  else
    let d := d.hold
    { d with pwr := { d.pwr with resetLow := true, cause := 2 } }

/-- RESET_N rises: the straps are latched; unless brown-out or a lost supply holds the device, it leaves reset with cause 2, or with cause 1 where
RESET_N was low since power-on. -/
def Dev.resetRelease (d : Dev) : Dev :=
  if !d.pwr.resetLow then d
  else
    let d := ({ d with pwr := { d.pwr with resetLow := false } }).latchStraps
    if !d.pwr.aoOn || d.pwr.brown then d
    else if d.pwr.cause = 1 then ({ d with pwr := { d.pwr with hubOn := true } }).loadNt
    else d.leaveReset 2

/-- VIN has been below 9.5 V for 5 us: PAs and XAMP_EN go off, and every domain but AO is held in reset (R480). -/
def Dev.brownOut (d : Dev) : Dev :=
  if !d.pwr.aoOn then d
  else
    let d := ((List.range 3).foldl Dev.tripRadio d).hold
    { d with pwr := { d.pwr with brown := true } }

/-- VIN has been above 10.5 V for 10 ms: the reset of cause 3 (R480). -/
def Dev.brownEnd (d : Dev) : Dev :=
  if !d.pwr.brown then d
  else
    let d := { d with pwr := { d.pwr with brown := false } }
    if d.pwr.resetLow then d else d.leaveReset 3

/-- VIN falls below the AO hold level: AO stops and its state is lost (R480). -/
def Dev.aoLost (d : Dev) : Dev :=
  let low := d.pwr.resetLow
  let d := d.cutBlows.bare
  { d with pwr := { d.pwr with aoOn := false, hubOn := false, resetLow := low } }

/-- VIN leaves or re-enters 10.8 to 13.2 V (R476). -/
def Dev.vinRange (d : Dev) (out : Bool) : Dev :=
  if d.pwr.vinOut = out then d else ({ d with pwr := { d.pwr with vinOut := out } }).raise 5 0 (bitOf out)

/-- The copies of a control element disagree: the good one is restored, or, with both bad, the device resets with cause 5 (R467). -/
def Dev.controlMismatch (d : Dev) (both : Bool) : Dev := if both then d.hold.leaveReset 5 else d.controlRestored

/-! ## The end of a wake (R449) -/

/-- A wake has reached RUN: event 1, and PWR_STAT.wakes. -/
def Dev.wakeEnds (d : Dev) : Dev :=
  match d.pwr.wake with
  | none => d
  | some w =>
    let d := (d.put R.PWR_STATE F.PWR_STATE_last_from w.from_).bump R.PWR_STAT F.PWR_STAT_wakes
    ({ d with pwr := { d.pwr with wake := none, wakePending := false, vigilOff := [] } }).raise 1 0 w.from_

/-- RUN: the AO byte shows it, and Jack hands the pins back (R445). -/
def Dev.enterRun (d : Dev) : Dev :=
  let d := d.wakeEnds
  { d with pwr := { d.pwr with mode := .run, jack := false } }

end Sys2Proof.Machine
end

