-- ==== Sys2Proof/Machine/Boot.lean ====
section
/-! DEFINITION. Boot: choosing a copy, applying its records, fallback and BOOT_FAIL (18_configuration_and_commands.md, R417 to R422). -/

namespace Sys2Proof.Machine

open Sys2Proof

/-- The cause field of a copy. -/
def causeFld (x : Nat) : Fld := if x = 0 then F.CFG_BOOT_cause_a else F.CFG_BOOT_cause_b

/-- A string link trains its nine lanes (R25): those of the mask fail. -/
def Dev.trainLanes (d : Dev) (n failed : Nat) : Dev :=
  if d.present (n + 1) then (d.setLink n { Link.reset with retraining := true }).retrainDone n failed else d

/-- The blocks start from their reset values: the DRAM channels are trained, and each radio holds its factory codes (R402, R412). -/
def Dev.blocksStart (d : Dev) : Dev :=
  let d := if d.memUp then d.dramTrain else d
  (List.range 3).foldl (fun d r => if d.present (r + 1) then d.calRadioUp r else d) d

/-- Every block but AO, the Command Port and CFG_BOOT goes back to its reset value. The records of event 9 from step 1 stay, with its status bit and
sequence number (R420). -/
def Dev.blocksReset (d : Dev) : Dev :=
  let kept := (List.range 2).any (fun x => headCause (d.header x) != 0)
  let e := d.fresh
  let regs := smClear d.regs 0x5000 (2 ^ 40) |>.filter (fun p => decide (0x4000 ≤ p.1) || p.1 == R.CFG_BOOT || p.1 == R.CFG_SEQ_A || p.1 == R.CFG_SEQ_B)
  let e := regs.foldl (fun (e : Dev) p => e.setWord p.1 p.2) e
  let e := { e with cmd := d.cmd, links := d.links, clkOff := d.clkOff, boot := d.boot, pwr := d.pwr }
  if kept then
    { e.put (evtStatusReg 9) ⟨9, 9⟩ 1 with evt := { Evt.reset with
        log := d.evt.log.filter (fun r => r.src == 9), seq := [(9, d.evtSeq 9)], pend := d.evt.pend.filter (fun p => p.src == 9) } }
  else { e with evt := Evt.reset }

/-- A copy fails with a cause: it is recorded, the blocks go back to reset, event 9 is raised and fallback set (R420). The steps of boot lie at
different instants, so the event is logged before those of the next one (R485). -/
def Dev.copyFails (d : Dev) (x cause : Nat) : Dev :=
  let d := ((d.put R.CFG_BOOT (causeFld x) cause).blocksReset.put R.CFG_BOOT F.CFG_BOOT_fallback 1).blocksStart
  (({ d with boot := { d.boot with rest := [], poll := none } }).raise 9 0 cause).flushEvents

/-- The cause of the reset is recorded and raised (R479). -/
def Dev.causeRaised (d : Dev) : Dev := (d.put R.EVT_RST_CAUSE F.EVT_RST_CAUSE_cause d.pwr.cause).raise 4 0 d.pwr.cause

/-- Neither copy could be applied: BOOT_FAIL (R421). -/
def Dev.bootFails (d : Dev) : Dev :=
  let d := { d with boot := { d.boot with phase := .fail, inForce := none } }
  let d := ((d.put R.CFG_BOOT F.CFG_BOOT_copy 3).fatal 14 0).causeRaised
  ({ d with pwr := { d.pwr with mode := .run, wake := none, wakePending := false, jack := false } }).cmdPump

/-- A copy has been applied in full: RUN (R420). -/
def Dev.bootDone (d : Dev) (x : Nat) : Dev :=
  let d := (d.put R.CFG_BOOT (causeFld x) 0).put R.CFG_BOOT F.CFG_BOOT_copy x
  let d := d.boot.others.foldl (fun d y => d.put R.CFG_BOOT (causeFld y) 10) d
  let d := d.put R.CFG_FLAGS F.CFG_FLAGS_free_run (byteAt (d.header x) 22 % 2)
  let d := { d with boot := { d.boot with phase := .run, rest := [], poll := none, inForce := some x } }
  (((d.placeUnderstudies.raise 8 0 x).causeRaised).enterRun).cmdPump

/-- How the records of a copy stand. -/
inductive Applied where
  | whole | failed | waiting
deriving DecidableEq, Repr

/-- The condition of a POLL record holds. -/
def Dev.pollMet (d : Dev) (a m v : Nat) : Dev × Bool :=
  if d.accessStatus [a] != 0 then (d, false)
  else match d.busRead a with
    | (e, some w) => (e, w.toNat &&& m == v)
    | (e, none) => (e, false)

/-- The records that are left are applied in order, up to a POLL that has to wait. The fuel is the number of words. -/
def Dev.applyRest : Nat → List Word → Dev → Dev × Applied
  | 0, _, d => (d, .failed)
  | n + 1, ws, d => match takeRec ws with
    | none => (d, .failed)
    | some (.finish, _) => (d, .whole)
    | some (.poll a m v ms, rest) =>
      match d.pollMet a m v with
      | (d, true) => d.applyRest n rest
      | (d, false) => ({ d with boot := { d.boot with rest := rest, poll := some (a, m, v), pollBy := d.xo + ms * 1000000 } }, .waiting)
    | some (r, rest) => match d.applyRec false r with
      | (d, true) => d.applyRest n rest
      | (d, false) => (d, .failed)

/-- Copies are tried in order (R420 steps 2 to 5). -/
def Dev.tryCopies : List Nat → Dev → Dev
  | [], d => d.bootFails
  | x :: others, d =>
    let c := d.bodyCause x
    if c != 0 then (d.copyFails x c).tryCopies others
    else
      let ws := wordsOf (d.copyBody x)
      let d := { d with boot := { d.boot with cur := x, others := others } }
      match d.applyRest ws.length ws with
      | (d, .whole) => d.bootDone x
      | (d, .waiting) => d
      | (d, .failed) => (d.copyFails x 9).tryCopies others

/-- The copies that pass checks 1 to 3, the newer first (R418). -/
def Dev.goodHeads (d : Dev) : List Nat :=
  let ok (x : Nat) : Bool := headCause (d.header x) == 0
  if ok 0 && ok 1 then (if newer (headSeq (d.header 1)) (headSeq (d.header 0)) then [1, 0] else [0, 1])
  else (List.range 2).filter ok

/-- Step 1: both headers are read, ahead of the other steps. -/
def Dev.readHeads (d : Dev) : Dev :=
  Dev.flushEvents <| (List.range 2).foldl (fun d x =>
    let h := d.header x
    let c := headCause h
    let d := d.setWord (if x = 0 then R.CFG_SEQ_A else R.CFG_SEQ_B) (BitVec.ofNat 32 (headSeq h))
    if c = 0 then d else (d.put R.CFG_BOOT (causeFld x) c).raise 9 0 c) d

/-- XO and the PLLs are stable (R422): the links train, the events kept are logged, the replay counter is read, and boot runs. -/
def Dev.bootStart (d : Dev) (lanes : List (Nat × Nat)) : Dev :=
  if !d.hubUp || d.boot.phase != .idle then d
  else
    let d := { d with boot := { d.boot with phase := .applying } }
    let d := (List.range 7).foldl (fun d n => d.trainLanes n (((lanes.find? (fun p => p.1 == n)).map (·.2)).getD 0)) d.raiseLate
    let (logged, k) := d.logLatest.getD (0, 0)
    let d := { d with cmd := { d.cmd with replay := logged + 65536, logNo := k } }
    let d := d.blocksStart.readHeads
    d.tryCopies d.goodHeads

/-- The condition of the POLL that boot waits on is met: boot goes on (R419). -/
def Dev.pollGoes (d : Dev) : Dev :=
  match d.boot.phase, d.boot.poll with
  | .applying, some (a, m, v) =>
    match d.pollMet a m v with
    | (_, false) => d
    | (d, true) =>
      let d := { d with boot := { d.boot with poll := none } }
      match d.applyRest d.boot.rest.length d.boot.rest with
      | (d, .whole) => d.bootDone d.boot.cur
      | (d, .waiting) => d
      | (d, .failed) => (d.copyFails d.boot.cur 9).tryCopies d.boot.others
  | _, _ => d

/-- The POLL that boot waits on times out: the copy fails (R420). -/
def Dev.pollFails (d : Dev) : Dev :=
  match d.boot.phase, d.boot.poll with
  | .applying, some _ => if d.xo < d.boot.pollBy then d else (d.copyFails d.boot.cur 9).tryCopies d.boot.others
  | _, _ => d

end Sys2Proof.Machine
end

