-- ==== Sys2Proof/Machine/Power.lean ====
section
/-! DEFINITION. The POWER command, the reduced states, Jack and wakes (19_power_and_wake.md, R437 to R449). -/

namespace Sys2Proof.Machine

open Sys2Proof

/-! ## Powering a domain down (R439) -/

/-- A domain is fenced: a radio aborts its bursts and gives up its held sets with cause 5. -/
def Dev.fence (d : Dev) (code : Nat) : Dev :=
  let d := if 4 ≤ code && code ≤ 6 then (d.abortAir (code - 4) 5).dropHeld (code - 4) 5 else d
  d.setDom code 2

/-- The state a die loses with its power: its registers, memories, cores or radio. -/
def Dev.dieReset (d : Dev) (die : Nat) : Dev :=
  if die = 4 || die = 5 then
    let b := die - 4
    let d := (d.clearRegs (0x1000000 + b * 0x800000) (0x1800000 + b * 0x800000)).clearRegs (0x102000000 + b * 0x400000) (0x102400000 + b * 0x400000)
    let d := (d.clearRegs (0x104000000 + b * 0x20000) (0x104020000 + b * 0x20000)).clearRegs (0x105000000 + b * 0x20000) (0x105020000 + b * 0x20000)
    { d with cores := smClear d.cores (32 * b) (32 * b + 32) }
  else if 1 ≤ die && die ≤ 3 then
    let r := die - 1
    let d := d.cutRpBlow r
    let d := d.clearRegs (0x2000000 + r * 0x100000) (0x2100000 + r * 0x100000)
    { d with radios := smErase d.radios r, kals := smErase d.kals r, temps := smClear d.temps (2 * die) (2 * die + 2) }
  else d

/-- A fenced domain powers down, and its radio, which then reads OFF, raises its state event where it was in another state (R116); a transfer still
unfinished raises event 3. -/
def Dev.powerDown (d : Dev) (code : Nat) (unfinished : Bool) : Dev :=
  let die := dieOfDom code
  let moved := decide (4 ≤ code) && decide (code ≤ 6) && d.radState (code - 4) != radOFF
  let d := (d.setDom code 0).dieLost die
  let d := d.dieReset die
  let d := if moved then d.radEvent (code - 4) else d
  if unfinished then (d.bump R.PWR_STAT F.PWR_STAT_drain_timeouts).raise 3 code else d

/-- The basebands that are powered. -/
def Dev.basebandsOn (d : Dev) : List Nat := [2, 3].filter (fun c => d.present (dieOfDom c) && d.dom c == 1)

/-- POWER for one domain at the head of the queue: its refusals, or no effect where the domain has the state asked for (R438). -/
def Dev.runDomain (d : Dev) (up : Bool) (f : Dev → Nat → Dev) : Dev :=
  d.runHead (fun c => c.op == 8 && c.addr == 1 && c.arg.testBit 8 == up) (fun d c =>
    let code := c.arg % 16
    if !d.present (dieOfDom code) then d.complete c 2 0 [] false
    else if (d.dom code != 0) == up then d.complete c 0 0 [] false
    else if !up && d.basebandsOn == [code] then d.complete c 4 0 [] false
    else
      let d := f d code
      { d with cmd := { d.cmd with busy := some (.domain code up) } })

/-- POWER, domain off: the domain is fenced and drains. -/
def Dev.domainOff (d : Dev) : Dev := d.runDomain false Dev.fence

/-- POWER, domain on. -/
def Dev.domainOn (d : Dev) : Dev := d.runDomain true (fun d code => d.setDom code 3)

/-! ## Powering a domain up (R440) -/

/-- The records of the copy in force for a die are applied; 0, or the cause of R417 for a crc or a write that fails. -/
def Dev.reapply (d : Dev) (die : Nat) : Dev × Nat :=
  match d.boot.inForce with
  | none => (d, 0)
  | some x =>
    if !d.crcOk x then (d, 4)
    else
      let ws := wordsOf (d.copyBody x)
      match d.applyFor die ws.length ws with
      | (d, true) => (d, 0)
      | (d, false) => (d, 9)

/-- A domain has powered up: its die is at reset, the copy's records are applied, and it serves; or it goes off again with event 9. -/
def Dev.powerUp (d : Dev) (code : Nat) : Dev × Bool :=
  let die := dieOfDom code
  match (d.dieReset die).reapply die with
  | (e, 0) =>
    let e := e.setDom code 1
    ((if 4 ≤ code then e.calRadioUp (code - 4) else e).dispatch, true)
  | (e, cause) => (((e.dieReset die).setDom code 0).raise 9 0 cause, false)

/-! ## State entries (R442 to R444) -/

/-- The waiting tasks are freed and counted, with no event (R442 step 2). -/
def Dev.freeWaiting (d : Dev) : Dev :=
  (d.pup.tasks.filter (fun p => p.2.state == 1)).foldl (fun d p =>
    ((d.freeTaskOps p.1 p.2).dropTask p.1).bump R.PUP_LOSS F.PUP_LOSS_expired) d

/-- Both basebands are down: each fired task that has not completed is abandoned (R442 step 3). -/
def Dev.abandonFired (d : Dev) : Dev :=
  let d := (d.pup.tasks.filter (fun p => p.2.state == 2 || p.2.state == 3)).foldl (fun d p => d.abandonTask p.1 p.2) d
  { d with pup := { d.pup with redo := [] } }

/-- The heads of a queue that lie in DRAM cells are dropped one after another, each next head tagged from the one before it (R332). The fuel is the number
of frames. -/
def Dev.dropDramHeads (d : Dev) (g : Nat) : Nat → Dev
  | 0 => d
  | fuel + 1 =>
    if !(d.queue g).busy && (d.queue g).frames.head?.any (·.dram) then
      ((d.popQueue g).bump (R.SHP_Q_DROP g) F.SHP_Q_DROP_admit).dropDramHeads g fuel
    else d

/-- The frames of a queue in DRAM cells are dropped (R442 step 5), those behind another head with it; the one on the wire runs on. -/
def Dev.dropDram (d : Dev) (g : Nat) : Dev :=
  let d := d.dropDramHeads g (d.queue g).frames.length
  let x := d.queue g
  let rest := x.frames.drop 1
  let n := (rest.filter (·.dram)).length
  if n = 0 then d
  else
    let d := d.setQueue g { x with frames := x.frames.take 1 ++ rest.filter (fun f => !f.dram) }
    (d.showDepth g).bumpBy (R.SHP_Q_DROP g) F.SHP_Q_DROP_admit n

/-- MEM leaves service: every request under way ends with an error, in order, and every owed refresh is issued (R395, R439, R441). -/
def Dev.memOff (d : Dev) : Dev :=
  let last := (d.drc.ch0 ++ d.drc.ch1 ++ d.drc.ports).foldl (fun _ r => some (⟨r.port, r.addr, [], 1⟩ : DramDone)) d.drc.last
  (({ d with drc := { d.drc with ch0 := [], ch1 := [], ports := [], last := last } }).refreshAll).setDom 7 0

/-- The SerDes of every MAC but the management MAC power down. -/
def Dev.serOff (d : Dev) : Dev :=
  let ns := (List.range 8).filter (fun n => n != d.pwr.mgmtMac)
  (d.serStopped ns).setDom 8 0

/-- A state has been entered; a wake that waits follows at once (R446). -/
def Dev.startWake (d : Dev) : Dev :=
  let from_ := match d.pwr.mode with
    | .vigil => 1 | .dormant => 2 | _ => 3
  { d with pwr := { d.pwr with wake := some ⟨if from_ = 1 then 4 else 1, 0, from_⟩ } }

def Dev.entered (d : Dev) (m : PwrMode) : Dev :=
  let d := { d with pwr := { d.pwr with mode := m, entry := none } }
  if d.pwr.wakePending then d.startWake else d

/-- DORMANT: the HUB is off, and everything outside AO is lost (R443). -/
def Dev.dormantNow (d : Dev) : Dev :=
  let waiting := d.pwr.wakePending
  let d := d.hold
  ({ d with pwr := { d.pwr with jack := true, wakePending := waiting } }).entered .dormant

/-- Steps 5 to 7 of VIGIL entry, or the rest of DORMANT entry up to the drain of SER (R442, R443). -/
def Dev.entryTail (d : Dev) (dormant : Bool) : Dev :=
  let d := ((List.range 64).foldl Dev.dropDram d).memOff
  if dormant then d.setDom 8 2 else (d.serOff.raise 0).entered .vigil

/-- The entry goes on as far as no domain of its group still drains. -/
def Dev.entryGoes (d : Dev) : Dev :=
  let draining (cs : List Nat) (d : Dev) : Bool := cs.any (fun c => d.dom c == 2)
  let radios (d : Dev) (e : PwrEntry) : Dev := if draining [4, 5, 6] d then d else d.entryTail e.dormant
  match d.pwr.entry with
  | none => d
  | some e =>
    if e.basebands then
      if draining [2, 3] d then d
      else
        let on := [4, 5, 6].filter (fun c => d.present (dieOfDom c) && d.dom c == 1)
        let d := on.foldl Dev.fence d.abandonFired
        radios { d with pwr := { d.pwr with entry := some { e with basebands := false }, vigilOff := d.pwr.vigilOff ++ on } } e
    else radios d e

/-- A POWER state command commits (R444): it completes, Jack takes the pins, unread I2C completions are discarded, and the commands behind it
complete with status 5. -/
def Dev.stateCommit (d : Dev) (c : Cmd) : Dev :=
  let d := d.complete c 0 0 [] false
  let d := { d with cmd := { d.cmd with i2c := d.cmd.i2c.filter (·.notif) }, pwr := { d.pwr with jack := true } }
  d.cmd.queue.foldl (fun d c => d.complete c 5 0 [] false) d

/-- The entry starts from RUN (R442 steps 1 to 3). -/
def Dev.startEntry (d : Dev) (dormant : Bool) : Dev :=
  let on := d.basebandsOn
  let d := on.foldl Dev.fence d.freeWaiting
  let d := { d with pwr := { d.pwr with
    entry := some ⟨dormant, true⟩, mgmtMac := d.get R.PWR_CTRL F.PWR_CTRL_mgmt_mac, vigilOff := on } }
  d.entryGoes

/-- POWER, enter VIGIL, from RUN. -/
def Dev.enterVigil (d : Dev) : Dev :=
  d.runHead (fun c => c.op == 8 && c.addr == 0 && c.arg == 1) (fun d c => (d.stateCommit c).startEntry false)

/-- POWER, enter DORMANT, from RUN or VIGIL. -/
def Dev.enterDormant (d : Dev) : Dev :=
  d.runHead (fun c => c.op == 8 && c.addr == 0 && c.arg == 2) (fun d c =>
    if d.fullRun then (d.stateCommit c).startEntry true
    else if d.pwr.mode == .vigil && d.pwr.entry.isNone && d.pwr.wake.isNone then
      let d := d.stateCommit c
      ({ d with pwr := { d.pwr with entry := some ⟨true, false⟩ } }).setDom 8 2
    else d.complete c 3 0 [] false)

/-- A fenced domain has drained, or 100 us have passed (R439): it powers down, and the command or the entry goes on. -/
def Dev.drainEnd (d : Dev) (code : Nat) (unfinished : Bool) : Dev :=
  if d.dom code != 2 then d
  else if code = 8 then d.dormantNow
  else
    let d := d.powerDown code unfinished
    match d.cmd.queue.head?, d.cmd.busy with
    | some c, some (.domain _ false) => (d.complete c 0 0 [] false).cmdPump
    | _, _ => d.entryGoes

/-! ## Jack and wakes (R445 to R449) -/

/-- Jack holds the I2C pins in a reduced state or on the way to or from one (R445). -/
def Dev.jackAnswers (d : Dev) : Bool := d.pwr.aoOn && d.pwr.jack

/-- The host can read AO status: through Jack where it holds the pins, and while the HUB's clock has stopped, when AO and MGMT run on (R28; DESIGN
CHOICE of Jack's read for it, log entry 213). -/
def Dev.aoReadable (d : Dev) : Bool := d.pwr.aoOn && (d.pwr.jack || d.coreDead)

/-- A write to Jack's address. -/
def Dev.jackWrite (d : Dev) : Dev :=
  if !d.jackAnswers then d
  else
    let d := { d with pwr := { d.pwr with wakePending := true } }
    if d.pwr.entry.isSome || d.pwr.wake.isSome then d else d.startWake

/-- A read from Jack's address returns the AO status byte. -/
def Dev.jackRead (d : Dev) : Dev := if d.aoReadable then d.answer (BitVec.ofNat 32 d.aoByte) else d

/-- The domains that VIGIL entry turned off start to power up, MEM and SER first; with none, the wake has reached RUN. -/
def Dev.vigilWake (d : Dev) : Dev :=
  let d := ((d.setDom 7 1).setDom 8 1).refreshAll
  let d := d.pwr.vigilOff.foldl (fun d c => d.setDom c 3) d
  if d.pwr.vigilOff.isEmpty then d.enterRun.cmdPump else d

/-- A wake stage is ready: the next follows, and after the last the domains power up or, from DORMANT and WAKE_FAIL, boot runs (R448). -/
def Dev.wakeReady (d : Dev) : Dev :=
  match d.pwr.wake with
  | none => d
  | some w =>
    if 5 ≤ w.stage then d
    else if w.stage < 4 then { d with pwr := { d.pwr with wake := some { w with stage := w.stage + 1, timeouts := 0 } } }
    else
      let w := { w with stage := 5, timeouts := 0 }
      if w.from_ = 1 then ({ d with pwr := { d.pwr with wake := some w } }).vigilWake
      else
        let d := d.hold.leaveReset 4
        { d with pwr := { d.pwr with wake := some w, wakePending := true, jack := true } }

/-- WAKE_FAIL: every domain but AO is off; event 2 will be the first record once the HUB comes up. -/
def Dev.wakeFails (d : Dev) (stage : Nat) : Dev :=
  let d := d.hold.put R.PWR_AO_STATUS F.PWR_AO_STATUS_fail_seen 1
  { d with
    evt := { d.evt with lateq := (2, 0, stage % 4) :: d.evt.lateq }
    pwr := { d.pwr with mode := .wakeFail, failStage := stage % 4, jack := true } }

/-- A wake stage times out: it is retried up to three times. -/
def Dev.wakeTimeout (d : Dev) : Dev :=
  match d.pwr.wake with
  | none => d
  | some w =>
    if 5 ≤ w.stage then d
    else if w.timeouts < 3 then
      let d := d.bump R.PWR_STAT F.PWR_STAT_retries
      { d with pwr := { d.pwr with wake := some { w with timeouts := w.timeouts + 1 } } }
    else d.wakeFails w.stage

/-- A domain has powered up (R440, R448, R449). -/
def Dev.domainUp (d : Dev) (code : Nat) : Dev :=
  if d.dom code != 3 then d
  else
    let (d, ok) := d.powerUp code
    match d.cmd.queue.head?, d.cmd.busy with
    | some c, some (.domain _ true) => (d.complete c (if ok then 0 else 6) 0 [] false).cmdPump
    | _, _ => if d.pwr.wake.isSome && (List.range 9).all (fun c => d.dom c != 3) then d.enterRun.cmdPump else d

end Sys2Proof.Machine
end

