-- ==== Sys2Proof/Machine/Decoder.lean ====
section
/-! DEFINITION. The decode chain of a received burst on plain numbers: soft values, de-interleaving, merging, combining, de-puncturing, the Viterbi decoder
and de-whitening; and the fit of the training block (06_demodulation.md, R175, R176, R180 to R182; 07_seesaw.md, R197). -/

namespace Sys2Proof.Machine

open Sys2Proof

/-! ## Soft values (R176) -/

/-- A soft value: limited to 31 either way. -/
def softLimit (x : Int) : Int := max (-31) (min 31 x)

/-- The soft value of a bit's natural-log likelihood ratio in units of 2^-16: steps of 0.25, to the nearest (R176; DESIGN CHOICE of the rounding, log
entry 232). -/
def softOf (llr : Int) : Int := softLimit (roundAway ((llr : Rat) / (16384 : Nat)))

/-- Where coded bit i of n stands after interleaving (R90). -/
def interleavedAt (n i : Nat) : Nat :=
  let rows := (n + 15) / 16
  let full := if n % 16 = 0 then 16 else n % 16
  i % 16 * rows - (i % 16 - full) + i / 16

/-- The interleaver of R90 reversed. -/
def deinterleave (n : Nat) (xs : List Int) : List Int := (List.range n).map (fun i => xs.getD (interleavedAt n i) 0)

/-- LM0's four repetitions merged by summing (R89, R175); the sum stays within a soft value's range (DEDUCED, log entry 232). -/
def mergeReps (mode : Nat) (xs : List Int) : List Int := if mode = 0 then (chunksOf 4 xs).map (fun c => softLimit c.sum) else xs

/-- The low copy's weight in 1/256 for copies d quarter-dB apart (R197). -/
def copyWeight (d : Nat) : Int := roundAway (256 * ratio40 (-(d : Int)))

/-- Two copies' soft values combined, position by position (R197). -/
def combineSoft (d : Nat) (hi lo : List Int) : List Int := (hi.zip lo).map (fun p => softLimit (p.1 + copyWeight d * p.2 / 256))

/-! ## Decoding (R86 to R88, R175) -/

/-- Zeros at the punctured positions (R88, R175): the soft values of A and B of each of n input bits from bit i on. -/
def depuncture (pa pb : List Bool) : Nat → Nat → List Int → List (Int × Int)
  | 0, _, _ => []
  | n + 1, i, xs =>
    let a := pa.getD (i % pa.length) true
    let b := pb.getD (i % pb.length) true
    let ys := if a then xs.tail else xs
    (if a then xs.headD 0 else 0, if b then ys.headD 0 else 0) :: depuncture pa pb n (i + 1) (if b then ys.tail else ys)

/-- A path of the decoder: its metric and its bits, newest first; none of a state not reached. -/
abbrev VPath := Option (Int × List Bool)

/-- A path extended from state p by bit u, with the soft values of A and B: a state holds the last six bits, the newest in bit 0 (R87). -/
def extendPath (x : VPath) (p : Nat) (u : Bool) (ab : Int × Int) : VPath :=
  x.map (fun y =>
    let (a, b) := convBit u ((List.range 6).map (fun i => p.testBit i))
    (y.1 + (if a then ab.1 else -ab.1) + (if b then ab.2 else -ab.2), u :: y.2))

/-- The better of two paths, the first on a tie (DESIGN CHOICE of the tie, log entry 232). -/
def betterPath (x y : VPath) : VPath :=
  match x, y with
  | some a, some b => if a.1 < b.1 then some b else some a
  | some a, none => some a
  | none, y => y

/-- One step of the Viterbi decoder over the 64 states. -/
def viterbiStep (st : Array VPath) (ab : Int × Int) : Array VPath :=
  ((List.range 64).map (fun s =>
    betterPath (extendPath (st.getD (s / 2) none) (s / 2) (s % 2 == 1) ab)
      (extendPath (st.getD (s / 2 + 32) none) (s / 2 + 32) (s % 2 == 1) ab))).toArray

/-- The bits that a Viterbi decoder from state zero to state zero decides (R87, R175). -/
def viterbi (xs : List (Int × Int)) : List Bool :=
  let first : Array VPath := ((List.range 64).map (fun s => if s = 0 then some (0, []) else none)).toArray
  (((xs.foldl viterbiStep first).getD 0 none).map (fun y => y.2.reverse)).getD []

/-- The bytes of a bit string, least significant bit first (R74). -/
def bytesLsb (bits : List Bool) : Bytes :=
  (chunksOf 8 bits).map (fun c => BitVec.ofNat 8 (c.zipIdx.foldl (fun a p => a + (if p.1 then 2 ^ p.2 else 0)) 0))

/-- A decoded block without its tail, de-whitened (R86). -/
def dewhiten (bits : List Bool) : Bytes :=
  let hdr := bytesLsb (whitenBits 511 (bits.take 64)).1
  hdr ++ bytesLsb (whitenBits (nodeSeed (leAt hdr 0 4)) ((bits.drop 64).take (bits.length - 70))).1

/-- The block that soft values of a mode decode to, for a payload of len bytes (R175). -/
def decodeSoft (mode len : Nat) (soft : List Int) : Bytes :=
  let (pa, pb) := puncture mode
  dewhiten (viterbi (depuncture pa pb (blockBits len) 0 soft))

/-! ## A copy as a task reads it (R164, R167, R170, R175) -/

/-- How the samples of a copy lie in time: their rate, the symbol rate, and the reference instant in ns from the first of them. -/
structure SampleGrid where
  rate : Nat
  rs : Nat
  timing : Int

/-- The first sample at or after the start of symbol s. -/
def SampleGrid.at_ (g : SampleGrid) (s : Nat) : Nat :=
  let num : Int := (g.timing * (g.rs : Int) + ((s * 1000000000 : Nat) : Int)) * (g.rate : Int)
  let den : Int := ((1000000000 * g.rs : Nat) : Int)
  ((num + den - 1) / den).toNat

/-- The samples of the symbols from s0 up to s1. -/
def SampleGrid.span (g : SampleGrid) (s0 s1 : Nat) : List Nat := (List.range (g.at_ s1 - g.at_ s0)).map (fun i => g.at_ s0 + i)

/-- The place of sample j within the burst, in symbols from its reference instant. -/
def SampleGrid.symbolOf (g : SampleGrid) (j : Nat) : Rat :=
  ((j * 1000000000 : Nat) - g.timing * (g.rate : Int) : Int) * (g.rs : Nat) / ((1000000000 * g.rate : Nat) : Rat)

/-- The on-air symbol of data symbol m (R73, R92). -/
def airSymbol (pilot : Bool) (m : Nat) : Nat := 60 + m + (if pilot then 4 * (m / 32) else 0)

/-- The soft values of n coded bits as sent: a bit whose symbol contains a sample that was not received is an erasure (R176). -/
def softBits (g : SampleGrid) (get : Nat → IQ) (four pilot : Bool) (n : Nat) (llr : List Int) : List Int :=
  (List.range n).map (fun j =>
    let s := airSymbol pilot (if four then j / 2 else j)
    if (g.span s (s + 1)).any (fun q => get q == notRx) then 0 else softOf (llr.getD j 0))

/-- A copy's soft values, de-interleaved and merged (R175, steps 4). -/
def copySoft (g : SampleGrid) (get : Nat → IQ) (mode : Nat) (pilot : Bool) (len : Nat) (llr : List Int) : List Int :=
  let n := codedBits mode (blockBits len)
  mergeReps mode (deinterleave n (softBits g get (modeFour mode) pilot n llr))

/-! ## The training block (R180 to R182) -/

/-- The levels of a burst's symbols up to the end of the training block, then those decided after it. -/
def burstLevels (mode w : Nat) (decided : List Int) : List Int :=
  let alt (n : Nat) : List Bool := (List.range n).map (fun i => i % 2 == 0)
  (alt 20 ++ (List.range 24).map (fun i => w.testBit i) ++ (List.range 16).map (fun i => (0x0F35 : Nat).testBit i)).map
    (fun b => symbolLevel (modeFour mode) (oneBitSymbol mode b)) ++ decided

/-- The phase of a burst at a place in symbols, in turns from the centre of the first training symbol on: its deviation summed up, with the pulse of R71. -/
def burstPhase (mode : Nat) (levels : List Int) (x : Rat) : Rat :=
  let dev (u : Nat) : Rat := deviation (modeFd mode) levels gaussianTable u
  let turns (y : Rat) : Rat :=
    let u := (16 * y).floor.toNat
    (((List.range (u - 704)).foldl (fun (a : Rat) v => a + dev (704 + v)) 0) + dev u * (16 * y - (u : Nat))) / (16 * modeRate mode : Nat)
  turns x - turns (89 / 2)

/-- The ideal received waveform at a place in symbols, at a frequency in Hz from the samples' own centre, in units of 2^-60 (R181). -/
def idealSample (mode : Nat) (levels : List Int) (hz : Int) (x : Rat) : Int × Int :=
  let turns : Rat := burstPhase mode levels x + (hz : Rat) * (x - 89 / 2) / (modeRate mode : Nat)
  turn60 ((turns * (2 ^ 32 : Nat)).floor % 2 ^ 32).toNat (2 ^ 32)

/-- What the training block gives (R181): the fitted gain, and the two energies of the SNR. -/
structure TrainFit where
  gain : CQ
  signal : Rat
  residual : Rat

/-- The one-tap fit of the training block's samples to the ideal waveform (R181). -/
def fitTraining (ys : List (IQ × (Int × Int))) : TrainFit :=
  let sum (f : IQ × (Int × Int) → Rat) : Rat := ys.foldl (fun (a : Rat) p => a + f p) 0
  let sr (p : IQ × (Int × Int)) : Rat := (p.2.1 : Rat) / (2 ^ 60 : Nat)
  let si (p : IQ × (Int × Int)) : Rat := (p.2.2 : Rat) / (2 ^ 60 : Nat)
  let e := sum (fun p => sr p * sr p + si p * si p)
  let h : CQ := if e = 0 then (0, 0) else
    (sum (fun p => p.1.1 * sr p + p.1.2 * si p) / e, sum (fun p => p.1.2 * sr p - p.1.1 * si p) / e)
  let dr (p : IQ × (Int × Int)) : Rat := p.1.1 - (h.1 * sr p - h.2 * si p)
  let di (p : IQ × (Int × Int)) : Rat := p.1.2 - (h.1 * si p + h.2 * sr p)
  { gain := h
    signal := (h.1 * h.1 + h.2 * h.2) * e
    residual := sum (fun p => dr p * dr p + di p * di p) }

/-- The tap magnitude (R183). -/
def tapMagOf (h : CQ) : Nat := min 65535 ((Nat.sqrt (4 * (h.1 * h.1 + h.2 * h.2)).floor.toNat + 1) / 2)

/-- The tap phase: arg h in units of 1/65,536 turn, to the nearest (R183). -/
def tapPhaseOf (h : CQ) : Nat :=
  -- the n whose unit's edges, half a unit either side, enclose the gain's direction
  let edge (n : Nat) : Int × Int := turn60 ((2 * n + 131071) % 131072) 131072
  let left (b : Int × Int) : Rat := b.1 * h.2 - b.2 * h.1
  ((List.range 65536).find? (fun n => decide (0 ≤ left (edge n)) && decide (left (edge (n + 1)) < 0))).getD 0

/-- The mean square of the deviation error relative to fd over the first n symbols from the training block on (R182): the frequencies found at the symbols'
centres, in units of 2^-8 Hz from the group's nominal centre, less the refined centre and the ideal deviation there. -/
def devError (mode n : Nat) (levels freqs : List Int) (centre : Int) : Rat :=
  let dev (u : Nat) : Rat := deviation (modeFd mode) levels gaussianTable u
  let err (m : Nat) : Rat := (freqs.getD m 0 : Rat) / (256 : Nat) - centre - (dev (16 * (44 + m) + 7) + dev (16 * (44 + m) + 8)) / 2
  (List.range n).foldl (fun (a : Rat) m => a + err m * err m) 0 / ((n * modeFd mode * modeFd mode : Nat) : Rat)

end Sys2Proof.Machine
end

