-- ==== Sys2Proof/Machine/Mar.lean ====
section
/-! DEFINITION. The Marionette cores' engine: registers and banks, the exposed pipeline, bundles and their traps, memories, I/O registers, loops,
branches, interrupts and the transfer unit (10_marionette_model.md, R254 to R281; 11_marionette_instructions.md, R282 to R286). -/

namespace Sys2Proof.Machine

open Sys2Proof

/-! ## Registers (R254, R275) -/

/-- Keys of the register file. -/
def keyP (n : Nat) : Nat := 16 + n
def keyM (n : Nat) : Nat := 24 + n
def keyLC (n : Nat) : Nat := 32 + n
def keySR : Nat := 34
def keyRPC : Nat := 35
def keyACC (n : Nat) : Nat := 40 + n

/-- The registers the shadow bank holds its own copy of: D8 to D15, P6, P7, M6, M7, SR, ACC2 and ACC3 (R275). -/
def shadowed (key : Nat) : Bool :=
  (decide (8 ≤ key) && decide (key < 16)) || key == 22 || key == 23 || key == 30 || key == 31 || key == 34 || key == 42 || key == 43

/-- The key of a register in the bank in use. -/
def Core.bank (k : Core) (key : Nat) : Nat := if k.shadow && shadowed key then key + 64 else key

/-- The value a bundle reads from a register. -/
def Core.reg (k : Core) (key : Nat) : BitVec 40 := smGet (fun _ => 0) k.regs (k.bank key)

def Core.nat (k : Core) (key : Nat) : Nat := (k.reg key).toNat
def Core.dw (k : Core) (n : Nat) : Nat := k.nat n % 2 ^ 32
def Core.half (k : Core) (n : Nat) (high : Bool) : Nat := if high then k.dw n / 65536 else k.dw n % 65536
def Core.acc (k : Core) (n : Nat) : Int := sext 40 (k.nat (keyACC n))
def Core.ptr (k : Core) (n : Nat) : Nat := k.nat (keyP n) % 2 ^ 20
def Core.mod_ (k : Core) (n : Nat) : Int := sext 20 (k.nat (keyM n))

/-- SR as a bundle reads it: its bank bit shows the bank in use (R254). -/
def Core.sr (k : Core) : Nat := k.nat keySR % 65536 + bitOf k.shadow * 2 ^ 14
def Core.srScale (k : Core) : Int := sext 4 (k.sr / 256)

/-- A write of a register by the bundle at the front, seen delay bundles later (R261). -/
def Core.write (k : Core) (delay key : Nat) (v : MVal) : Core :=
  { k with pipe := k.pipe ++ [⟨k.count + delay, k.bank key, v⟩] }

def Core.writeFull (k : Core) (delay key v : Nat) : Core := k.write delay key (.full (BitVec.ofNat 40 v))
def Core.writeInt (k : Core) (delay key : Nat) (v : Int) : Core := k.write delay key (.full (BitVec.ofInt 40 v))
def Core.writeHalf (k : Core) (delay key : Nat) (high : Bool) (v : Nat) : Core := k.write delay key (.half high (BitVec.ofNat 16 v))
def Core.writeFlags (k : Core) (nz : Option (Bool × Bool)) (sat aov : Bool) : Core := k.write 1 keySR (.srFlags nz sat aov)

/-- A register's value after a write of the pipeline lands (R285, R289). -/
def MVal.land (old : BitVec 40) : MVal → BitVec 40
  | .full v => v
  | .half high v =>
    let o := old.toNat % 2 ^ 32
    BitVec.ofNat 40 (if high then v.toNat * 65536 + o % 65536 else o / 65536 * 65536 + v.toNat)
  | .srMove v => (old &&& 0x70F3) ||| (v.zeroExtend 40 &&& 0x8F0C)
  | .srFlags nz sat aov =>
    let o := match nz with
      | some (n, z) => (old &&& 0xFFFC) ||| BitVec.ofNat 40 (bitOf n * 2 + bitOf z)
      | none => old
    o ||| BitVec.ofNat 40 (bitOf aov * 8 + bitOf sat * 4)

/-- The writes land that the bundle at the front sees, oldest first (R261, R285). -/
def Core.landed (k : Core) : Core :=
  let due := k.pipe.filter (fun w => decide (w.due ≤ k.count))
  { k with
    regs := due.foldl (fun m w => smSet (fun _ => 0) m w.key (w.val.land (smGet (fun _ => 0) m w.key))) k.regs
    pipe := k.pipe.filter (fun w => !decide (w.due ≤ k.count)) }

/-- Every write still in the pipeline lands (R303). -/
def Core.drained (k : Core) : Core :=
  { k with
    regs := k.pipe.foldl (fun m w => smSet (fun _ => 0) m w.key (w.val.land (smGet (fun _ => 0) m w.key))) k.regs
    pipe := [] }

/-! ## The bundle at pc (R282) -/

/-- The C slot, and the X and Y slots, of the bundle at pc. -/
def Core.cWord (k : Core) : Nat := (smGet (fun _ => 0) k.imem (2 * k.pc + 1)).toNat
def Core.xWord (k : Core) : Nat := (smGet (fun _ => 0) k.imem (2 * k.pc)).toNat / 65536
def Core.yWord (k : Core) : Nat := (smGet (fun _ => 0) k.imem (2 * k.pc)).toNat % 65536

/-- The word of the next slot, and its opcode (R287, R293). -/
def Core.slotWord (k : Core) : Nat := if k.slot = 0 then k.cWord else if k.slot = 1 then k.xWord else k.yWord
def Core.slotOp (k : Core) : Nat := if k.slot = 0 then k.cWord / 2 ^ 26 else k.slotWord / 2 ^ 12

/-- Fields of the C slot's formats (R293). -/
def cD (w : Nat) : Nat := bitsOf 25 22 w
def cA (w : Nat) : Nat := bitsOf 21 18 w
def cB (w : Nat) : Nat := bitsOf 17 14 w

/-- Fields of the X and Y slots' format (R287). -/
def xR (w : Nat) : Nat := bitsOf 11 8 w
def xP (w : Nat) : Nat := bitsOf 7 5 w
def xH (w : Nat) : Bool := w.testBit 4
def xK (w : Nat) : Bool := w.testBit 3
def xM (w : Nat) : Nat := w % 8

/-- The C slot obeys the encodings (R283, R293 to R302). -/
def cLegal (w : Nat) : Bool :=
  match w / 2 ^ 26 with
  | 0x00 => w == 0
  | 0x01 | 0x02 | 0x03 | 0x04 | 0x05 | 0x06 | 0x07 => w % 2 ^ 14 == 0
  | 0x08 => cB w == 0 && bitsOf 11 5 w == 0 && (decide (bitsOf 13 12 w < 2) || decide (w % 32 ≤ 15))
  | 0x09 => w % 2 ^ 14 == 0 && cD w == 0
  | 0x0A => bitsOf 19 16 w == 0
  | 0x0B => bitsOf 21 20 w == 0
  | 0x10 => w % 2 ^ 12 == 0
  | 0x11 => w % 2 ^ 12 == 0 && bitsOf 15 14 w == 0
  | 0x12 => w % 2 ^ 12 == 0 && bitsOf 15 14 w == 0 && !w.testBit 24
  | 0x13 => w % 2 ^ 13 == 0
  | 0x14 => w % 2 ^ 20 == 0 && (bitsOf 21 20 w == 1 || bitsOf 21 20 w == 2 || bitsOf 23 22 w == 0)
  | 0x15 => bitsOf 17 8 w == 0 && (if w.testBit 23 then w % 256 == 0 else bitsOf 22 18 w == 0)
  | 0x16 => w % 2 ^ 12 == 0 && (if w.testBit 19 then bitsOf 18 14 w == 0 else bitsOf 13 12 w == 0)
  | 0x17 => w % 2 ^ 9 == 0 && cD w != bitsOf 13 10 w
  | 0x20 => bitsOf 21 13 w == 0 && decide (cD w ≤ 8)
  | 0x21 => bitsOf 21 13 w == 0
  | 0x22 => w % 2 ^ 22 == 0
  | 0x23 | 0x25 => w % 2 ^ 26 == 0
  | 0x24 => bitsOf 18 16 w == 0 && (!w.testBit 25 || w % 2 ^ 11 == 0)
  | _ => false

/-- A modifier that leaves the pointer as it is: the immediate 0 (R286). -/
def xStill (w : Nat) : Bool := xK w && xM w == 0

/-- An X or Y slot obeys the encodings (R283, R287 to R292). -/
def xLegal (shadow : Bool) (w : Nat) : Bool :=
  match w / 2 ^ 12 with
  | 0x0 => w == 0
  | 0x1 | 0x3 | 0x6 => !xH w
  | 0x2 | 0x4 => true
  | 0x5 => !xH w && (w.testBit 11 || bitsOf 10 8 w != xP w || xStill w)
  | 0x7 => decide (bitsOf 11 6 w ≤ 35) && decide (w % 64 ≤ 35) && (shadow || (bitsOf 11 6 w != 35 && w % 64 != 35))
  | 0x8 | 0x9 => w % 16 == 0 && bitsOf 5 4 w != 3
  | 0xA => xR w == 0 && !xH w
  | 0xB => true
  | _ => false

/-- The registers a C slot writes; a REP writes the counter of the level it opens, where there is one left (R286, R270). -/
def cWrites (level w : Nat) : List Nat :=
  match w / 2 ^ 26 with
  | 0x01 | 0x02 | 0x03 | 0x04 | 0x05 | 0x06 | 0x07 | 0x08 => [cD w, keySR]
  | 0x09 => [keySR]
  | 0x0A => [cD w]
  | 0x0B => [(if w.testBit 25 then keyM else keyP) (bitsOf 24 22 w)]
  | 0x10 | 0x11 => [keyACC (bitsOf 25 24 w), keySR]
  | 0x12 => [keyACC (bitsOf 25 24 w), keyACC (bitsOf 25 24 w + 1), keySR]
  | 0x13 => [cD w, keySR]
  | 0x14 | 0x15 => [keyACC (bitsOf 25 24 w), keySR]
  | 0x16 => [cD w]
  | 0x17 => [cD w, bitsOf 13 10 w, keySR]
  | 0x21 => [cD w]
  | 0x24 => if level < 2 then [keyLC level] else []
  | _ => []

/-- A P or M target as LDP, STP and LDIM name it. -/
def xPM (w : Nat) : Nat := (if w.testBit 11 then keyM else keyP) (bitsOf 10 8 w)

/-- The key of a MOV's register code (R290). -/
def movKey (code : Nat) : Nat := code

/-- The registers an X or Y slot writes (R286). -/
def xWrites (w : Nat) : List Nat :=
  let ptr := if xStill w then [] else [keyP (xP w)]
  match w / 2 ^ 12 with
  | 0x1 | 0x2 => xR w :: ptr
  | 0x3 | 0x4 | 0x6 | 0xA => ptr
  | 0x5 => xPM w :: ptr
  | 0x7 => [movKey (bitsOf 11 6 w)]
  | 0x8 => [xR w]
  | 0x9 => [keyACC (bitsOf 7 6 w)]
  | 0xB => [xPM w]
  | _ => []

/-- Two entries of a list agree. -/
def hasRepeat : List Nat → Bool
  | [] => false
  | x :: rest => rest.contains x || hasRepeat rest

/-! ## Memory accesses (R257, R258) -/

/-- The size of an X or Y operation's access; 0 where it makes none. -/
def xSize (w : Nat) : Nat :=
  match w / 2 ^ 12 with
  | 0x1 | 0x3 | 0x5 | 0x6 => 4
  | 0x2 | 0x4 => 2
  | _ => 0

/-- An X or Y operation stores. -/
def xStores (w : Nat) : Bool := w / 2 ^ 12 == 3 || w / 2 ^ 12 == 4 || w / 2 ^ 12 == 6

/-- The regions of the data address space. -/
def inIo (a : Nat) : Bool := decide (0x21000 ≤ a) && decide (a < 0x21100)
def inCip (a : Nat) : Bool := decide (0x22000 ≤ a) && decide (a < 0x23000)
def inShared (a : Nat) : Bool := decide (0x80000 ≤ a)
def inMailbox (a : Nat) : Bool := decide (0x20000 ≤ a) && decide (a < 0x20040)
def inLocal (a : Nat) : Bool := decide (a < 0x20000) || (decide (0x20400 ≤ a) && decide (a < 0x20800))

/-- The word an X or Y store writes. -/
def Core.storeValue (k : Core) (w : Nat) : Nat :=
  match w / 2 ^ 12 with
  | 0x3 => k.dw (xR w)
  | 0x4 => k.half (xR w) (xH w)
  | _ => if w.testBit 11 then wrapNat 32 (k.mod_ (bitsOf 10 8 w)) else k.ptr (bitsOf 10 8 w)

/-- The length field of the output buffer's record, with the store of an X slot in it (R284, R281). -/
def Core.recLengthWith (k : Core) (x : Nat) : Nat :=
  let k := if xStores x && inLocal (k.ptr (xP x)) then k.store (k.ptr (xP x)) (toLE (xSize x) (k.storeValue x)) else k
  leAt (k.bytesAt 0x20400 64) 60 2

/-- A word written to CORE_DONE is a valid completion for a kind of task (R281). -/
def doneValid (kind v len : Nat) : Bool :=
  match v / 2 ^ 28 with
  | 1 => decide (kind ≤ 2) && decide (len ≤ 255)
  | 2 | 3 => decide (3 ≤ kind)
  | _ => false

/-- The traps of an X or Y slot's access: 3 misaligned, 4 unmapped, 7 invalid completion (R257, R258, R276, R288). -/
def Core.accessTraps (k : Core) (kind x w : Nat) : List Nat :=
  let n := xSize w
  if n = 0 then []
  else
    let a := k.ptr (xP w)
    let mis := a % n != 0 || (n == 2 && (inIo a || inCip a))
    let mapped := inLocal a || inIo a || inCip a || inShared a || (inMailbox a && !xStores w)
    let bad := a == 0x21000 && n == 4 && xStores w && !doneValid kind (k.storeValue w) (k.recLengthWith x)
    (if mis then [3] else []) ++ (if mapped then [] else [4]) ++ (if bad then [7] else [])

/-- The bundle at pc is a delay slot of a branch, taken or not (R262). -/
def Core.inDelay (k : Core) : Bool := k.branch.isSome || k.delay != 0

/-- The control-flow violations of a bundle (R262, R270, R271, R300). -/
def Core.flowTrap (k : Core) : Bool :=
  let w := k.cWord
  let op := w / 2 ^ 26
  let control := decide (0x20 ≤ op) && decide (op ≤ 0x24)
  let jump := decide (0x20 ≤ op) && decide (op ≤ 0x23)
  let len := bitsOf 24 19 w + 1
  let outside := match k.loops with
    | [] => false
    | l :: _ => decide (l.last < k.pc + len)
  let lcWrite (x : Nat) : Bool := x / 2 ^ 12 == 7 &&
    ((bitsOf 11 6 x == 32 && decide (1 ≤ k.loops.length)) || (bitsOf 11 6 x == 33 && decide (2 ≤ k.loops.length)))
  (control && k.inDelay) || (jump && !k.loops.isEmpty) || (op == 0x24 && (decide (2 ≤ k.loops.length) || outside))
    || (op == 0x23 && !k.shadow) || lcWrite k.xWord || lcWrite k.yWord

/-- The causes for which the bundle at pc traps (R276, R283). -/
def Core.traps (k : Core) (kind : Nat) : List Nat :=
  let x := k.xWord
  let y := k.yWord
  if !(cLegal k.cWord && xLegal k.shadow x && xLegal k.shadow y) then [1]
  else
    (if hasRepeat (cWrites k.loops.length k.cWord ++ xWrites x ++ xWrites y) then [2] else [])
      ++ k.accessTraps kind 0 x ++ k.accessTraps kind x y
      ++ (if k.flowTrap then [5] else []) ++ (if k.cWord / 2 ^ 26 = 0x25 then [8] else [])

/-! ## Time, traps and interrupts -/

/-- Cycles pass on a core: CORE_CYCLES counts them, and CORE_TIMER counts down and sets source 4 when it reaches 0 (R246, R259, R273). -/
def Dev.coreTick (d : Dev) (c n : Nat) : Dev :=
  let d := d.setWord (R.CORE_CYCLES c) (d.word (R.CORE_CYCLES c) + BitVec.ofNat 32 n)
  let t := d.get (R.CORE_TIMER c) F.CORE_TIMER_count
  if t = 0 then d
  else if t ≤ n then (d.setWord (R.CORE_TIMER c) 0).irq c 4
  else d.setWord (R.CORE_TIMER c) (BitVec.ofNat 32 (t - n))

/-- A core traps (R276, R303): it stops, earlier writes complete, the cause is recorded, event 37 is raised, and the Puppeteer has a fault to take. -/
def Dev.coreTrap (d : Dev) (c cause : Nat) : Dev :=
  let k := d.mcore c
  let d := d.setMcore c { k.drained with running := false, stopped := true, stores := [] }
  let d := d.setPcore c { d.pcore c with fault := 3 }
  (d.setWord (R.MAR_TRAP (coreDie c) (c % 32)) (BitVec.ofNat 32 (cause * 2 ^ 28 + k.pc))).raise 37 c cause

/-- One of several causes: the spec does not say which is recorded. -/
def Dev.trapAmong (d : Dev) (c : Nat) (causes : List Nat) : Dev :=
  match causes with
  | [] => d
  | [x] => d.coreTrap c x
  | x :: _ =>
    let (v, d) := d.takeWord
    d.coreTrap c (causes.getD (v.toNat % causes.length) x)

/-- The kind of the task a core runs. -/
def Dev.coreKind (d : Dev) (c : Nat) : Nat := (((d.pcore c).run.bind d.task).map (·.kind)).getD 0

/-- A core executes: its die runs, a task runs on it, and it has not stopped. -/
def Dev.coreRuns (d : Dev) (c : Nat) : Bool :=
  d.coreDieUp c && (d.mcore c).running && !(d.mcore c).stopped && (d.pcore c).fault == 0

/-- The interrupt source the core takes at the boundary before the bundle at pc (R274). -/
def Dev.interruptDue (d : Dev) (c : Nat) : Option Nat :=
  let k := (d.mcore c).landed
  let both := d.get (R.CORE_IRQ_PEND c) F.CORE_IRQ_PEND_pend &&& d.get (R.CORE_IRQ_EN c) F.CORE_IRQ_EN_en
  if k.slot = 0 && k.sr.testBit 15 && !k.shadow && decide (k.clear ≤ k.count) && !k.inDelay && k.loops.isEmpty then lowestBit 8 both
  else none

/-- The core takes an interrupt: it switches to the shadow bank in one cycle (R274, R275). -/
def Dev.interruptTake (d : Dev) (c : Nat) : Dev :=
  if !d.coreRuns c || (d.pcore c).done.isSome then d
  else match d.interruptDue c with
    | none => d
    | some s =>
      let k := (d.mcore c).landed
      (d.setMcore c { k with
        shadow := true
        regs := smSet (fun _ => 0) k.regs keyRPC (BitVec.ofNat 40 k.pc)
        pc := d.get (R.CORE_IRQ_VEC c s) F.CORE_IRQ_VEC_vec }).coreTick c 1

/-! ## The transfer unit (R277) -/

/-- Bytes of a die's shared SRAM, and the device with bytes written there. -/
def Dev.sharedRead (d : Dev) (die off n : Nat) : Bytes :=
  (List.range n).map (fun i => (d.word (0x102000000 + die * 0x400000 + (off + i) / 4 * 4)).extractLsb' (8 * ((off + i) % 4)) 8)
def Dev.wordByte (d : Dev) (a i : Nat) (b : Byte) : Dev :=
  let w := toLE 4 (d.word a).toNat
  d.setWord a (BitVec.ofNat 32 (ofLE (w.set i b)))
def Dev.sharedWrite (d : Dev) (die off : Nat) (bs : Bytes) : Dev :=
  (bs.zipIdx).foldl (fun d p => d.wordByte (0x102000000 + die * 0x400000 + (off + p.2) / 4 * 4) ((off + p.2) % 4) p.1) d

/-- Bytes written to a radio's transmit descriptor memory. -/
def Dev.descWrite (d : Dev) (r off : Nat) (bs : Bytes) : Dev :=
  (bs.zipIdx).foldl (fun d p => d.wordByte (R.KAL_TXDESC r ((off + p.2) / 4)) ((off + p.2) % 4) p.1) d

/-- A write to CORE_TRU_CTRL enqueues a transfer; while eight are queued it waits, and the core stalls with it. -/
def Dev.truEnqueue (d : Dev) (c : Nat) (w : Word) : Dev :=
  let k := d.mcore c
  let t : Transfer := ⟨w.toNat &&& 0xE001FFFF, (d.word (R.CORE_TRU_EXT c)).toNat, (d.word (R.CORE_TRU_LOC c)).toNat⟩
  d.setMcore c (if 8 ≤ k.tru.length then { k with truWait := some t } else { k with tru := k.tru ++ [t] })

def Transfer.length (t : Transfer) : Nat := t.ctrl % 2 ^ 17
def Transfer.space (t : Transfer) : Nat := bitsOf 30 29 t.ctrl
def Transfer.toExt (t : Transfer) : Bool := t.ctrl.testBit 31

/-- The error a transfer ends with: 1 length, 2 address out of its space, 4 space or direction; 0 none. -/
def Dev.truError (d : Dev) (t : Transfer) : Nat :=
  let n := t.length
  let ext := match t.space with
    | 0 => d.dramOk t.ext n
    | 1 => decide (t.ext + n ≤ 0x400000)
    | _ => decide (bitsOf 17 16 t.ext < 3) && decide (t.ext % 2 ^ 15 + n ≤ 0x8000)
  if n = 0 || 65536 < n || n % 4 != 0 then 1
  else if t.space = 3 || (t.space = 2 && !t.toExt) then 4
  else if !ext || t.loc % 4 != 0 || !coreRange t.loc n then 2
  else 0

/-- The data a transfer brings from its external space; words marked uncorrectable read 0. -/
def Dev.truFetch (d : Dev) (die : Nat) (t : Transfer) : Bytes :=
  if t.space = 0 then
    (List.range t.length).map (fun i => if d.drc.poison.contains ((t.ext + i) / 8) then 0 else d.dramByte (t.ext + i))
  else d.sharedRead die t.ext t.length

/-- The oldest transfer leaves the queue; one that waited for room joins it, and the core goes on. -/
def Core.truPop (k : Core) : Core := { k with tru := k.tru.drop 1 ++ k.truWait.toList, truWait := none }

/-- The oldest transfer ends (R277). -/
def Dev.truComplete (d : Dev) (c : Nat) : Dev :=
  let k := d.mcore c
  match k.tru with
  | [] => d
  | t :: _ =>
    if !d.coreDieUp c then d
    else
      let d := d.setMcore c k.truPop
      let d := d.put (R.CORE_TRU_STATUS c) F.CORE_TRU_STATUS_done (d.get (R.CORE_TRU_STATUS c) F.CORE_TRU_STATUS_done + 1)
      let fail (d : Dev) (e : Nat) : Dev := (d.put (R.CORE_TRU_STATUS c) F.CORE_TRU_STATUS_last_err e).irq c 1
      let e := d.truError t
      if e != 0 then fail d e
      else if t.toExt then
        let bs := k.bytesAt t.loc t.length
        let d := match t.space with
          | 0 => d.dramWrite t.ext bs
          | 1 => d.sharedWrite (coreDie c) t.ext bs
          | _ => d.descWrite (bitsOf 17 16 t.ext) (t.ext % 2 ^ 15) bs
        d.irq c 0
      else
        let d' := d.setMcore c ((d.mcore c).store t.loc (d.truFetch (coreDie c) t))
        if t.space = 0 && d.cleanBytes t.ext t.length < t.length then fail d' 3 else d'.irq c 0

/-! ## Core I/O registers and the cipher job window -/

/-- A write to CORE_DOORBELL sets source 5 of another core of the die (R273). -/
def Dev.doorbell (d : Dev) (c target : Nat) : Dev := d.irq (c / 32 * 32 + target % 32) 5

/-- The payload and the transmission that a write to CORE_DONE hands over (R280, R281). -/
def Dev.doneOut (d : Dev) (c v : Nat) : TaskOut :=
  let k := d.mcore c
  match v / 2 ^ 28 with
  | 1 =>
    let r := k.bytesAt 0x20400 64
    .record r (k.bytesAt 0x20440 (recLength r)) none
  | 2 => .ready (v % 1024) d.nt
  | _ => .none

/-- A word written to CORE_DONE ends the task (R281); an invalid completion traps with cause 7. -/
def Dev.coreDone (d : Dev) (c v : Nat) : Dev :=
  let k := (d.mcore c).stores.foldl (fun k s => k.store s.1 s.2) (d.mcore c)
  if doneValid (d.coreKind c) v (leAt (k.bytesAt 0x20400 64) 60 2) then d.taskEnds c (d.doneOut c v) else d.coreTrap c 7

/-- A word written to a core I/O register by its core; false where the core stalls. -/
def Dev.ioWrite (d : Dev) (c off : Nat) (w : Word) : Dev × Bool :=
  let v := w.toNat
  if off = 0x00 then (d.coreDone c v, true)
  else if off = 0x08 then (d.put (R.CORE_SEG c) F.CORE_SEG_seg v, true)
  else if off = 0x10 then (d.setWord (R.CORE_IRQ_PEND c) (d.word (R.CORE_IRQ_PEND c) &&& ~~~w), true)
  else if off = 0x14 then (d.put (R.CORE_IRQ_EN c) F.CORE_IRQ_EN_en v, true)
  else if off = 0x18 then (if w.getLsbD 7 then d.irq c 7 else d, true)
  else if off = 0x1C then (d.setWord (R.CORE_TIMER c) w, true)
  else if 0x20 ≤ off && off < 0x40 then (d.put (R.CORE_IRQ_VEC c (off / 4 - 8)) F.CORE_IRQ_VEC_vec v, true)
  else if off = 0x40 then (d.setWord (R.CORE_TRU_EXT c) w, true)
  else if off = 0x44 then (d.put (R.CORE_TRU_LOC c) F.CORE_TRU_LOC_loc v, true)
  else if off = 0x48 then (d.truEnqueue c w, true)
  else if off = 0x50 then (d.doorbell c v, true)
  else (d, true)

/-- A core I/O register as its core reads it; a register that cannot be read, or an offset without one, reads 0. -/
def Dev.ioRead (d : Dev) (c off : Nat) : Word :=
  if off = 0x04 then BitVec.ofNat 32 c
  else if off = 0x4C then
    BitVec.ofNat 32 ((d.mcore c).tru.length * 2 ^ 28 + (d.word (R.CORE_TRU_STATUS c)).toNat % 2 ^ 28)
  else if off = 0x00 || off = 0x18 || off = 0x48 || 0x50 ≤ off then 0
  else d.word (0x104000000 + 0x1000 * c + off)

/-- The bits a word of the descriptor staging area holds: those shown as "—" read 0 (R375, R11). -/
def stageMask (off : Nat) : Word := if off = 0 then 0xFCFFFFFF else if off = 0x14 then 7 else 0xFFFFFFFF

/-- A word written to the cipher job window (R375, R379); false where the core stalls. -/
def Dev.cipWinWrite (d : Dev) (c off : Nat) (w : Word) : Dev × Bool :=
  if off < 0x28 then (d.setWord (0x105000000 + 0x1000 * c + off) (w &&& stageMask off), true)
  else if off = 0x40 then d.cipSubmit c
  else if 0x800 ≤ off && off < 0x840 then
    if off = 0x800 || d.strMay c then d.strWrite c (off - 0x800) w else (d, true)
  else (d, true)

/-- A word read from the cipher job window; none where the core stalls. -/
def Dev.cipWinRead (d : Dev) (c off : Nat) : Dev × Option Word :=
  if off < 0x28 then (d, some (d.word (0x105000000 + 0x1000 * c + off)))
  else if off = 0x44 then
    let d' := d.readCjResult c
    ({ d' with rdata := d.rdata }, some d'.rdata)
  else if 0x800 ≤ off && off < 0x840 then
    if off = 0x800 || d.strMay c then d.strRead (off - 0x800) else (d, some 0)
  else (d, some 0)

/-! ## Loads and stores -/

/-- The byte offset in the die's shared SRAM that a core address reaches (R257). -/
def Dev.segAddr (d : Dev) (c a : Nat) : Nat := d.get (R.CORE_SEG c) F.CORE_SEG_seg * 0x80000 + (a - 0x80000)

/-- A stall whose cycles the spec bounds by 40, of one shared SRAM access (R259). -/
def Dev.sharedStall (d : Dev) (c : Nat) : Dev :=
  let (v, d) := d.takeWord
  d.coreTick c (v.toNat % 41)

/-- A stall whose cycles the spec does not bound (R259). -/
def Dev.openStall (d : Dev) (c : Nat) : Dev :=
  let (v, d) := d.takeWord
  d.coreTick c v.toNat

/-- What a load of n bytes at an address brings; none where the core stalls (R257 to R260). -/
def Dev.coreLoad_ (d : Dev) (c a n : Nat) : Dev × Option Nat :=
  let k := d.mcore c
  if inMailbox a then (d, some (leAt k.mailbox (a - 0x20000) n))
  else if inLocal a then (d, some (ofLE (k.bytesAt a n)))
  else if inIo a then ((d.openStall c), some (k.early.getD (d.ioRead c (a - 0x21000)).toNat))
  else if inCip a then
    match d.cipWinRead c (a - 0x22000) with
    | (d', some w) => (d'.openStall c, some (k.early.getD w.toNat))
    | (_, none) => (d, none)
  else (d.sharedStall c, some (k.early.getD (ofLE (d.sharedRead (coreDie c) (d.segAddr c a) n))))

/-- The value held at an address outside the core's own memories, as a load of n bytes would bring it now. -/
def Dev.heldAt (d : Dev) (c a n : Nat) : Option Nat :=
  if inShared a then some (ofLE (d.sharedRead (coreDie c) (d.segAddr c a) n))
  else if inIo a then some (d.ioRead c (a - 0x21000)).toNat
  else if inCip a then (d.cipWinRead c (a - 0x22000)).2.map (·.toNat)
  else none

/-- The value that a load in slot Y brings from a word, outside the core's own memories, which slot X stores to: the one held before the store (R260). -/
def Dev.earlyLoad (d : Dev) (c a : Nat) : Option Nat :=
  let k := d.mcore c
  let y := k.yWord
  let b := k.ptr (xP y)
  if k.slot = 1 && xSize y != 0 && !xStores y && a / 4 == b / 4 then d.heldAt c b (xSize y) else none

/-- A store of bytes: to the core's own memories at the bundle's end, elsewhere at once; false where the core stalls (R259, R260, R284). -/
def Dev.coreStore (d : Dev) (c a : Nat) (bs : Bytes) : Dev × Bool :=
  let k := d.mcore c
  if inLocal a then (d.setMcore c { k with stores := k.stores ++ [(a, bs)] }, true)
  else
    let e := d.setMcore c { k with early := d.earlyLoad c a }
    if inIo a then
      match e.ioWrite c (a - 0x21000) (BitVec.ofNat 32 (ofLE bs)) with
      | (d', true) => (d'.openStall c, true)
      | (_, false) => (d, false)
    else if inCip a then
      match e.cipWinWrite c (a - 0x22000) (BitVec.ofNat 32 (ofLE bs)) with
      | (d', true) => (d'.openStall c, true)
      | (_, false) => (d, false)
    else ((e.sharedWrite (coreDie c) (d.segAddr c a) bs).sharedStall c, true)

/-! ## The bundle's course -/

/-- The counters of loops whose last bundle starts (R271): the inner one first, the outer one only in the inner one's final iteration. -/
def Core.countLoops (k : Core) : List MLoop → Core
  | [] => k
  | l :: rest =>
    if k.pc = l.last then
      let key := keyLC rest.length
      let v := (smGet (fun _ => 0) k.regs key).toNat - 1
      let k := { k with regs := smSet (fun _ => 0) k.regs key (BitVec.ofNat 40 v) }
      if v = 0 then k.countLoops rest else k
    else k

/-- Where execution goes on after the bundle at pc, and the loops still running (R270). -/
def Core.loopNext (k : Core) : List MLoop → Nat × List MLoop
  | [] => (k.pc + 1, [])
  | l :: rest =>
    if k.pc = l.last then
      if (smGet (fun _ => 0) k.regs (keyLC rest.length)).toNat = 0 then k.loopNext rest else (l.first, l :: rest)
    else (k.pc + 1, l :: rest)

/-- A REP body that is skipped ends with the body around it: that iteration is over too (R270, R271). -/
def Core.skipped (k : Core) (target : Nat) : List MLoop → Nat × Core
  | [] => (target, k)
  | l :: rest =>
    if target = l.last + 1 then
      let key := keyLC rest.length
      let v := (smGet (fun _ => 0) k.regs key).toNat - 1
      let k := { k with regs := smSet (fun _ => 0) k.regs key (BitVec.ofNat 40 v) }
      if v = 0 then (target, { k with loops := rest }) else (l.first, k)
    else (target, k)

/-- The bundle at pc ends: its stores land, a cycle passes, and the next bundle is chosen; a fetch past bundle 8,191 traps (R255, R262, R270). -/
def Dev.closeBundle (d : Dev) (c : Nat) : Dev :=
  let k := d.mcore c
  let k := k.stores.foldl (fun k s => k.store s.1 s.2) k
  let k := { k with stores := [], early := none, slot := 0, count := k.count + 1, delay := k.delay - 1 }
  match k.branch with
  | some (1, target, reti) =>
    let (target, k) := k.skipped (if reti then k.landed.nat keyRPC % 8192 else target) k.loops
    let d := (d.setMcore c { k with branch := none, shadow := if reti then false else k.shadow }).coreTick c 1
    if target < 8192 then d.setMcore c { d.mcore c with pc := target } else d.coreTrap c 6
  | b =>
    let (pc, loops) := k.loopNext k.loops
    let d := (d.setMcore c { k with branch := b.map (fun x => (x.1 - 1, x.2)), loops := loops }).coreTick c 1
    if pc < 8192 then d.setMcore c { d.mcore c with pc := pc } else d.coreTrap c 6

/-- A slot's operation is done: the next slot, or the bundle's end. -/
def Dev.slotDone (d : Dev) (c : Nat) : Dev :=
  let k := d.mcore c
  if k.running then (if k.slot < 2 then d.setMcore c { k with slot := k.slot + 1 } else d.closeBundle c) else d

/-- The core can execute its next slot: it runs, it does not stall for its transfer queue, no interrupt is due before the bundle, and it does not wait for
its outputs to be accepted. -/
def Dev.slotReady (d : Dev) (c : Nat) : Bool :=
  d.coreRuns c && (d.mcore c).truWait.isNone && ((d.mcore c).slot != 0 || ((d.pcore c).done.isNone && (d.interruptDue c).isNone))

/-- The next slot holds an operation with an opcode of the kind given: compute and control (slot C), or memory and move (slots X and Y). -/
def Core.holds (k : Core) (c : Bool) (op : Nat) : Bool := (k.slot == 0) == c && k.slotOp == op

/-- The core at the start of a slot's operation: before slot C the pipeline's writes land and the loop counters fall. -/
def Core.enter (k : Core) : Core := if k.slot = 0 then k.landed.countLoops k.loops else k

/-- One operation of a bundle: f is its effect, false where the core stalls and the operation waits. A bundle that traps has no effect (R303). -/
def Dev.operation (d : Dev) (c : Nat) (isC : Bool) (op : Nat) (f : Dev → Dev × Bool) : Dev :=
  if !d.slotReady c || !(d.mcore c).holds isC op then d
  else
    let k := (d.mcore c).landed
    let causes := if k.slot = 0 then k.traps (d.coreKind c) else []
    if causes.isEmpty then
      match f (d.setMcore c (d.mcore c).enter) with
      | (d', true) => d'.slotDone c
      | (_, false) => d
    else (d.setMcore c k).trapAmong c causes

/-- A compute operation: its effect on the core alone. -/
def Dev.compute (d : Dev) (c op : Nat) (f : Core → Nat → Core) : Dev :=
  d.operation c true op (fun d => (d.setMcore c (f (d.mcore c) (d.mcore c).cWord), true))

/-- A move or pointer operation in slot X or Y: its effect on the core alone. -/
def Dev.mover (d : Dev) (c op : Nat) (f : Core → Nat → Core) : Dev :=
  d.operation c false op (fun d => (d.setMcore c (f (d.mcore c) (d.mcore c).slotWord), true))

/-- The post-modification of an operation's pointer, scaled by the size of its access (R263, R288). -/
def Core.postModify (k : Core) (w scale : Nat) : Core :=
  if xStill w then k
  else
    let p := xP w
    let by_ : Int := if xK w then sext 3 (xM w) * scale else k.mod_ (xM w)
    k.writeFull 1 (keyP p) (wrapNat 20 ((k.ptr p : Int) + by_))

/-- An uncorrectable error in a core's memories, or in shared SRAM on its access: the core stops, with a fault for the Puppeteer to take (R246, R259). -/
def Dev.eccFault (d : Dev) (c : Nat) : Dev :=
  let d := d.setMcore c { d.mcore c with running := false, stopped := true }
  d.setPcore c { d.pcore c with fault := 2 }

/-- What the SECDED code of the core's memories found is counted; MAR_n_ECC counts no error of shared SRAM (R259). -/
def Dev.eccCount (d : Dev) (c : Nat) (ecc : LoadEcc) (a : Nat) : Dev :=
  let r := R.MAR_ECC (coreDie c) (c % 32)
  let d := d.bumpBy r F.MAR_ECC_corrected ecc.corrected
  if ecc.bad && decide (a < 0x20000) then d.bump r F.MAR_ECC_uncorrected else d

/-- A load in slot X or Y: g writes the loaded value to its target; an uncorrectable error in data memory or shared SRAM faults the core. -/
def Dev.loader (d : Dev) (c op n : Nat) (ecc : LoadEcc) (g : Core → Nat → Nat → Core) : Dev :=
  d.operation c false op (fun d =>
    let w := (d.mcore c).slotWord
    let a := (d.mcore c).ptr (xP w)
    if ecc.bad && (decide (a < 0x20000) || inShared a) then ((d.eccCount c ecc a).eccFault c, true)
    else match d.coreLoad_ c a n with
    | (d', some v) =>
      let k := d'.mcore c
      ((d'.eccCount c { ecc with bad := false } a).setMcore c { (g k w v).postModify w n with clear := k.count + 3 }, true)
    | (_, none) => (d, false))

/-- A store in slot X or Y. -/
def Dev.storer (d : Dev) (c op n : Nat) : Dev :=
  d.operation c false op (fun d =>
    let k := d.mcore c
    let w := k.slotWord
    match d.coreStore c (k.ptr (xP w)) (toLE n (k.storeValue w)) with
    | (d', true) => (d'.setMcore c ((d'.mcore c).postModify w n), true)
    | (_, false) => (d, false))

/-! ## Saturation, rounding and flags (R264 to R269) -/

/-- A packed half as a number. -/
def Core.sh (k : Core) (n : Nat) (high : Bool) : Int := sext 16 (k.half n high)

/-- A value saturated to 16 bits, and whether it clamped (R267). -/
def sat16 (x : Int) : Int × Bool := (satS 16 x, satS 16 x != x)

/-- Two halves as a word. -/
def pack (lo hi : Int) : Nat := wrapNat 16 hi * 65536 + wrapNat 16 lo

/-- A word result in Dd with n from bit 31 and z from all 32 bits (R294). -/
def Core.result (k : Core) (dd v : Nat) (sat : Bool) : Core :=
  (k.writeFull 1 dd v).writeFlags (some (v.testBit 31, v % 2 ^ 32 == 0)) sat false

/-- An integer wrapped to 40 bits, and whether it lay outside (R265). -/
def wrap40 (x : Int) : Int × Bool := (sext 40 (wrapNat 40 x), satS 40 x != x)

/-- An accumulator result with n and z from its 40 bits (R297). -/
def Core.accResult (k : Core) (n : Nat) (v : Int) (sat aov : Bool) : Core :=
  (k.writeInt 1 (keyACC n) v).writeFlags (some (decide (v < 0), v == 0)) sat aov

/-- floor(a * 2^s / 2^q) for a scale s from -8 to 7. -/
def scaled (a s : Int) (q : Nat) : Int := a * (2 ^ (s + 8).toNat : Nat) / (2 ^ (q + 8) : Nat)

/-- The half move and the word move of R266: the value, and whether it clamped. -/
def halfMove (a s : Int) : Int × Bool := sat16 (scaled a s 15)
def wordMove (a s : Int) : Int × Bool := let r := scaled a s 0; (satS 32 r, satS 32 r != r)

/-- The number of leading bits of a w-bit value that equal its sign bit. -/
def leadSigns (w n : Nat) : Nat :=
  ((List.range w).takeWhile (fun i => n.testBit (w - 1 - i) == n.testBit (w - 1))).length

/-- EXP of a 16-bit half and of an accumulator (R268). -/
def exp16 (n : Nat) : Int := (leadSigns 16 n : Int) - 1
def exp40 (n : Nat) : Int := (leadSigns 40 n : Int) - 9

/-- NORM (R269): the shifted accumulator, and whether it clamped. -/
def norm (a s : Int) : Int × Bool :=
  let s := clampInt (-40) 40 s
  if 0 ≤ s then
    let v := a * (2 ^ s.toNat : Nat)
    (satS 40 v, satS 40 v != v)
  else (a / (2 ^ (-s).toNat : Nat), false)

/-- The complex product of R265, with b conjugated where asked. -/
def cmul (ar ai br bi : Int) (conj : Bool) : Int × Int :=
  let bi := if conj then -bi else bi
  (ar * br - ai * bi, ar * bi + ai * br)

/-- A branch is taken from this bundle, after its two delay slots (R262). -/
def Core.jump (k : Core) (target : Nat) (reti : Bool) : Core := { k with branch := some (3, target % 8192, reti) }

end Sys2Proof.Machine
end

