-- ==== Sys2Proof/Machine/Demod.lean ====
section
/-! DEFINITION. The contract of the demodulation firmware: what a burst record says and what a transmission puts on air (06_demodulation.md, R162 to R188;
07_seesaw.md, R195 to R200). What the firmware detects in its samples, which the spec leaves to it, is the operand of the
command. -/

namespace Sys2Proof.Machine

open Sys2Proof

/-! ## Measurements (R180 to R182) -/

/-- The LQF of a signal and a residual energy (R181); 0/0 is left open. -/
def lqfOf (signal residual : Rat) (free : Nat) : Nat :=
  if residual = 0 then (if signal = 0 then free % 256 else 255)
  else
    let snr := signal / residual
    ((List.range 256).reverse.find? (fun (v : Nat) => decide (ratio40 (2 * ((v : Int) - 40) - 1) ≤ snr * snr))).getD 0

/-- The RSSI in 0.25 dBm of a power p for a reference level and an output scale (R180); the logarithm of 0 is left open. -/
def rssiOf (ref : Int) (shift : Nat) (p : Rat) (free : Word) : Int :=
  if p = 0 then sext 16 free.toNat
  else
    let x : Rat := (p / (2 ^ 28 : Nat)) ^ 50
    let s : Int := 1204 * ((shift : Int) - 8)
    let v : Int := (((List.range 2000).reverse.find? (fun (k : Nat) => decide (ratio40 (50 * ((k : Int) - 1000) + s - 25) ≤ x))).map (fun (k : Nat) => (k : Int) - 1000)).getD (-1000)
    satS 16 (ref + v)

/-- The FEV of a mean square deviation error relative to fd (R182). -/
def fevOf (x : Rat) : Nat := min 65535 ((Nat.sqrt (4000000 * x).floor.toNat + 1) / 2)

/-- The effective LQF of two copies (R198). -/
def lqfSum (hi lo : Nat) : Nat :=
  let y : Rat := 1 + ratio40 (-((hi - lo : Nat) : Int))
  min 255 (hi + ((List.range 13).reverse.find? (fun (v : Nat) => decide (ratio40 (2 * (v : Int) - 1) ≤ y * y))).getD 0)

/-! ## Parameters (R188) -/

def DemSet.syncErr (p : DemSet) : Nat := min 8 (p.acq / 2 ^ 24)
def DemSet.lqfMin (p : DemSet) : Nat := p.acq / 65536 % 256
def DemSet.estShift (p : DemSet) : Nat := min 7 (p.acq / 256 % 256)
def DemSet.exitN (p : DemSet) : Nat := max 1 (p.acq % 256)
def DemSet.enterTol (p : DemSet) : Nat := p.tol / 65536
def DemSet.exitTol (p : DemSet) : Nat := p.tol % 65536
def DemSet.missN (p : DemSet) : Nat := p.warn / 2 ^ 24

/-- What the firmware reads of the node: the context's estimate, hold and held counts; a join has none. -/
structure FwNode where
  est : Int
  hold : Bool
  ulCount : Nat
  misses : Nat
  goods : Nat
deriving DecidableEq, Repr, Inhabited

/-- The node of a task (R166, R172). -/
def Dev.fwNode (d : Dev) (t : Task) : FwNode :=
  match d.ctx t.flow with
  | some x => ⟨x.offset, x.pilotHold, x.ulCount, x.misses, x.goods⟩
  | none => ⟨0, false, 0, 0, 0⟩

/-! ## The samples of a task (R164, R167) -/

/-- A copy of a task: its radio, its nominal and its receive group's start, and its samples' operand. -/
structure CopyAt where
  radio : Nat
  k0 : Nat
  krx : Int
  op : Nat

/-- The copies A and B of a task (R166, R168, R195). -/
def Dev.copyAt (d : Dev) (t : Task) (second : Bool) : CopyAt :=
  let x := t.info
  if t.kind == 2 then ⟨x.radioA, x.k0A, x.krxA, t.op 0⟩
  else
    let r := if second then x.radioB else x.radioA
    let k0 := if second then x.k0B else x.k0A
    ⟨r, k0, rxStart (d.fwNode t).est (d.fcOf r) k0 (modeGroup x.mode), if second then (if t.kind == 1 then t.op 2 else 0) else t.op 1⟩

/-- Sample j of the receive group in the ring frames that a task names, counted from the first of them: none of a frame that no longer shows its slot
number (R164). The firmware reads the group's neighbours besides (R167), for what it detects. -/
def Dev.ringSample (d : Dev) (r a slots n : Nat) (krx : Int) (j : Nat) : IQ :=
  let slot := a + j / (600 * n)
  let base := d.frameAddr r slot
  if decide (j / (600 * n) < slots) && leAt (d.dramRead base 8) 0 8 == slot then
    iqOfWord (leAt (d.dramRead (base + 256 + 2400 * krx.toNat + 4 * (j % (600 * n))) 4) 0 4)
  else notRx

/-- Sample j of a copy: of the ring, or of the capture that its operand names (R167). A place that holds no sample of the copy is as one not received. -/
def Dev.copySample (d : Dev) (t : Task) (c : CopyAt) (j : Nat) : IQ :=
  if !d.memUp then notRx
  else if c.op / 2 ^ 29 = 3 then
    let cap := d.capAddr c.radio (c.op % 256)
    if j < leAt (d.dramRead (cap + 16) 4) 0 4 then iqOfWord (leAt (d.dramRead (cap + 64 + 4 * j) 4) 0 4) else notRx
  else if c.op / 2 ^ 29 = 2 then d.ringSample c.radio t.info.slotA t.info.slots (modeGroup t.info.mode) c.krx j
  else notRx

/-- How a copy's samples lie in time, for a reference instant. -/
def Task.grid (t : Task) (c : CopyAt) (timing : Int) : SampleGrid :=
  ⟨if c.op / 2 ^ 29 = 2 then 30000 * modeGroup t.info.mode else 30000, modeRate t.info.mode, timing⟩

/-! ## Judging the copies (R170, R171, R175, R180 to R183, R195, R196) -/

/-- The burst's carrier centre lies within the acquisition range (R171). -/
def inRange (join pilot : Bool) (mode : Nat) (expected centre : Int) : Bool :=
  let r : Int := if join then 7500 else if pilot then max 3000 (modeRate mode / 2 : Nat) else (modeRate mode / 4 : Nat)
  decide (((centre - expected).natAbs : Int) ≤ r)

/-- The reference instant lies within the time window (R170): a join anywhere within its capture of n ns. -/
def inWindow (join : Bool) (span : Nat) (timing : Int) : Bool :=
  if join then decide (0 ≤ timing) && decide (timing < (span : Int)) else decide (timing.natAbs ≤ 500000)

/-- What the samples of a copy show (R180 to R183): a sample of its sync word or training block is missing, or a transmission overlaps it (R97); its
offset and timing; its power over its training block, and over that at the pair's instant; its signal and residual energies; its tap; and its mean square deviation error. -/
structure CopyMeas where
  lost : Bool
  barred : Bool
  centre : Int
  timing : Int
  power : Rat
  powerAt : Rat
  signal : Rat
  residual : Rat
  tapMag : Nat
  tapPhase : Nat
  dev : Rat
deriving DecidableEq, Repr, Inhabited

/-- What the samples of a received burst show: the sync word was accepted within the time window, and its copies. -/
structure RxMeas where
  synced : Bool
  a : CopyMeas
  b : CopyMeas
deriving DecidableEq, Repr, Inhabited

/-- The burst of a join request from an instant on (R97, R98): its end, in ns. -/
def joinBurstNs : Nat := burstNs 0 6 true

/-- A copy is present: its operand is filled. -/
def CopyAt.present (c : CopyAt) : Bool := c.op != 0

/-- A soft decision of the sync word, with those of samples that were not received as erasures (R176). -/
def Dev.syncSoft (d : Dev) (t : Task) (c : CopyAt) (instant : Int) (xs : List Int) (i : Nat) : Int :=
  let g := t.grid c instant
  if !c.present || (g.span (20 + i) (21 + i)).any (fun j => d.copySample t c j == notRx) then 0 else xs.getD i 0

/-- The sync word is accepted at an instant within the window (R170, R175, R195): at most sync_err of the hard decisions on the copies' sums differ from W;
a sum of 0 decides 0 (DESIGN CHOICE, log entry 232). -/
def Dev.syncAccepted (d : Dev) (t : Task) (ca cb : CopyAt) (o : RxObs) : Bool :=
  let sum (i : Nat) : Int := d.syncSoft t ca o.instant o.a.sync i + d.syncSoft t cb o.instant o.b.sync i
  let errs := (List.range 24).countP (fun i => decide (0 < sum i) != Config.syncWord.getLsbD i)
  (ca.present || cb.present) && inWindow (t.kind == 2) (t.info.stop - t.info.start) o.instant && decide (errs ≤ t.dem.syncErr)

/-- A copy is measured. Where no sync word was accepted, a scheduled copy's sync word and training block lie as at the first slot start, and a join has
none (DEDUCED, log entry 233). -/
def Dev.measureCopy (d : Dev) (t : Task) (c : CopyAt) (synced : Bool) (instant : Int) (len : Nat) (o : CopyObs) : CopyMeas :=
  let join := t.kind == 2
  let mode := t.info.mode
  let g := t.grid c (if synced then o.timing else 0)
  let get := d.copySample t c
  let lost := (synced || !join) && ((g.span 20 60).any (fun j => get j == notRx))
  let levels := burstLevels mode Config.syncWord.toNat o.decided
  let hz := o.centre - (c.krx - (c.k0 : Int)) * 15000
  let fit := fitTraining ((g.span 44 60).map (fun j => (get j, idealSample mode levels hz (g.symbolOf j))))
  let power (g : SampleGrid) : Rat := (modeGroup mode : Nat) * meanPower ((g.span 44 60).map get)
  let begins := ((t.info.start : Int) + o.timing).toNat
  { lost := lost
    barred := join && synced && d.sentIn c.radio begins (begins + joinBurstNs)
    centre := o.centre, timing := o.timing
    power := power g, powerAt := power (t.grid c instant)
    signal := fit.signal, residual := fit.residual, tapMag := tapMagOf fit.gain, tapPhase := tapPhaseOf fit.gain
    dev := devError mode (burstSymbols mode len t.info.pilot - 48) levels o.freqs o.centre }

/-- What the samples of a task show. -/
def Dev.measure (d : Dev) (t : Task) (o : RxObs) : RxMeas :=
  let ca := d.copyAt t false
  let cb := d.copyAt t true
  let synced := d.syncAccepted t ca cb o
  ⟨synced, d.measureCopy t ca synced o.instant o.len o.a, d.measureCopy t cb synced o.instant o.len o.b⟩

/-- One copy as the task judges it (R171, R195, R196): present, training reached, its LQF, and usable. -/
structure CopyJudge where
  present : Bool
  lost : Bool
  reached : Bool
  lqf : Nat
  usable : Bool
  excluded : Bool
  rssi : Int
deriving DecidableEq, Repr, Inhabited

/-- A copy is judged, with free values from the k-th on: expected its expected centre less the nominal one. -/
def Dev.judgeCopy (d : Dev) (k : Nat) (t : Task) (c : CopyAt) (synced : Bool) (expected : Int) (o : CopyMeas) : CopyJudge :=
  let reached := c.present && synced && inRange (t.kind == 2) t.info.pilot t.info.mode expected o.centre && !o.lost && !o.barred
  let lqf := lqfOf o.signal o.residual (Config.freeWord (d.free + k)).toNat
  let good := reached && (t.floor == 0 || decide (t.floor ≤ lqf))
  { present := c.present, lost := c.present && o.lost, reached := reached, lqf := if reached then lqf else 0
    usable := good, excluded := reached && !good
    rssi := if c.present && synced then
        rssiOf (sext 16 (d.fuse (R.KAL_LEVEL c.radio))) (d.get (R.KAL_CTRL c.radio) F.KAL_CTRL_out_shift) (if reached then o.power else o.powerAt)
          (Config.freeWord (d.free + k + 1))
      else 0 }

/-- The centre of a burst is expected here, less the nominal one (R166, R168). -/
def Dev.expectedAt (d : Dev) (t : Task) (c : CopyAt) : Int :=
  if t.kind == 2 then (c.krx - (c.k0 : Int)) * 15000 else expectHz (d.fwNode t).est (d.fcOf c.radio) c.k0 (modeGroup t.info.mode)

/-- Both copies are judged. -/
def Dev.judge (d : Dev) (t : Task) (m : RxMeas) : CopyJudge × CopyJudge :=
  let ca := d.copyAt t false
  let cb := d.copyAt t true
  (d.judgeCopy 0 t ca m.synced (d.expectedAt t ca) m.a, d.judgeCopy 2 t cb m.synced (d.expectedAt t cb) m.b)

/-- Copy B leads (R199). -/
def leadsB (a b : CopyJudge) : Bool := b.usable && (!a.usable || decide (a.lqf < b.lqf))

/-- The effective LQF (R198). -/
def pairLqf (a b : CopyJudge) : Nat :=
  if a.usable && b.usable then lqfSum (max a.lqf b.lqf) (min a.lqf b.lqf) else if a.usable then a.lqf else if b.usable then b.lqf else 0

/-! ## Decoding (R173, R175 to R177) -/

/-- The header is discarded under R76 or R77: a join request's length is 6, and a scheduled burst fits its run. -/
def headerBad (sched pilot : Bool) (mode slots ctl : Nat) : Bool :=
  let flags := ctl / 2 ^ 24
  let len := ctl % 256
  ctl / 2 ^ 8 % 8 != mode || flags.testBit 2 != pilot || flags.testBit 3 || flags.testBit 5 || flags.testBit 6 || flags.testBit 7
    || ctl.testBit 11
    || (if flags.testBit 0 then len != 6 else len == 0)
    || (sched && decide (slots < runSlots mode len pilot))

/-- The block's CRC holds over the length its header gives (R75, R84). -/
def crcHolds (b : Bytes) : Bool :=
  b.length == byteAt b 4 + 16 && leAt b (b.length - 4) 4 == crc32 (b.take (b.length - 4))

/-- The soft values of a copy in the grant's pilot state, or in the old one (R173, R175). -/
def Dev.copySoftOf (d : Dev) (t : Task) (c : CopyAt) (len : Nat) (old : Bool) (o : CopyObs) : List Int :=
  copySoft (t.grid c o.timing) (d.copySample t c) t.info.mode (t.info.pilot != old) len (if old then o.llrOld else o.llr)

/-- The block that the usable copies decode to (R175, R197). -/
def Dev.decodeCopies (d : Dev) (t : Task) (o : RxObs) (a b : CopyJudge) (old : Bool) : Bytes :=
  let sa := d.copySoftOf t (d.copyAt t false) o.len old o.a
  let sb := d.copySoftOf t (d.copyAt t true) o.len old o.b
  decodeSoft t.info.mode o.len
    (if a.usable && b.usable then (if leadsB a b then combineSoft (b.lqf - a.lqf) sb sa else combineSoft (a.lqf - b.lqf) sa sb)
    else if b.usable then sb else sa)

/-- R173 has a burst tried in the old pilot state too: in the first superframe of the changed state, or before a burst has decoded in it. -/
def Dev.mayBeOld (d : Dev) (t : Task) : Bool :=
  t.kind != 2 && (match d.ctx t.flow with
    | some x => match x.pilotNew with
      | some (sf, heard) => x.pilot == t.info.pilot && (superOf t.info.start == sf || !heard)
      | none => false
    | none => false)

/-- The block decoded, and the pilot state in which it is reported (R173). -/
def Dev.decodeBurst (d : Dev) (t : Task) (blockIn : Bool → Bytes) : Bool × Bytes :=
  if !crcHolds (blockIn false) && d.mayBeOld t && crcHolds (blockIn true) then (!t.info.pilot, blockIn true) else (t.info.pilot, blockIn false)

/-- How far a burst has come in the order of R177: its status up to now, the fate of its count (R82), and its frame counter. -/
structure BlockFate where
  status : Nat
  fate : Nat
  fc : Nat

/-- Statuses 7, 6, 1, 3, 10, 11 and 8 (R177, R196); 0 where none of them holds. -/
def Dev.headFate (d : Dev) (t : Task) (a b : CopyJudge) (pilot : Bool) (block : Bytes) : BlockFate :=
  let join := t.kind == 2
  let addr := leAt block 0 4
  let ctl := leAt block 4 4
  if !(a.usable || b.usable) then ⟨if a.lost || b.lost then 7 else 6, 0, 0⟩
  else if !crcHolds block then ⟨1, 0, 0⟩
  else if headerBad (!join) pilot t.info.mode t.info.slots ctl then ⟨3, 0, 0⟩
  else if !join && addr != t.info.node then ⟨10, 0, 0⟩
  else if join && (d.regEntry addr).isNone then ⟨11, 0, 0⟩
  else
    let held := if join then ((d.regEntry addr).map (·.joinCount)).getD 0 else (d.fwNode t).ulCount
    let (fate, fc) := seqFate held (ctl / 4096 % 4096)
    ⟨if fate = 3 then 8 else 0, fate, fc⟩

/-- The last statuses of R177, after the key's job: 9, 4, 2, 5 and 0, and whether a MIC was checked. -/
def sealStatus (fate keyResult : Nat) (micOk : Bool) : Nat × Bool :=
  if keyResult != 0 then (9, false)
  else if fate = 2 then (4, false)
  else if !micOk then (2, true)
  else if fate = 1 then (5, true)
  else (0, true)

/-! ## Sealing (R78 to R80) -/

/-- A node slot that holds a node's key; 0, a host slot, where none does. -/
def Dev.slotOfNode (d : Dev) (addr : Nat) : Nat :=
  match d.cip.slots.find? (fun p => decide (256 ≤ p.1) && p.2.owner == addr) with
  | some p => p.1
  | none => 0

/-- The firmware's cipher job under a node's network key: the context's, or that of a node that holds no context, whose node slot serves where it has one
(DESIGN CHOICE of the latter, log entry 224). -/
def Dev.nodeJob (d : Dev) (ctx : Option Nat) (addr : Nat) : Dev × Nat × Bytes :=
  let (d, r, slot) := match ctx with
    | some i => d.nodeKey i
    | none => d.addrKey addr (d.slotOfNode addr)
  d.takeKey r slot

/-- The firmware's cipher job under the network beacon key that SCH_BCN_CTRL.key names (R225): 4 where the slot holds no key. -/
def Dev.beaconJob (d : Dev) : Dev × Nat × Bytes :=
  let slot := d.get R.SCH_BCN_CTRL F.SCH_BCN_CTRL_key
  d.takeKey (d.hostKey slot) slot

/-- AES-CCM of the network layer over a header and a payload (R78, R79): the payload in the other direction's form and the 4-byte MIC. code is the direction
code, count the burst's count. -/
def zilothCcm (key hdr : Bytes) (code count : Nat) (text : Bytes) (dec : Bool) : Bytes × Bytes :=
  let r := ccmRun (aesRoundKeys (toNats key)) (toNats (nonceBytes (leAt hdr 0 4) code count (count / 4096) Config.syncWord.toNat)) (toNats hdr)
    (toNats text) 4 dec
  (toBytes r.1, toBytes r.2)

/-- The MIC of a beacon: its payload is empty, and its body follows the header in the associated data (R78). -/
def beaconMic (key hdr body : Bytes) (sf : Nat) : Bytes :=
  toBytes (ccmRun (aesRoundKeys (toNats key)) (toNats (nonceBytes (leAt hdr 0 4) 2 sf (sf / 4096) Config.syncWord.toNat)) (toNats (hdr ++ body)) [] 4
    false).2

/-- The key's job of a burst, and its opening under R78 to R80: the job's result, whether the MIC verifies, and the plaintext. A join's count is its
registry's. -/
def Dev.openBlock (d : Dev) (t : Task) (block : Bytes) (fc : Nat) : Dev × Nat × Bool × Bytes :=
  let join := t.kind == 2
  let len := byteAt block 4
  let (d, result, key) := d.nodeJob (if join then none else some t.flow) (leAt block 0 4)
  let (text, mic) := zilothCcm key (block.take 8) (if join then 3 else 0) (fc * 4096 + leAt block 4 4 / 4096 % 4096) ((block.drop 8).take len) true
  (d, result, mic == (block.drop (8 + len)).take 4, text)

/-! ## The record (R172, R174, R183, R184, R199, R200) -/

/-- The pilot request of a scheduled record (R172). -/
def pilotReq (n : FwNode) (p : DemSet) (pilot : Bool) (mode status lqf dev misses goods : Nat) : Nat :=
  if !pilot then
    if (status == 0 && decide (p.enterTol < dev)) || ((status == 1 || status == 6) && p.missN != 0 && misses == p.missN) then 1 else 0
  else if mode != 0 && !n.hold && status == 0 && decide (dev ≤ p.exitTol) && decide (p.lqfMin ≤ lqf) && goods == p.exitN then 2 else 0

/-- The record of a burst with the outcome found, and the firmware's counts (R162 to R184, R195 to R200). The counts of consecutive records stop at 256,
above every parameter, so none is met twice in a row. -/
def Dev.burstRecord (d : Dev) (t : Task) (m : RxMeas) (a b : CopyJudge) (pilot : Bool) (block : Bytes) (status fc : Nat) (mic : Bool) :
    BurstRec × FwCounts :=
  let x := t.info
  let join := t.kind == 2
  let dual := t.kind == 1
  let node := d.fwNode t
  let p := t.dem
  let n := modeGroup x.mode
  let combined := a.usable && b.usable
  let leadB := leadsB a b
  let lead := if leadB then m.b else m.a
  let none_ := status == 6 || status == 7
  let lqf := if none_ then 0 else pairLqf a b
  let decoded := !(status == 1 || none_)
  let om := if leadB then toPpb m.b.centre (d.fcOf x.radioB) x.k0B n else toPpb m.a.centre (d.fcOf x.radioA) x.k0A n
  let dev := (om - node.est).natAbs
  let misses := if status = 1 || status = 6 then min 256 (node.misses + 1) else 0
  let good := status == 0 && decide (dev ≤ p.exitTol) && decide (p.lqfMin ≤ lqf)
  let goods := if good then min 256 (node.goods + 1) else 0
  let est : Int :=
    if join then (if status = 0 then om else 0)
    else if status = 0 && decide (p.lqfMin ≤ lqf) then node.est + (om - node.est) / (2 ^ p.estShift : Nat)
    else node.est
  let rec_ : BurstRec := {
    address := if decoded then leAt block 0 4 else if join then 0 else x.node
    start := if none_ then x.start else ((x.start : Int) + lead.timing).toNat
    radioA := x.radioA, mode := x.mode, pilot := pilot, join := join, dual := dual, status := status
    group := modeGroupCode x.mode, k0A := x.k0A
    radioB := if dual then x.radioB else 0
    k0B := if dual then x.k0B else 0
    krxA := (d.copyAt t false).krx.toNat
    rssiA := a.rssi, rssiB := b.rssi
    lqf := lqf
    lqfA := a.lqf, lqfB := b.lqf
    pairTimeout := t.partial_, combined := combined, copyB := b.present, copyA := a.present
    fev := if none_ then 0 else fevOf lead.dev
    offsetA := if a.usable then m.a.centre else 0
    offsetB := if b.usable then m.b.centre else 0
    timing := if join || none_ then 0 else roundAway ((lead.timing : Rat) / 100)
    tapMag := if a.usable then m.a.tapMag else 0
    tapPhase := if a.usable then m.a.tapPhase else 0
    pilotReq := if join then 0 else pilotReq node p x.pilot x.mode status lqf dev misses goods
    control := if decoded then leAt block 4 4 else 0
    frameCtr := if mic then fc else 0
    offsetPpb := est
    length := if status = 0 then byteAt block 4 else 0
    createSeq := t.seq }
  (rec_, ⟨bitOf a.excluded + bitOf b.excluded, misses, goods⟩)

/-- The decode of a received burst with what its samples show: its record, its payload, and the firmware's counts; the key's job where the order of R177
comes to it. -/
def Dev.demodulate (d : Dev) (t : Task) (o : RxObs) : Dev × BurstRec × Bytes × FwCounts :=
  let m := d.measure t o
  let (a, b) := d.judge t m
  let (pilot, block) := d.decodeBurst t (d.decodeCopies t o a b)
  let f := d.headFate t a b pilot block
  if f.status != 0 then
    let (r, n) := d.burstRecord t m a b pilot block f.status f.fc false
    (d, r, [], n)
  else
    let (d', result, micOk, text) := d.openBlock t block f.fc
    let (status, mic) := sealStatus f.fate result micOk
    let (r, n) := d.burstRecord t m a b pilot block status f.fc mic
    (d', r, if status = 0 then text else [], n)

/-- A receive task of the firmware ends with its record and payload in the output buffer (R178, R280, R281). -/
def Dev.fwReceive (d : Dev) (c : Nat) (t : Task) (o : RxObs) : Dev :=
  let (d, r, payload, counts) := d.demodulate t o
  let d := { d with free := d.free + 4 }
  let d := d.setMcore c ((d.mcore c).store 0x20400 (r.bytes ++ payload))
  d.taskEnds c (.record r.bytes payload (some counts))

/-! ## Transmission (R76 to R80, R100, R102, R103, R107, R108, R186) -/

/-- The count that a transmission carries (R80): the superframe number of a beacon, the request's of a join response, a message's own where it has one,
else the next of the node's downlink count. -/
def Dev.txCount (d : Dev) (t : Task) (o : TxOwn) : Nat :=
  if o.kind = 2 then superOf t.info.start % 2 ^ 32
  else (o.msg.bind (·.count)).getD (((d.ctx o.ctx).map (·.dlCount)).getD 0 + 1)

/-- Further traffic is queued for the node when this burst leaves (R76). -/
def Dev.txMore (d : Dev) (o : TxOwn) : Bool :=
  match d.ctx o.ctx with
  | none => false
  | some c =>
    if o.kind = 3 then !c.dq.isEmpty || !c.ctl.isEmpty
    else if o.kind = 1 then !c.dq.isEmpty || decide (o.entries.length < c.ctl.length)
    else decide (1 < c.dq.length) || !c.ctl.isEmpty

/-- What a transmission carries in clear: a beacon's body (R103, R226), the grant entries for their node (R108), or a message's or join response's bytes. -/
def Dev.txPlain (d : Dev) (t : Task) (o : TxOwn) : Bytes :=
  if o.kind = 2 then
    beaconBody (superOf t.info.start) ((d.get R.SCH_CTRL F.SCH_CTRL_join_open).testBit t.info.radioA) (!d.clk.lockedOnce) (d.clkState == clkHOLDOVER)
      (d.get R.SCH_BCN_CTRL F.SCH_BCN_CTRL_gw_id)
      (o.entries.map (fun e => e.grant.bytes (((d.ctx e.ctx).map (·.address)).getD 0)))
  else if o.kind = 1 then o.entries.flatMap (fun e => e.grant.bytes t.info.node)
  else (o.msg.map (·.body)).getD []

/-- The eight header bytes of a transmission with a payload of len bytes (R75 to R77, R80, R102). -/
def Dev.txHeader (d : Dev) (t : Task) (o : TxOwn) (len : Nat) : Bytes :=
  let fl (b : Bool) (v : Nat) : Nat := if b then v else 0
  let pilot := o.kind == 3 || (o.kind != 2 && (t.info.pilot || t.info.mode == 0))
  let flags := flDir + fl (o.kind == 2) flBeacon + fl (o.kind == 3) flJoin + fl pilot flPilot + fl (o.kind == 1) flGrant
    + fl (o.kind != 2 && d.txMore o) flMore
  headerBytes (if o.kind = 2 then 0xFFFFFFFF else t.info.node)
    (controlWord flags (d.txCount t o % 4096) (if o.kind = 3 then 0 else t.info.mode) len)

/-- The direction code of a transmission (R80). -/
def TxOwn.code (o : TxOwn) : Nat := if o.kind = 2 then 2 else if o.kind = 3 then 4 else 1

/-- The coded block of a transmission, sealed under its key (R75, R78). -/
def Dev.txBlock (d : Dev) (t : Task) (o : TxOwn) (key : Bytes) : Bytes :=
  let text := d.txPlain t o
  let hdr := d.txHeader t o text.length
  if o.kind = 2 then blockBytes hdr text (beaconMic key hdr text (d.txCount t o))
  else
    let (body, mic) := zilothCcm key hdr o.code (d.txCount t o) text false
    blockBytes hdr body mic

/-- The 32 bytes of a transmit descriptor (R154). -/
def descBytes (x : TxDesc) : Bytes :=
  toLE 2 (x.k0 + 2048 * bitOf x.last) ++ toLE 1 (x.mode + 64 * x.size) ++ toLE 1 x.backoff ++ toLE 4 (wrapNat 32 x.pre)
    ++ toLE 2 x.count ++ toLE 2 x.next ++ toLE 4 x.buf ++ List.replicate 16 0

/-- The sub-channel groups a transmission is sent on: every beacon group, or the grant's. -/
def Dev.txGroups (d : Dev) (t : Task) (o : TxOwn) : List Nat :=
  if o.kind = 2 then d.beaconGroups t.info.radioA else [t.info.k0A]

/-- The descriptors of a transmission, one for each of its groups, all with one symbol buffer (R102, R186). -/
def Dev.txDescs (d : Dev) (t : Task) (o : TxOwn) (w : TxObs) (count : Nat) : List TxDesc :=
  let r := t.info.radioA
  let n := modeGroup t.info.mode
  let gs := d.txGroups t o
  gs.zipIdx.map (fun p =>
    { idx := if p.2 = 0 then w.desc0.val else w.desc1.val, k0 := p.1, size := modeGroupCode t.info.mode, mode := t.info.mode, backoff := w.backoff % 128
      pre := if o.kind = 2 then 0 else expectHz t.est (d.fcOf r) p.1 n, count := count, last := decide (gs.length ≤ p.2 + 1), next := w.desc1.val
      buf := w.buf })

/-- A downlink or beacon task of the firmware ends: symbol buffer, then descriptors, then the handle (R155, R186). With a key that is locked or cannot be
loaded there is nothing to send (R281; DEDUCED, log entry 225). -/
def Dev.fwTransmit (d : Dev) (c : Nat) (t : Task) (o : TxOwn) (w : TxObs) : Dev :=
  let (d, result, key) := if o.kind = 2 then d.beaconJob else d.nodeJob (some o.ctx) t.info.node
  if result != 0 then d.taskEnds c .none
  else
    let block := d.txBlock t o key
    let syms := burstSyms t.info.mode Config.syncWord.toNat ((leAt block 4 4).testBit 26) block
    let descs := d.txDescs t o w syms.length
    let d := d.dramWrite w.buf (packSyms syms)
    let d := if d.radioUp t.info.radioA then descs.foldl (fun d x => d.descWrite t.info.radioA (32 * x.idx) (descBytes x)) d else d
    d.taskEnds c (.ready w.desc0.val d.nt)

/-! ## CORE_DONE (R281) -/

/-- CORE_DONE is written with a value, where the demodulation firmware runs with what it found; an invalid completion traps (R281). -/
def Dev.coreDoneWith (d : Dev) (c v : Nat) (obs : Option FwObs) : Dev :=
  if !d.coreRuns c || (d.pcore c).done.isSome then d
  else match (d.pcore c).run.bind d.task, obs with
    | some t, some (.rx o) => if v / 2 ^ 28 = 1 && t.receives then d.fwReceive c t o else d.coreDone c v
    | some t, some (.tx w) =>
      match t.info.own with
      | some own => if v / 2 ^ 28 = 2 && !t.receives then d.fwTransmit c t own w else d.coreDone c v
      | none => d.coreDone c v
    | _, _ => d.coreDone c v

end Sys2Proof.Machine
end

