-- ==== Sys2Proof/Machine/Release.lean ====
section
/-! DEFINITION. The release queue: what a completed task does when its turn comes (09_puppeteer.md, R245, R253; 06_demodulation.md, R178, R187). -/

namespace Sys2Proof.Machine

open Sys2Proof

/-! ## Order (R253) -/

/-- Every lower release number of the flow has been passed or removed. -/
def Dev.releasable (d : Dev) (t : Task) : Bool :=
  t.state == 4 && d.pup.tasks.all (fun p => p.2.flow != t.flow || decide (p.2.state < 2) || decide (t.rel ≤ p.2.rel))

/-! ## Downlinks and beacons (R187, R219, R223) -/

/-- Control entries carried by a burst at T leave their queues, to apply from the superframe after (R219). -/
def Dev.carryEntries (d : Dev) (es : List CtlEntry) (t : Nat) : Dev :=
  es.foldl (fun d e => match d.ctx e.ctx with
    | none => d
    | some x => d.setCtx e.ctx { x with ctl := x.ctl.filter (fun c => c.stamp != e.stamp), coming := addComing ⟨e.grant, superOf t + 1, t⟩ x.coming }) d

/-- A burst of a kind is counted against its node's downlink count, unless it repeats one (R81): the count it carries. -/
def Dev.countDown (d : Dev) (i : Nat) (kept : Option Nat) : Dev × Nat :=
  match kept, d.ctx i with
  | some n, _ => (d, n)
  | none, some x => (d.setCtx i { x with dlCount := x.dlCount + 1 }, x.dlCount + 1)
  | none, none => (d, 0)

/-- The head message of a context leaves its queue and the pool. -/
def Dev.takeMessage (d : Dev) (i b : Nat) : Dev :=
  match d.ctx i with
  | none => d
  | some x =>
    let d := if x.dq.head? = some b then d.popHead i else d
    { d with sched := { d.sched with pool := smErase d.sched.pool b } }

/-- The RAD_TX_START of a transmission is armed: what it carries leaves its queues, and is kept until the burst set has been sent (R187, R468). -/
def Dev.txArmed (d : Dev) (r handle t : Nat) (o : TxOwn) : Dev :=
  let keep (d : Dev) (o : TxOwn) : Dev := { d with sched := { d.sched with own := smInsert (r * 1024 + handle) o d.sched.own } }
  match o.kind with
  | 0 =>
    let (d, n) := d.countDown o.ctx (o.msg.bind (·.count))
    keep (d.takeMessage o.ctx o.buf) { o with msg := o.msg.map (fun m => { m with count := some n }) }
  | 1 => keep ((d.countDown o.ctx none).1.carryEntries o.entries t) o
  | 2 => keep (d.carryEntries o.entries t) o
  | _ => keep d o

/-- A transmission's task is released (R187): armed in time, or late; a run whose slots a new direction map or quiet slot takes is not sent (R42, R208). -/
def Dev.releaseTx (d : Dev) (t : Task) : Dev :=
  let r := t.info.radioA
  match t.out, t.info.own with
  | .ready handle done, some o =>
    if o.kind != 2 && !d.txRunInDir r t.info.start ((t.info.stop - t.info.start) / slotNs) then d
    else if done + armLead ≤ t.info.start then
      let (d, outcome, i) := d.armAct ⟨t.info.start, 1, r, handle⟩
      let d := d.actResult outcome i
      if outcome = 1 then d.txArmed r handle t.info.start o else d
    else d.dlLate r
  | _, _ => d.dlLate r

/-! ## Records (R178, R489) -/

/-- The samples of the LQF and RSSI probes (R489). -/
def Dev.recordSamples (d : Dev) (rec : Bytes) : Dev :=
  let one (d : Dev) (present : Bool) (r lqf : Nat) (rssi : Int) : Dev :=
    if !present then d
    else
      let d := if recStatus rec = 0 then d.sample 5 r lqf else d
      d.sample 6 r rssi
  let d := one d (recCopyA rec) (recRadioA rec) (recLqfA rec) (recRssiA rec)
  if recDual rec then one d (recCopyB rec) (recRadioB rec) (recLqfB rec) (sext 16 (leAt rec 24 2)) else d

/-- A receive task is released: its record acts on its context, or asks for admission, and enters the sensor port. -/
def Dev.releaseRecord (d : Dev) (t : Task) (rec payload : Bytes) (fw : Option FwCounts) : Dev :=
  let d := d.qualityCheck t.dem.warn rec
  let d := if t.kind = 2 then (if recStatus rec = 0 then d.admitNode rec payload else d) else d.contextRecord t.flow t.info.node rec fw
  ((d.recordCounts rec fw).recordSamples rec).recordLookup rec payload

/-- The release queue passes a task (R253): its effects take hold, its entry and captures are freed, and its flow goes on. -/
def Dev.taskRelease (d : Dev) (i : Nat) : Dev :=
  match d.task i with
  | none => d
  | some t =>
    if !d.releasable t then d
    else
      let d := d.sample 4 t.kind ((d.xo - t.firedXo : Nat) : Int)
      let d := match t.out with
        | .record rec payload fw => d.releaseRecord t rec payload fw
        | _ => d.releaseTx t
      let d := (d.freeTaskOps i t).dropTask i
      (d.setFlow t.flow { d.flow t.flow with inService := false }).dispatch

end Sys2Proof.Machine
end

