-- ==== Sys2Proof/Machine/ActOps.lean ====
section
/-! DEFINITION. The action list and the time grid: slots, superframes, steps of NT, and what each type of action does when it fires (02_clockwork.md, 04_radios.md); sample frames and task ends (05_kaleidoscope.md, 09_puppeteer.md). -/

namespace Sys2Proof.Machine

open Sys2Proof

/-- SLOT_START: Slot a starts; rx gives, for a quiet slot, port 0's power less port 1's of each radio, in 0.25 dB (R41, R57, R111, R135, R227, R436). -/
def execSlotStart (a : Nat) (rx : List (RadioId × Int)) (ecc : List StoreErr) (s : State) : Host.Outcome State Fault Refusal :=
  finish s (s.dev.whenHub (fun d => d.slotAt a (rx.map (fun p => (p.1.val, p.2))) ecc))

/-- SUPERFRAME_BOUNDARY: Superframe sf begins (R41, R42, R52, R208, R217). -/
def execSuperframeBoundary (sf : Nat) (s : State) : Host.Outcome State Fault Refusal := finish s (s.dev.whenHub (fun d => d.superAt sf))

/-- STEP_APPLY_MS: The step of NT that waits for a 1 ms boundary (R55). -/
def execStepApplyMs (t : Nat) (s : State) : Host.Outcome State Fault Refusal := finish s (s.dev.whenHub (fun d => (d.at_ t).stepMsAt))

/-- STEP_APPLY_QUIET: The step of NT that waits for the quiet slot (R55). -/
def execStepApplyQuiet (t : Nat) (s : State) : Host.Outcome State Fault Refusal := finish s (s.dev.whenHub (fun d => (d.at_ t).stepQuietAt))

/-- ACTION_ARM: CLK_ACT_CTRL.arm is set (R58 to R64). -/
def execActionArm (ecc : List StoreErr) (s : State) : Host.Outcome State Fault Refusal :=
  finish s (s.dev.whenHub (fun d => (d.storeErrs ecc).actionArm))

/-- ACTION_CANCEL: CLK_ACT_CTRL.cancel is set for an entry (R65). -/
def execActionCancel (a : ActId) (s : State) : Host.Outcome State Fault Refusal := finish s (s.dev.whenHub (fun d => d.actionCancel a.val))

/-- RAD_TX_START: A RAD_TX_START fires (R118 to R129). -/
def execRadTxStart (i : ActId) (t : Nat) (s : State) : Host.Outcome State Fault Refusal :=
  finish s (s.dev.whenHub (fun d => (d.at_ t).txStart i.val))

/-- RAD_STATE: A RAD_STATE fires (R116, R117). -/
def execRadState (i : ActId) (t : Nat) (s : State) : Host.Outcome State Fault Refusal :=
  finish s (s.dev.whenHub (fun d => (d.at_ t).fireAct i.val 2))

/-- CLS_GEN_SWITCH: A CLS_GEN_SWITCH fires (R315). -/
def execClsGenSwitch (i : ActId) (t : Nat) (s : State) : Host.Outcome State Fault Refusal :=
  finish s (s.dev.whenHub (fun d => (d.at_ t).fireAct i.val 3))

/-- SHP_GATE_TAKEOVER: A SHP_GATE_TAKEOVER fires (R337). -/
def execShpGateTakeover (i : ActId) (t : Nat) (s : State) : Host.Outcome State Fault Refusal :=
  finish s (s.dev.whenHub (fun d => (d.at_ t).fireAct i.val 4))

/-- CFG_STAGE_TAKEOVER: A CFG_STAGE_TAKEOVER fires (R436). -/
def execCfgStageTakeover (i : ActId) (t : Nat) (s : State) : Host.Outcome State Fault Refusal :=
  finish s (s.dev.whenHub (fun d => (d.at_ t).stageTakeover i.val))

/-- CAL_QUIET: A CAL_QUIET fires (R408). -/
def execCalQuiet (i : ActId) (t : Nat) (s : State) : Host.Outcome State Fault Refusal :=
  finish s (s.dev.whenHub (fun d => (d.at_ t).fireAct i.val 6))

/-- GPIO_LEVEL: A GPIO_LEVEL fires (R505). -/
def execGpioLevel (i : ActId) (t : Nat) (s : State) : Host.Outcome State Fault Refusal :=
  finish s (s.dev.whenHub (fun d => (d.at_ t).fireAct i.val 7))

/-- TX_DEFERRED_START: A held burst set can start (R121). -/
def execTxDeferredStart (r : RadioId) (t : Nat) (s : State) : Host.Outcome State Fault Refusal :=
  finish s (s.dev.whenHub (fun d => (d.at_ t).deferredStart r.val))

/-- TX_GUARD_EXPIRE: T + tx_guard has passed (R122). -/
def execTxGuardExpire (r : RadioId) (t : Nat) (s : State) : Host.Outcome State Fault Refusal :=
  finish s (s.dev.whenHub (fun d => (d.at_ t).guardExpire r.val))

/-- RETURN_LOSS_ABORT: A port that carries a carrier reads return loss below 3 dB (R135, R468). -/
def execReturnLossAbort (r : RadioId) (port : Fin 2) (t : Nat) (s : State) : Host.Outcome State Fault Refusal :=
  finish s (s.dev.whenHub (fun d => (d.at_ t).returnLossAbort r.val port.val))

/-- RING_FRAME_COMPLETE: The frame of absolute slot a is complete: it is written from the streams and fills its operands (R145, R163, R237). -/
def execRingFrameComplete (r : RadioId) (a t : Nat) (ecc : List StoreErr) (s : State) : Host.Outcome State Fault Refusal :=
  finish s (s.dev.whenHub (fun d => ((d.at_ t).storeErrs ecc).ringFrame r.val a))

/-- TASK_RELEASE: The release queue passes a task (R253). -/
def execTaskRelease (i : Fin 8192) (ecc : List StoreErr) (t : Nat) (s : State) : Host.Outcome State Fault Refusal :=
  finish s (s.dev.whenHub (fun d => ((d.at_ t).storeErrs ecc).taskRelease i.val))

/-- CORE_DONE_WRITE: A task writes CORE_DONE; obs is what the receive or transmit firmware found or made (R281). -/
def execCoreDoneWrite (c : CoreId) (v : Word) (obs : Option FwObs) (t : Nat) (s : State) : Host.Outcome State Fault Refusal :=
  finish s (s.dev.whenHub (fun d => (d.at_ t).coreDoneWith c.val v.toNat obs))

/-- CJ_SUBMIT: A write to CJ_SUBMIT (R376). -/
def execCjSubmit (c : CoreId) (ecc : List StoreErr) (s : State) : Host.Outcome State Fault Refusal :=
  finish s (s.dev.whenHub (fun d => ((d.storeErrs ecc).cipSubmit c.val).1))

end Sys2Proof.Machine
end

