-- ==== Sys2Proof/Machine/CipOps.lean ====
section
/-! DEFINITION. The Cipher Engine rows that act alone (15_cipher_engine.md). -/

namespace Sys2Proof.Machine

open Sys2Proof

/-- A requester's access to the stream interface: nothing where the owner rule bars it (R379). -/
def Dev.asStr (d : Dev) (who : Nat) (f : Dev → Dev) : Dev := if d.strMay who then f d else d

/-- KEY_LOAD: CIP_KEY_CMD op LOAD (R368). -/
def execKeyLoad (slot : Nat) (cls : Fin 4) (big : Bool) (s : State) : Host.Outcome State Fault Refusal :=
  finish s (s.dev.whenHub (fun d => if 255 < slot then d.keyLoad slot cls.val big else d.keyCmd (keyCmdWord 1 slot cls.val big)))

/-- KEY_CLEAR: CIP_KEY_CMD op CLEAR (R368). -/
def execKeyClear (slot : Nat) (s : State) : Host.Outcome State Fault Refusal :=
  finish s (s.dev.whenHub (fun d => if 255 < slot then d.keyClear slot else d.keyCmd (keyCmdWord 2 slot 0 false)))

/-- ROOT_KEY_BLOW: CIP_ROOT_CTRL.blow is set (R367). -/
def execRootKeyBlow (s : State) : Host.Outcome State Fault Refusal := finish s (s.dev.whenHub (fun d => d.rootBlowStart))

/-- ROOT_KEY_BLOW_DONE: The root key blow ends; failed has the bits that did not blow (R367, R475). -/
def execRootKeyBlowDone (failed : Nat) (s : State) : Host.Outcome State Fault Refusal := finish s (s.dev.whenHub (fun d => d.rootBlowDone failed))

/-- CLASS_LIMIT_WRITE: A write to a class limit (R371). -/
def execClassLimitWrite (c : Fin 4) (w : Word) (s : State) : Host.Outcome State Fault Refusal :=
  finish s (s.dev.whenHub (fun d => d.classWrite c.val w))

/-- CIPHER_JOB_START: An accepted job is given to a free AES core (R376). -/
def execCipherJobStart (s : State) : Host.Outcome State Fault Refusal := finish s (s.dev.whenHub (fun d => d.cipStart))

/-- CIPHER_JOB_COMPLETE: The oldest running job of a core ends (R374, R376). -/
def execCipherJobComplete (c : CoreId) (s : State) : Host.Outcome State Fault Refusal := finish s (s.dev.whenHub (fun d => d.cipComplete c.val))

/-- CJ_RESULT_READ: A read of CJ_RESULT (R376). -/
def execCjResultRead (c : CoreId) (s : State) : Host.Outcome State Fault Refusal := finish s (s.dev.whenHub (fun d => d.readCjResult c.val))

/-- STR_OWNER_WRITE: A write to STR_OWNER by a core, or by the Command Port as 64 (R379). -/
def execStrOwnerWrite (who : Fin 65) (v : Word) (s : State) : Host.Outcome State Fault Refusal :=
  finish s (s.dev.whenHub (fun d => d.strOwner who.val v.toNat))

/-- STR_START: STR_CTRL is written with start 1 (R379). -/
def execStrStart (who : Fin 65) (w : Word) (s : State) : Host.Outcome State Fault Refusal :=
  finish s (s.dev.whenHub (fun d => d.asStr who.val (fun d => d.strStart w)))

/-- STR_ABORT: STR_CTRL.abort is set (R379). -/
def execStrAbort (who : Fin 65) (s : State) : Host.Outcome State Fault Refusal := finish s (s.dev.whenHub (fun d => d.asStr who.val Dev.strAbort))

/-- STR_DIN_WRITE: A write to STR_DIN; it waits while din_free is 0 (R379). -/
def execStrDinWrite (who : Fin 65) (w : Word) (s : State) : Host.Outcome State Fault Refusal :=
  finish s (s.dev.whenHub (fun d => d.asStr who.val (fun d => (d.strDin w).1)))

/-- STR_DOUT_READ: A read of STR_DOUT; it waits until a word is there (R379). -/
def execStrDoutRead (who : Fin 65) (s : State) : Host.Outcome State Fault Refusal :=
  finish s (s.dev.whenHub (fun d => d.asStr who.val (fun d => d.strDout.1)))

/-- STREAM_JOB_END: A stream job ends (R379). -/
def execStreamJobEnd (s : State) : Host.Outcome State Fault Refusal := finish s (s.dev.whenHub (fun d => d.strEnd))

/-- CIP_SLOT_IDX_WRITE: A write to CIP_SLOT_IDX (R365). -/
def execCipSlotIdxWrite (n : Nat) (s : State) : Host.Outcome State Fault Refusal := finish s (s.dev.whenHub (fun d => d.slotIdx n))

end Sys2Proof.Machine
end

