-- ==== Sys2Proof/Machine/ClkOps.lean ====
section
/-! DEFINITION. The Clockwork rows that act alone: snapshot reads, references, time of day and PPS_OUT (02_clockwork.md). -/

namespace Sys2Proof.Machine

open Sys2Proof

/-- CLK_NT_SEC_HI_READ: A read of CLK_NT_SEC_HI latches NT, superframe and slot and returns its word (R40). -/
def execClkNtSecHiRead (s : State) : Host.Outcome State Fault Refusal := finish s (s.dev.whenHub (fun d => d.readNtSecHi))

/-- CLK_SLOT_READ: A read of CLK_SLOT returns the snapshot and releases it (R40). -/
def execClkSlotRead (s : State) : Host.Outcome State Fault Refusal := finish s (s.dev.whenHub (fun d => d.readClkSlot))

/-- CLK_SNAPSHOT_TIMEOUT: 1 ms after the latch the snapshot is released (R40). -/
def execClkSnapshotTimeout (t : Nat) (s : State) : Host.Outcome State Fault Refusal := finish s (s.dev.whenHub (fun d => (d.at_ t).snapTimeout))

/-- PPS_EDGE: A filtered PPS_IN edge at NT t (R46, R47, R49). -/
def execPpsEdge (t : Nat) (s : State) : Host.Outcome State Fault Refusal := finish s (s.dev.whenHub (fun d => (d.at_ t).ppsEdge t))

/-- PTP_MESSAGE: A PTP message reaches Clockwork (R45). -/
def execPtpMessage (m : PtpMsg) (t : Nat) (s : State) : Host.Outcome State Fault Refusal :=
  finish s (s.dev.whenHub (fun d => (d.at_ t).ptpTaken m))

/-- REF10M_MEASUREMENT: A 1 s measurement of REF10M_IN against XO ends, in ppb (R47). -/
def execRef10mMeasurement (ppb : Int) (t : Nat) (s : State) : Host.Outcome State Fault Refusal :=
  finish s (s.dev.whenHub (fun d => (d.at_ t).refMeasure ppb))

/-- REFERENCE_TIMEOUT: A reference has had no accepted sample for 3 s (R48). -/
def execReferenceTimeout (k : RefId) (t : Nat) (s : State) : Host.Outcome State Fault Refusal :=
  finish s (s.dev.whenHub (fun d => (d.at_ t).refTimeout k))

/-- CLK_TOD_LOAD: CLK_TOD_CTRL.load is set (R49). -/
def execClkTodLoad (s : State) : Host.Outcome State Fault Refusal := finish s (s.dev.whenHub (fun d => d.todLoad))

/-- PPS_OUT_RISE: PPS_OUT rises at a whole second (R53). -/
def execPpsOutRise (t : Nat) (s : State) : Host.Outcome State Fault Refusal := finish s (s.dev.whenHub (fun d => (d.at_ t).ppsRiseNow))

/-- PPS_OUT_FALL: PPS_OUT falls out_width later (R53). -/
def execPpsOutFall (t : Nat) (s : State) : Host.Outcome State Fault Refusal := finish s (s.dev.whenHub (fun d => (d.at_ t).ppsFallNow))

end Sys2Proof.Machine
end

