-- ==== Sys2Proof/Machine/CmdOps.lean ====
section
/-! DEFINITION. The Command Port, its transports and its commands, and the power states (18_configuration_and_commands.md, 19_power_and_wake.md). The commands of the opcode table act on the command at the head of the queue. -/

namespace Sys2Proof.Machine

open Sys2Proof

/-- I2C_WRITE_TRANSACTION: An I2C write transaction carries one command (R429, R430). -/
def execI2cWriteTransaction (bytes : Bytes) (ecc : List StoreErr) (s : State) : Host.Outcome State Fault Refusal :=
  finish s (s.dev.whenHub (fun d => (d.storeErrs ecc).i2cWrite bytes))

/-- I2C_READ_TRANSACTION: An I2C read transaction of n bytes (R430). -/
def execI2cReadTransaction (n : Nat) (s : State) : Host.Outcome State Fault Refusal := finish s (s.dev.whenHub (fun d => d.i2cRead n))

/-- I2C_TIMEOUT: The I2C bus is stuck: the partial command is discarded (R477). -/
def execI2cTimeout (s : State) : Host.Outcome State Fault Refusal := finish s (s.dev.whenHub (fun d => if d.portAnswers then d.raise 13 else d))

/-- MGMT_FRAME_AUTH: The CMAC of the oldest management frame has been computed (R431, R432). -/
def execMgmtFrameAuth (s : State) : Host.Outcome State Fault Refusal := finish s (s.dev.whenHub (fun d => d.frameAuth))

/-- REPLAY_LOG_DONE: The replay-counter log write completes (R474). -/
def execReplayLogDone (s : State) : Host.Outcome State Fault Refusal := finish s (s.dev.whenHub (fun d => d.logDone))

/-- NOTIFY_FRAME_SEND: The notifications collected over 1 ms leave (R483). -/
def execNotifyFrameSend (s : State) : Host.Outcome State Fault Refusal := finish s (s.dev.whenHub (fun d => d.notifySend))

/-- READ: READ: the executor reads up to the given number of words (R423, R509). -/
def execRead (words : Nat) (s : State) : Host.Outcome State Fault Refusal := finish s (s.dev.whenHub (fun d => d.cmdRead words))

/-- WRITE: WRITE: the executor writes up to the given number of words (R423, R509). -/
def execWrite (words : Nat) (s : State) : Host.Outcome State Fault Refusal := finish s (s.dev.whenHub (fun d => d.cmdWrite words))

/-- WRITE_MASKED: WRITE_MASKED (R425, R509). -/
def execWriteMasked (s : State) : Host.Outcome State Fault Refusal := finish s (s.dev.whenHub (fun d => d.cmdMasked))

/-- TABLE_WRITE: TABLE_WRITE: the executor writes up to the given number of words (R424, R428, R509). -/
def execTableWrite (words : Nat) (s : State) : Host.Outcome State Fault Refusal := finish s (s.dev.whenHub (fun d => d.cmdTable words))

/-- STAGE: STAGE (R435). -/
def execStage (s : State) : Host.Outcome State Fault Refusal := finish s (s.dev.whenHub (fun d => d.cmdStage))

/-- ARM: ARM (R58, R64, R426). -/
def execArm (s : State) : Host.Outcome State Fault Refusal := finish s (s.dev.whenHub (fun d => d.cmdArm))

/-- ABORT: ABORT completes in its place (R428). -/
def execAbort (s : State) : Host.Outcome State Fault Refusal := finish s (s.dev.whenHub (fun d => d.cmdAbort))

/-- STATUS: STATUS (R426). -/
def execStatus (s : State) : Host.Outcome State Fault Refusal := finish s (s.dev.whenHub (fun d => d.cmdSnapshot))

/-- NVM_WRITE_OPEN: NVM_WRITE OPEN starts (R434). -/
def execNvmWriteOpen (s : State) : Host.Outcome State Fault Refusal := finish s (s.dev.whenHub (fun d => d.nvmOpen))

/-- NVM_WRITE_DATA: NVM_WRITE DATA starts (R434). -/
def execNvmWriteData (s : State) : Host.Outcome State Fault Refusal := finish s (s.dev.whenHub (fun d => d.nvmData))

/-- NVM_WRITE_CLOSE: NVM_WRITE CLOSE: its seq is compared, and the copy checked (R434). -/
def execNvmWriteClose (s : State) : Host.Outcome State Fault Refusal := finish s (s.dev.whenHub (fun d => d.nvmClose))

/-- NVM_PHASE_DONE: The erase or program of a phase ends, failed or not (R434). -/
def execNvmPhaseDone (ok : Bool) (s : State) : Host.Outcome State Fault Refusal := finish s (s.dev.whenHub (fun d => d.nvmPhaseDone ok))

/-- POWER_ENTER_VIGIL: POWER, enter VIGIL (R442, R444). -/
def execPowerEnterVigil (t : Nat) (s : State) : Host.Outcome State Fault Refusal := finish s (s.dev.whenHub (fun d => (d.at_ t).enterVigil))

/-- POWER_ENTER_DORMANT: POWER, enter DORMANT (R443, R444). -/
def execPowerEnterDormant (t : Nat) (s : State) : Host.Outcome State Fault Refusal := finish s (s.dev.whenHub (fun d => (d.at_ t).enterDormant))

/-- POWER_DOMAIN_OFF: POWER, one domain off (R438, R439). -/
def execPowerDomainOff (t : Nat) (s : State) : Host.Outcome State Fault Refusal := finish s (s.dev.whenHub (fun d => (d.at_ t).domainOff))

/-- POWER_DOMAIN_ON: POWER, one domain on (R438, R440). -/
def execPowerDomainOn (t : Nat) (s : State) : Host.Outcome State Fault Refusal := finish s (s.dev.whenHub (fun d => (d.at_ t).domainOn))

/-- DRAIN_END: A fenced domain has drained, or 100 us have passed with a transfer unfinished (R439, R442, R443). -/
def execDrainEnd (dom : Fin 9) (unfinished : Bool) (t : Nat) (s : State) : Host.Outcome State Fault Refusal :=
  finish s (s.dev.whenHub (fun d => (d.at_ t).drainEnd dom.val unfinished))

/-- DOMAIN_POWER_UP_DONE: A domain has powered up (R440, R448). -/
def execDomainPowerUpDone (dom : Fin 9) (t : Nat) (s : State) : Host.Outcome State Fault Refusal :=
  finish s (s.dev.whenHub (fun d => (d.at_ t).domainUp dom.val))

/-- JACK_WRITE_MATCH: A write to Jack's address (R445, R446). -/
def execJackWriteMatch (s : State) : Host.Outcome State Fault Refusal := finish s (let d := s.dev; d.jackWrite)

/-- JACK_READ: A read from Jack's address (R445, R447). -/
def execJackRead (s : State) : Host.Outcome State Fault Refusal := finish s (let d := s.dev; d.jackRead)

/-- WAKE_STAGE_READY: A wake stage reports ready (R448). -/
def execWakeStageReady (t : Nat) (s : State) : Host.Outcome State Fault Refusal := finish s (s.dev.whenAo (fun d => (d.at_ t).wakeReady))

/-- WAKE_STAGE_TIMEOUT: A wake stage times out (R448). -/
def execWakeStageTimeout (t : Nat) (s : State) : Host.Outcome State Fault Refusal := finish s (s.dev.whenAo (fun d => (d.at_ t).wakeTimeout))

end Sys2Proof.Machine
end

