-- ==== Sys2Proof/Machine/EthOps.lean ====
section
/-! DEFINITION. The rows of the MACs, the classifier and the traffic manager that act alone (12_classifier.md to 14_ethernet_macs.md). -/

namespace Sys2Proof.Machine

open Sys2Proof

/-- A link goes up; its SerDes calibration runs (R345, R402). -/
def Dev.linkRise (d : Dev) (n : Nat) (an : Option (Bool × Bool)) : Dev :=
  let e := d.linkUp n an
  if e.macLink n && !d.macLink n then e.calLinkUp n else e

/-- A link goes down; a run of its calibration unit ends (R345, R404). -/
def Dev.linkFall (d : Dev) (n : Nat) : Dev :=
  let e := d.linkDown n
  if d.macLink n && !e.macLink n then e.calLost (fun u => calFam u == 1 && u % 64 == n) else e

/-- The scrub restores each associative entry in error (R322). -/
def Dev.tcamScrub (d : Dev) (errs : List TcamErr) : Dev := d.clsErrs (errs.map ClsErr.tcam)

/-- MAC_FRAME_RECEIVE: A MAC has received a frame or mPacket whole (R346). -/
def execMacFrameReceive (n : MacId) (w : WireRx) (t : Nat) (s : State) : Host.Outcome State Fault Refusal :=
  finish s (s.dev.whenHub (fun d => (d.at_ t).macReceive n.val w))

/-- PAUSE_TIMER_EXPIRE: A received pause time runs out (R351). -/
def execPauseTimerExpire (n : MacId) (t : Nat) (s : State) : Host.Outcome State Fault Refusal :=
  finish s (s.dev.whenHub (fun d => (d.at_ t).pauseExpire n.val))

/-- PAUSE_REFRESH: refresh quanta have passed with use above lo_wm (R349). -/
def execPauseRefresh (n : MacId) (t : Nat) (s : State) : Host.Outcome State Fault Refusal :=
  finish s (s.dev.whenHub (fun d => (d.at_ t).pauseRefresh n.val))

/-- LINK_UP: Lock has held for up_hold; an is what autonegotiation resolved for pauses sent and received (R345). -/
def execLinkUp (n : MacId) (an : Option (Bool × Bool)) (t : Nat) (s : State) : Host.Outcome State Fault Refusal :=
  finish s (s.dev.whenHub (fun d => (d.at_ t).linkRise n.val an))

/-- LINK_DOWN: Lock has been lost for down_hold (R345). -/
def execLinkDown (n : MacId) (t : Nat) (s : State) : Host.Outcome State Fault Refusal := finish s (s.dev.whenHub (fun d => (d.at_ t).linkFall n.val))

/-- VERIFY_TIMER: verify_time passes (R353). -/
def execVerifyTimer (n : MacId) (t : Nat) (s : State) : Host.Outcome State Fault Refusal :=
  finish s (s.dev.whenHub (fun d => (d.at_ t).verifyTimer n.val))

/-- MAC_CNT_CLR: MAC_CNT_CLR.clear is set (R364). -/
def execMacCntClr (n : MacId) (s : State) : Host.Outcome State Fault Refusal := finish s (s.dev.whenHub (fun d => d.clearCounters n.val))

/-- MAC_CNT_HI_READ: A read of MAC_CNT_c_HI (R362). -/
def execMacCntHiRead (n : MacId) (c : Fin 64) (s : State) : Host.Outcome State Fault Refusal :=
  finish s (s.dev.whenHub (fun d => d.readCntHi n.val c.val))

/-- MAC_CNT_LO_READ: A read of MAC_CNT_c_LO (R362). -/
def execMacCntLoRead (n : MacId) (c : Fin 64) (s : State) : Host.Outcome State Fault Refusal :=
  finish s (s.dev.whenHub (fun d => d.readCntLo n.val c.val))

/-- MAC_PTP_TX_SEC_HI_READ: A read of MAC_PTP_TX_SEC_HI (R360). -/
def execMacPtpTxSecHiRead (n : MacId) (s : State) : Host.Outcome State Fault Refusal := finish s (s.dev.whenHub (fun d => d.readPtpHi n.val))

/-- MAC_PTP_TX_ID_READ: A read of MAC_PTP_TX_ID (R360). -/
def execMacPtpTxIdRead (n : MacId) (s : State) : Host.Outcome State Fault Refusal := finish s (s.dev.whenHub (fun d => d.readPtpId n.val))

/-- PCS_LOCK_CHANGE: The PCS or FEC lock of a MAC changes (R345). -/
def execPcsLockChange (n : MacId) (pcs fec : Bool) (t : Nat) (s : State) : Host.Outcome State Fault Refusal :=
  finish s (s.dev.whenHub (fun d => (d.at_ t).lockChange n.val pcs fec))

/-- CLASSIFY_FRAME: The classifier takes the oldest frame of a receive buffer (R304 to R323, R347). -/
def execClassifyFrame (n : MacId) (errs : List ClsErr) (t : Nat) (s : State) : Host.Outcome State Fault Refusal :=
  finish s (s.dev.whenHub (fun d => ((d.at_ t).classify n.val errs).dispatch))

/-- FRAGMENT_WAIT_EXPIRE: A held later fragment has waited 50 ms (R321). -/
def execFragmentWaitExpire (t : Nat) (s : State) : Host.Outcome State Fault Refusal := finish s (s.dev.whenHub (fun d => (d.at_ t).fragWaitExpire))

/-- FRAGMENT_ENTRY_EXPIRE: A stored fragment decision is 2 s old (R321). -/
def execFragmentEntryExpire (t : Nat) (s : State) : Host.Outcome State Fault Refusal := finish s (s.dev.whenHub (fun d => (d.at_ t).fragEntryExpire))

/-- TCAM_SCRUB: The background scrub of the associative table (R322). -/
def execTcamScrub (errs : List TcamErr) (s : State) : Host.Outcome State Fault Refusal := finish s (s.dev.whenHub (fun d => d.tcamScrub errs))

/-- POLICER_WRITE: A write to a policer word (R330). -/
def execPolicerWrite (p : Fin 1024) (word : Fin 4) (w : Word) (s : State) : Host.Outcome State Fault Refusal :=
  finish s (s.dev.whenHub (fun d => d.policerWrite p.val word.val w))

/-- EGRESS_FRAME_START: A port selects and starts a frame (R333). -/
def execEgressFrameStart (n : MacId) (e : QErr) (t : Nat) (s : State) : Host.Outcome State Fault Refusal :=
  finish s (s.dev.whenHub (fun d => (d.at_ t).egressStart n.val e))

/-- EGRESS_FRAME_END: A frame finishes on the wire (R348). -/
def execEgressFrameEnd (n : MacId) (t : Nat) (s : State) : Host.Outcome State Fault Refusal :=
  finish s (s.dev.whenHub (fun d => (d.at_ t).egressEnd n.val))

/-- GATE_STATE_CHANGE: A gate-list boundary of a port is reached (R336, R339, R355). -/
def execGateStateChange (n : MacId) (t : Nat) (s : State) : Host.Outcome State Fault Refusal :=
  finish s (s.dev.whenHub (fun d => (d.at_ t).gateBoundary n.val))

/-- SHP_VT_HI_READ: A read of SHP_PORT_n_VT_HI (R333). -/
def execShpVtHiRead (n : MacId) (s : State) : Host.Outcome State Fault Refusal := finish s (s.dev.whenHub (fun d => d.readVtHi n.val))

end Sys2Proof.Machine
end

