-- ==== Sys2Proof/Machine/KalOps.lean ====
section
/-! DEFINITION. The Kaleidoscope rows: combiner blocks, captures, detectors, maps, overload, mask and symbol buffers, and the scheduler rows that act alone (05_kaleidoscope.md, 08_access_scheduler.md). -/

namespace Sys2Proof.Machine

open Sys2Proof

/-- A detector's evaluation with its metric; a join detection makes its capture and task (R151, R168). -/
def Dev.detectorEvaluated (d : Dev) (r k metric t : Nat) : Dev :=
  match d.detEval r k metric with
  | (e, true) => if e.detMode r k = 1 then (e.joinDetected r k t).dispatch else e
  | (e, false) => e

/-- A detector evaluates its stream where four symbol periods have passed since it last did (R151). -/
def Dev.detectorDue (d : Dev) (r k gain : Nat) : Dev :=
  if d.detDue r k then (d.detTimed r k).detectorEvaluated r k (d.detMetric r k gain) d.nt else d

/-- A capture's last sample is written; x0, x1: the ports' input of the millisecond under way (R148, R151). -/
def Dev.captureDone (d : Dev) (r c : Nat) (x0 x1 : List IQ) : Dev := (((d.lastSamples r c x0 x1).writeCapture r c).fillCapture r c).dispatch

/-- DIVERSITY_BLOCK: A 1 ms block ends, that of millisecond ms of NT: both ports' input passes the notches, the analysis banks and the combiner (R138 to R143). -/
def execDiversityBlock (r : RadioId) (ms : Nat) (x0 x1 : List IQ) (t : Nat) (s : State) : Host.Outcome State Fault Refusal :=
  finish s (s.dev.whenHub (fun d => if d.radioUp r.val then (d.at_ t).takeBlock r.val ms x0 x1 else d))

/-- OCC_MAP_CLOSE: The occupancy map of absolute slot a closes; x0, x1 give the ports' input of the millisecond under way (R152, R153). -/
def execOccMapClose (r : RadioId) (a : Nat) (x0 x1 : List IQ) (t : Nat) (s : State) : Host.Outcome State Fault Refusal :=
  finish s (s.dev.whenHub (fun d => (d.at_ t).closeMap r.val a x0 x1))

/-- DETECTOR_EVALUATION: A detector evaluates its input, at the scale given (R150, R151). -/
def execDetectorEvaluation (r : RadioId) (k : Fin 1536) (gain : Nat) (t : Nat) (s : State) : Host.Outcome State Fault Refusal :=
  finish s (s.dev.whenHub (fun d => (d.at_ t).detectorDue r.val k.val gain))

/-- CAPTURE_COMPLETE: The last sample of a capture is written; xs gives the ports' input of the millisecond under way (R148, R151). -/
def execCaptureComplete (r : RadioId) (c : Fin 256) (xs : List (IQ × IQ)) (t : Nat) (s : State) : Host.Outcome State Fault Refusal :=
  finish s (s.dev.whenHub (fun d => if d.radioUp r.val then (d.at_ t).captureDone r.val c.val (xs.map (·.1)) (xs.map (·.2)) else d))

/-- OVERLOAD_INTERVAL: A 1 ms interval ends with clipped samples on each port (R161). -/
def execOverloadInterval (r : RadioId) (c0 c1 : Nat) (t : Nat) (s : State) : Host.Outcome State Fault Refusal :=
  finish s (s.dev.whenHub (fun d => (d.at_ t).overload r.val c0 c1))

/-- MASK_CHECK: A millisecond of the mask checker, with each bin's level at the port in 0.25 dBm (R160). -/
def execMaskCheck (r : RadioId) (bins : List (Nat × Int)) (t : Nat) (s : State) : Host.Outcome State Fault Refusal :=
  finish s (s.dev.whenHub (fun d => (d.at_ t).maskCheck r.val bins))

/-- TX_BUFFER_FETCH: The synthesis bank fetches the symbol buffers of a burst set (R155). -/
def execTxBufferFetch (r : RadioId) (handle : Fin 1024) (t : Nat) (s : State) : Host.Outcome State Fault Refusal :=
  finish s (s.dev.whenHub (fun d => (d.at_ t).fetchBuffers r.val handle.val))

/-- SCH_SLOT_OVERRUN: 1 ms after a slot start not every task of the slot is created (R228). -/
def execSchSlotOverrun (t : Nat) (s : State) : Host.Outcome State Fault Refusal := finish s (s.dev.whenHub (fun d => (d.at_ t).slotOverrun))

/-- DOWNLINK_TASK_CREATE: T - dl_lead of a context's window or response is reached (R222 to R224). -/
def execDownlinkTaskCreate (i : Fin 65536) (t : Nat) (s : State) : Host.Outcome State Fault Refusal :=
  finish s (s.dev.whenHub (fun d => (d.at_ t).downlinkDue i.val (max d.nt t)))

end Sys2Proof.Machine
end

