-- ==== Sys2Proof/Machine/MarOps.lean ====
section
/-! DEFINITION. The Marionette instructions, one meaning each (11_marionette_instructions.md, R287 to R302), and the rows about a core's interrupts,
timer, transfers, doorbell and completion (R273 to R281). A command names the core; it acts on the core's next slot, and only when that slot holds its
operation (log entry 4). -/

namespace Sys2Proof.Machine

open Sys2Proof

/-- A core of the pool. -/
def cn (c : CoreId) : Nat := c.val

/-! ## Memory, move and pointer operations (X and Y slots) -/

/-- The opcodes the reference leaves reserved (R287, R293). -/
def reservedOp (isC : Bool) (op : Nat) : Bool :=
  if isC then (decide (0x0B < op) && decide (op < 0x10)) || (decide (0x17 < op) && decide (op < 0x20)) || decide (0x25 < op) else decide (0xB < op)

/-- NOP (R283, R288): nothing, in any slot. A slot with a reserved opcode traps here, before anything of its bundle. -/
def Dev.marNop (d : Dev) (c : Nat) : Dev :=
  let k := d.mcore c
  let isC := k.slot == 0
  if k.slotOp = 0 || reservedOp isC k.slotOp then d.operation c isC k.slotOp (fun d => (d, true)) else d

/-- LDW: Dr = word at Pp, seen at n + 3 (R288, R289). -/
def Dev.marLdw (d : Dev) (c : Nat) (ecc : LoadEcc) : Dev := d.loader c 0x1 4 ecc (fun k w v => k.writeFull 3 (xR w) v)

/-- LDH: the half h of Dr, the other half kept (R288, R289). -/
def Dev.marLdh (d : Dev) (c : Nat) (ecc : LoadEcc) : Dev := d.loader c 0x2 2 ecc (fun k w v => k.writeHalf 3 (xR w) (xH w) v)

/-- LDP: Pi or Mi = bits [19:0] of the word (R288). -/
def Dev.marLdp (d : Dev) (c : Nat) (ecc : LoadEcc) : Dev := d.loader c 0x5 4 ecc (fun k w v => k.writeFull 3 (xPM w) (v % 2 ^ 20))

/-- STW, STH and STP (R288). -/
def Dev.marStw (d : Dev) (c : Nat) : Dev := d.storer c 0x3 4
def Dev.marSth (d : Dev) (c : Nat) : Dev := d.storer c 0x4 2
def Dev.marStp (d : Dev) (c : Nat) : Dev := d.storer c 0x6 4

/-- The value a MOV reads from a register code, as it enters a wider target (R290). -/
def Core.movRead (k : Core) (code : Nat) : Int :=
  if code < 16 then k.dw code
  else if code < 24 then k.ptr (code - 16)
  else if code < 32 then k.mod_ (code - 24)
  else if code < 34 then (k.nat code % 65536 : Nat)
  else if code = 34 then k.sr
  else (k.nat keyRPC % 8192 : Nat)

/-- MOV (R290): D targets are seen at n + 1, the others at n + 3 (R261). -/
def Core.mov (k : Core) (w : Nat) : Core :=
  let dst := bitsOf 11 6 w
  let v := k.movRead (w % 64)
  if dst < 16 then k.writeFull 1 dst (wrapNat 32 v)
  else if dst < 32 then k.writeFull 3 dst (wrapNat 20 v)
  else if dst < 34 then k.writeFull 3 dst (wrapNat 16 v)
  else if dst = 34 then k.write 3 keySR (.srMove (BitVec.ofInt 16 v))
  else k.writeFull 3 keyRPC (wrapNat 13 v)

/-- MOV. -/
def Dev.marMov (d : Dev) (c : Nat) : Dev := d.mover c 0x7 Core.mov

/-- MVA: an accumulator to a D register through R266, setting SR.sat on a clamp (R291). -/
def Core.mva (k : Core) (w : Nat) : Core :=
  let a := k.acc (bitsOf 7 6 w)
  let form := bitsOf 5 4 w
  if form = 0 then
    let (v, s) := wordMove a k.srScale
    (k.writeFull 1 (xR w) (wrapNat 32 v)).writeFlags none s false
  else
    let (v, s) := halfMove a k.srScale
    (k.writeHalf 1 (xR w) (form == 2) (wrapNat 16 v)).writeFlags none s false
def Dev.marMva (d : Dev) (c : Nat) : Dev := d.mover c 0x8 Core.mva

/-- MTA: a D register to an accumulator, a half at bits [30:15] (R291, R266). -/
def Core.mta (k : Core) (w : Nat) : Core :=
  let form := bitsOf 5 4 w
  let v : Int := if form = 0 then sext 32 (k.dw (xR w)) else k.sh (xR w) (form == 2) * 32768
  k.writeInt 1 (keyACC (bitsOf 7 6 w)) v
def Dev.marMta (d : Dev) (c : Nat) : Dev := d.mover c 0x9 Core.mta

/-- MODP: the pointer plus its modifier, with no access (R288). -/
def Dev.marModp (d : Dev) (c : Nat) : Dev := d.mover c 0xA (fun k w => k.postModify w 4)

/-- LDIM: a signed 8-bit immediate to P or M, seen at n + 3 (R292). -/
def Dev.marLdim (d : Dev) (c : Nat) : Dev := d.mover c 0xB (fun k w => k.writeFull 3 (xPM w) (wrapNat 20 (sext 8 w)))

/-! ## Compute operations (C slot) -/

/-- ADD2 and SUB2: each half saturated, setting SR.sat on a clamp (R267, R294). -/
def Core.addHalves (k : Core) (w : Nat) (sign : Int) : Core :=
  let (lo, s0) := sat16 (k.sh (cA w) false + sign * k.sh (cB w) false)
  let (hi, s1) := sat16 (k.sh (cA w) true + sign * k.sh (cB w) true)
  k.result (cD w) (pack lo hi) (s0 || s1)
def Dev.marAdd2 (d : Dev) (c : Nat) : Dev := d.compute c 0x01 (fun k w => k.addHalves w 1)
def Dev.marSub2 (d : Dev) (c : Nat) : Dev := d.compute c 0x02 (fun k w => k.addHalves w (-1))

/-- ADDW and SUBW modulo 2^32 (R294). -/
def Core.total (k : Core) (w : Nat) : Nat := (k.dw (cA w) + k.dw (cB w)) % 2 ^ 32
def Dev.marAddw (d : Dev) (c : Nat) : Dev := d.compute c 0x03 (fun k w => k.result (cD w) (k.total w) false)
def Core.difference (k : Core) (w : Nat) : Nat := (k.dw (cA w) + 2 ^ 32 - k.dw (cB w)) % 2 ^ 32
def Dev.marSubw (d : Dev) (c : Nat) : Dev := d.compute c 0x04 (fun k w => k.result (cD w) (k.difference w) false)

/-- AND, OR and XOR (R294). -/
def Dev.marAnd (d : Dev) (c : Nat) : Dev := d.compute c 0x05 (fun k w => k.result (cD w) (k.dw (cA w) &&& k.dw (cB w)) false)
def Dev.marOr (d : Dev) (c : Nat) : Dev := d.compute c 0x06 (fun k w => k.result (cD w) (k.dw (cA w) ||| k.dw (cB w)) false)
def Dev.marXor (d : Dev) (c : Nat) : Dev := d.compute c 0x07 (fun k w => k.result (cD w) (k.dw (cA w) ^^^ k.dw (cB w)) false)

/-- SHIFT (R294): word arithmetic right, word left, halves arithmetic right, halves left saturated. -/
def Core.shift (k : Core) (w : Nat) : Core :=
  let a := cA w
  let n : Nat := 2 ^ (w % 32)
  match bitsOf 13 12 w with
  | 0 => k.result (cD w) (wrapNat 32 (sext 32 (k.dw a) / (n : Int))) false
  | 1 => k.result (cD w) (k.dw a * n % 2 ^ 32) false
  | 2 => k.result (cD w) (pack (k.sh a false / (n : Nat)) (k.sh a true / (n : Nat))) false
  | _ =>
    let (lo, s0) := sat16 (k.sh a false * n)
    let (hi, s1) := sat16 (k.sh a true * n)
    k.result (cD w) (pack lo hi) (s0 || s1)
def Dev.marShift (d : Dev) (c : Nat) : Dev := d.compute c 0x08 Core.shift

/-- CMP: n and z of the wrapped difference, nothing else (R294). -/
def Dev.marCmp (d : Dev) (c : Nat) : Dev :=
  d.compute c 0x09 (fun k w => k.writeFlags (some ((k.difference w).testBit 31, k.difference w == 0)) false false)

/-- LDI's four forms; no flag (R294). -/
def Core.ldi (k : Core) (w : Nat) : Core :=
  let imm := w % 65536
  match bitsOf 21 20 w with
  | 0 => k.writeHalf 1 (cD w) false imm
  | 1 => k.writeHalf 1 (cD w) true imm
  | 2 => k.writeFull 1 (cD w) (wrapNat 32 (sext 16 imm))
  | _ => k.writeFull 1 (cD w) imm
def Dev.marLdi (d : Dev) (c : Nat) : Dev := d.compute c 0x0A Core.ldi

/-- LDIP: a 20-bit immediate to P or M, seen at n + 3 (R298). -/
def Dev.marLdip (d : Dev) (c : Nat) : Dev :=
  d.compute c 0x0B (fun k w => k.writeFull 3 ((if w.testBit 25 then keyM else keyP) (bitsOf 24 22 w)) (w % 2 ^ 20))

/-- Fields of the MAC family (R293). -/
def mAcc (w : Nat) : Nat := bitsOf 25 24 w
def mA (w : Nat) : Nat := bitsOf 23 20 w
def mB (w : Nat) : Nat := bitsOf 19 16 w
def mClr (w : Nat) : Bool := w.testBit 12
def mNeg (w : Nat) : Bool := w.testBit 13

/-- The accumulator before the products, 0 under clr (R295). -/
def Core.accStart (k : Core) (n w : Nat) : Int := if mClr w then 0 else k.acc n

/-- An accumulation: the exact sum modulo 2^40, setting aov on a wrap (R265). -/
def Core.accumulate (k : Core) (n : Nat) (v : Int) : Core := (k.writeInt 1 (keyACC n) (wrap40 v).1).writeFlags none false (wrap40 v).2

/-- MAC of the two halves named (R295). -/
def Core.mac (k : Core) (w : Nat) : Core :=
  let p := k.sh (mA w) (w.testBit 15) * k.sh (mB w) (w.testBit 14)
  k.accumulate (mAcc w) (k.accStart (mAcc w) w + if mNeg w then -p else p)
def Dev.marMac (d : Dev) (c : Nat) : Dev := d.compute c 0x10 Core.mac

/-- MAC2: both half products (R295). -/
def Core.mac2 (k : Core) (w : Nat) : Core :=
  let p := k.sh (mA w) false * k.sh (mB w) false + k.sh (mA w) true * k.sh (mB w) true
  k.accumulate (mAcc w) (k.accStart (mAcc w) w + if mNeg w then -p else p)
def Dev.marMac2 (d : Dev) (c : Nat) : Dev := d.compute c 0x11 Core.mac2

/-- CMAC on the accumulator pair that starts at acc (R265, R295). -/
def Core.cmac (k : Core) (w : Nat) : Core :=
  let (re, im) := cmul (k.sh (mA w) false) (k.sh (mA w) true) (k.sh (mB w) false) (k.sh (mB w) true) (mNeg w)
  (k.accumulate (mAcc w) (k.accStart (mAcc w) w + re)).accumulate (mAcc w + 1) (k.accStart (mAcc w + 1) w + im)
def Dev.marCmac (d : Dev) (c : Nat) : Dev := d.compute c 0x12 Core.cmac

/-- CMUL: the complex product through the half move at SR.scale (R296). -/
def Core.cmulOp (k : Core) (w : Nat) : Core :=
  let (re, im) := cmul (k.sh (cA w) false) (k.sh (cA w) true) (k.sh (cB w) false) (k.sh (cB w) true) (w.testBit 13)
  let (lo, s0) := halfMove re k.srScale
  let (hi, s1) := halfMove im k.srScale
  (k.writeFull 1 (cD w) (pack lo hi)).writeFlags none (s0 || s1) false
def Dev.marCmul (d : Dev) (c : Nat) : Dev := d.compute c 0x13 Core.cmulOp

/-- ACCOP: clear, add, subtract, negate (R297). -/
def Core.accop (k : Core) (w : Nat) : Core :=
  let a := bitsOf 25 24 w
  let b := bitsOf 23 22 w
  let v := match bitsOf 21 20 w with
    | 0 => 0
    | 1 => k.acc a + k.acc b
    | 2 => k.acc a - k.acc b
    | _ => -k.acc a
  k.accResult a (wrap40 v).1 false (wrap40 v).2
def Dev.marAccop (d : Dev) (c : Nat) : Dev := d.compute c 0x14 Core.accop

/-- NORM by an immediate or a D half (R269, R297). -/
def Core.normOp (k : Core) (w : Nat) : Core :=
  let a := bitsOf 25 24 w
  let s := if w.testBit 23 then k.sh (bitsOf 22 19 w) (w.testBit 18) else sext 8 w
  let (v, sat) := norm (k.acc a) s
  k.accResult a v sat false
def Dev.marNorm (d : Dev) (c : Nat) : Dev := d.compute c 0x15 Core.normOp

/-- EXP, and its minimum form (R268, R297). -/
def Core.expOp (k : Core) (w : Nat) : Core :=
  let e := if w.testBit 19 then exp40 (k.nat (keyACC (bitsOf 13 12 w))) else exp16 (k.half (bitsOf 18 15 w) (w.testBit 14))
  let high := w.testBit 21
  let v := if w.testBit 20 then min (k.sh (cD w) high) e else e
  k.writeHalf 1 (cD w) high (wrapNat 16 v)
def Dev.marExp (d : Dev) (c : Nat) : Dev := d.compute c 0x16 Core.expOp

/-- ACS, one trellis butterfly (R299). -/
def Core.acs (k : Core) (w : Nat) : Core :=
  let bm := k.sh (cB w) (w.testBit 9)
  let al := k.sh (cA w) false
  let ah := k.sh (cA w) true
  let cc := bitsOf 13 10 w
  let x0 := sat16 (al + bm)
  let y0 := sat16 (ah - bm)
  let x1 := sat16 (al - bm)
  let y1 := sat16 (ah + bm)
  let dec := bitOf (decide (x1.1 < y1.1)) * 2 + bitOf (decide (x0.1 < y0.1))
  let k := k.writeFull 1 (cD w) (pack (max x0.1 y0.1) (max x1.1 y1.1))
  let k := k.writeFull 1 cc ((k.dw cc * 4 + dec) % 2 ^ 32)
  k.writeFlags none (x0.2 || y0.2 || x1.2 || y1.2) false
def Dev.marAcs (d : Dev) (c : Nat) : Dev := d.compute c 0x17 Core.acs

/-! ## Control operations (C slot) -/

/-- The branch conditions (R301). -/
def Core.condition (k : Core) (cond : Nat) : Bool :=
  let z := k.sr.testBit 0
  let n := k.sr.testBit 1
  match cond with
  | 0 => true
  | 1 => z
  | 2 => !z
  | 3 => n
  | 4 => !n
  | 5 => !n && !z
  | 6 => n || z
  | 7 => k.sr.testBit 2
  | _ => k.sr.testBit 3

/-- BR: at the target after the delay slots, when the condition holds (R300); a branch not taken has its delay slots too (R262). -/
def Dev.marBr (d : Dev) (c : Nat) : Dev :=
  d.compute c 0x20 (fun k w => if k.condition (cD w) then k.jump (w % 8192) false else { k with delay := 3 })

/-- CALL: Dd takes the address past the delay slots (R300). -/
def Dev.marCall (d : Dev) (c : Nat) : Dev := d.compute c 0x21 (fun k w => (k.writeFull 1 (cD w) (k.pc + 3)).jump (w % 8192) false)

/-- JR: to Dd[12:0] (R300). -/
def Dev.marJr (d : Dev) (c : Nat) : Dev := d.compute c 0x22 (fun k w => k.jump (k.dw (cD w)) false)

/-- RETI: after its delay slots the main bank resumes at RPC, as it then stands (R275). -/
def Dev.marReti (d : Dev) (c : Nat) : Dev := d.compute c 0x23 (fun k _ => k.jump (k.nat keyRPC) true)

/-- REP: the body follows, and from its first bundle on the counter holds the iterations (R270, R271, R302); an earlier move to the counter that has not
landed does not replace them. -/
def Core.rep (k : Core) (w : Nat) : Core :=
  let len := bitsOf 24 19 w + 1
  let count := if w.testBit 25 then k.half (bitsOf 15 12 w) (w.testBit 11) else w % 65536
  let level := k.loops.length
  { k with
    pipe := k.pipe.filter (fun x => x.key != keyLC level) ++ [⟨k.count + 1, keyLC level, .full (BitVec.ofNat 40 count)⟩]
    loops := ⟨k.pc + 1, k.pc + len⟩ :: k.loops }

/-- A REP whose count is 0: its bundle ends with the body skipped. -/
def Core.repSkip (k : Core) (w : Nat) : Core :=
  let len := bitsOf 24 19 w + 1
  let count := if w.testBit 25 then k.half (bitsOf 15 12 w) (w.testBit 11) else w % 65536
  if count = 0 then { k with branch := some (1, k.pc + len + 1, false) } else k.rep w
def Dev.marRep (d : Dev) (c : Nat) : Dev := d.compute c 0x24 Core.repSkip

/-- TRAP: the bundle takes a fatal trap with cause 8 (R300). -/
def Dev.marTrap (d : Dev) (c : Nat) : Dev := d.compute c 0x25 (fun k _ => k)

/-! ## A core's interrupts, timer, budget, transfers and completion -/

/-- CORE_TIMER reaches 0: source 4 (R273); the cycles count while the core runs its task (R246, R281). -/
def Dev.timerZero (d : Dev) (c : Nat) : Dev :=
  let t := d.get (R.CORE_TIMER c) F.CORE_TIMER_count
  if !d.coreDieUp c || t = 0 then d
  else if d.coreRuns c && (d.pcore c).done.isNone then d.coreTick c t
  else (d.setWord (R.CORE_TIMER c) 0).irq c 4

/-- The task has used a number of cycles: CORE_CYCLES shows at least so many. -/
def Dev.cyclesUsed (d : Dev) (c n : Nat) : Dev :=
  d.setWord (R.CORE_CYCLES c) (BitVec.ofNat 32 (max (d.get (R.CORE_CYCLES c) F.CORE_CYCLES_cycles) n))

/-- The budget of the task a core runs, in cycles, as it stood at placement (R246). -/
def Dev.coreBudget (d : Dev) (c : Nat) : Nat := (((d.pcore c).run.bind d.task).map (·.budget)).getD 1 * 1024

/-- The task has used 75% of its budget: source 6 (R273). -/
def Dev.budgetWarn (d : Dev) (c : Nat) : Dev :=
  if d.coreRuns c then (d.cyclesUsed c (d.coreBudget c * 3 / 4)).irq c 6 else d

/-- The task has used more than its budget: the core faults, for the Puppeteer to take (R246). -/
def Dev.budgetOver (d : Dev) (c : Nat) : Dev :=
  if d.coreRuns c && (d.pcore c).done.isNone then
    let d := d.cyclesUsed c (d.coreBudget c + 1)
    let d := d.setMcore c { d.mcore c with running := false, stopped := true }
    d.setPcore c { d.pcore c with fault := 1 }
  else d

/-! ## The commands -/

/-- NOP on a core (R283). -/
def execNop (c : CoreId) (s : State) : Host.Outcome State Fault Refusal := finish s (s.dev.marNop c.val)

/-- LDW on a core (R288). -/
def execLdw (l : CoreLoad) (s : State) : Host.Outcome State Fault Refusal := finish s (s.dev.marLdw l.core.val l.ecc)

/-- LDH on a core (R288). -/
def execLdh (l : CoreLoad) (s : State) : Host.Outcome State Fault Refusal := finish s (s.dev.marLdh l.core.val l.ecc)

/-- STW on a core (R288). -/
def execStw (c : CoreId) (s : State) : Host.Outcome State Fault Refusal := finish s (s.dev.marStw c.val)

/-- STH on a core (R288). -/
def execSth (c : CoreId) (s : State) : Host.Outcome State Fault Refusal := finish s (s.dev.marSth c.val)

/-- LDP on a core (R288). -/
def execLdp (l : CoreLoad) (s : State) : Host.Outcome State Fault Refusal := finish s (s.dev.marLdp l.core.val l.ecc)

/-- STP on a core (R288). -/
def execStp (c : CoreId) (s : State) : Host.Outcome State Fault Refusal := finish s (s.dev.marStp c.val)

/-- MOV on a core (R290). -/
def execMov (c : CoreId) (s : State) : Host.Outcome State Fault Refusal := finish s (s.dev.marMov c.val)

/-- MVA on a core (R291). -/
def execMva (c : CoreId) (s : State) : Host.Outcome State Fault Refusal := finish s (s.dev.marMva c.val)

/-- MTA on a core (R291). -/
def execMta (c : CoreId) (s : State) : Host.Outcome State Fault Refusal := finish s (s.dev.marMta c.val)

/-- MODP on a core (R288). -/
def execModp (c : CoreId) (s : State) : Host.Outcome State Fault Refusal := finish s (s.dev.marModp c.val)

/-- LDIM on a core (R292). -/
def execLdim (c : CoreId) (s : State) : Host.Outcome State Fault Refusal := finish s (s.dev.marLdim c.val)

/-- ADD2 on a core (R294). -/
def execAdd2 (c : CoreId) (s : State) : Host.Outcome State Fault Refusal := finish s (s.dev.marAdd2 c.val)

/-- SUB2 on a core (R294). -/
def execSub2 (c : CoreId) (s : State) : Host.Outcome State Fault Refusal := finish s (s.dev.marSub2 c.val)

/-- ADDW on a core (R294). -/
def execAddw (c : CoreId) (s : State) : Host.Outcome State Fault Refusal := finish s (s.dev.marAddw c.val)

/-- SUBW on a core (R294). -/
def execSubw (c : CoreId) (s : State) : Host.Outcome State Fault Refusal := finish s (s.dev.marSubw c.val)

/-- AND on a core (R294). -/
def execAnd (c : CoreId) (s : State) : Host.Outcome State Fault Refusal := finish s (s.dev.marAnd c.val)

/-- OR on a core (R294). -/
def execOr (c : CoreId) (s : State) : Host.Outcome State Fault Refusal := finish s (s.dev.marOr c.val)

/-- XOR on a core (R294). -/
def execXor (c : CoreId) (s : State) : Host.Outcome State Fault Refusal := finish s (s.dev.marXor c.val)

/-- SHIFT on a core (R294). -/
def execShift (c : CoreId) (s : State) : Host.Outcome State Fault Refusal := finish s (s.dev.marShift c.val)

/-- CMP on a core (R294). -/
def execCmp (c : CoreId) (s : State) : Host.Outcome State Fault Refusal := finish s (s.dev.marCmp c.val)

/-- LDI on a core (R294). -/
def execLdi (c : CoreId) (s : State) : Host.Outcome State Fault Refusal := finish s (s.dev.marLdi c.val)

/-- LDIP on a core (R298). -/
def execLdip (c : CoreId) (s : State) : Host.Outcome State Fault Refusal := finish s (s.dev.marLdip c.val)

/-- MAC on a core (R295). -/
def execMac (c : CoreId) (s : State) : Host.Outcome State Fault Refusal := finish s (s.dev.marMac c.val)

/-- MAC2 on a core (R295). -/
def execMac2 (c : CoreId) (s : State) : Host.Outcome State Fault Refusal := finish s (s.dev.marMac2 c.val)

/-- CMAC on a core (R295). -/
def execCmac (c : CoreId) (s : State) : Host.Outcome State Fault Refusal := finish s (s.dev.marCmac c.val)

/-- CMUL on a core (R296). -/
def execCmul (c : CoreId) (s : State) : Host.Outcome State Fault Refusal := finish s (s.dev.marCmul c.val)

/-- ACCOP on a core (R297). -/
def execAccop (c : CoreId) (s : State) : Host.Outcome State Fault Refusal := finish s (s.dev.marAccop c.val)

/-- NORM on a core (R269). -/
def execNorm (c : CoreId) (s : State) : Host.Outcome State Fault Refusal := finish s (s.dev.marNorm c.val)

/-- EXP on a core (R268). -/
def execExp (c : CoreId) (s : State) : Host.Outcome State Fault Refusal := finish s (s.dev.marExp c.val)

/-- ACS on a core (R299). -/
def execAcs (c : CoreId) (s : State) : Host.Outcome State Fault Refusal := finish s (s.dev.marAcs c.val)

/-- BR on a core (R300). -/
def execBr (c : CoreId) (s : State) : Host.Outcome State Fault Refusal := finish s (s.dev.marBr c.val)

/-- CALL on a core (R300). -/
def execCall (c : CoreId) (s : State) : Host.Outcome State Fault Refusal := finish s (s.dev.marCall c.val)

/-- JR on a core (R300). -/
def execJr (c : CoreId) (s : State) : Host.Outcome State Fault Refusal := finish s (s.dev.marJr c.val)

/-- RETI on a core (R275). -/
def execReti (c : CoreId) (s : State) : Host.Outcome State Fault Refusal := finish s (s.dev.marReti c.val)

/-- REP on a core (R270). -/
def execRep (c : CoreId) (s : State) : Host.Outcome State Fault Refusal := finish s (s.dev.marRep c.val)

/-- TRAP on a core (R300). -/
def execTrap (c : CoreId) (s : State) : Host.Outcome State Fault Refusal := finish s (s.dev.marTrap c.val)

/-- INTERRUPT_TAKE (R274, R275). -/
def execInterruptTake (c : CoreId) (s : State) : Host.Outcome State Fault Refusal := finish s (s.dev.interruptTake c.val)

/-- CORE_TIMER_ZERO (R273). -/
def execCoreTimerZero (c : CoreId) (s : State) : Host.Outcome State Fault Refusal := finish s (s.dev.timerZero c.val)

/-- BUDGET_WARN (R273). -/
def execBudgetWarn (c : CoreId) (s : State) : Host.Outcome State Fault Refusal := finish s (s.dev.budgetWarn c.val)

/-- CYCLE_BUDGET_EXCEEDED (R246). -/
def execCycleBudgetExceeded (c : CoreId) (s : State) : Host.Outcome State Fault Refusal := finish s (s.dev.budgetOver c.val)

/-- CORE_TRU_CTRL_WRITE by the core (R277); it waits while eight transfers are queued. -/
def execCoreTruCtrlWrite (c : CoreId) (w : Word) (s : State) : Host.Outcome State Fault Refusal := finish s (if s.dev.coreRuns c.val && (s.dev.mcore c.val).truWait.isNone then s.dev.truEnqueue c.val w else s.dev)

/-- TRANSFER_COMPLETE: the oldest transfer of a core ends (R277). -/
def execTransferComplete (c : CoreId) (s : State) : Host.Outcome State Fault Refusal := finish s (s.dev.truComplete c.val)

/-- CORE_DOORBELL_WRITE by the core (R273). -/
def execCoreDoorbellWrite (c : CoreId) (target : Fin 32) (s : State) : Host.Outcome State Fault Refusal := finish s (if s.dev.coreRuns c.val then s.dev.doorbell c.val target.val else s.dev)

/-- CORE_IRQ_SET_WRITE by the core (R273). -/
def execCoreIrqSetWrite (c : CoreId) (w : Word) (s : State) : Host.Outcome State Fault Refusal := finish s (if s.dev.coreRuns c.val then (s.dev.ioWrite c.val 0x18 w).1 else s.dev)

/-- OUTPUT_ACCEPT: the outputs of a core's task are accepted at NT t (R281). -/
def execOutputAccept (c : CoreId) (t : Nat) (s : State) : Host.Outcome State Fault Refusal := finish s (s.dev.whenHub (fun d => (d.at_ t).outputAccept c.val))

/-- The Puppeteer takes the fault a core has met, or an uncorrectable error that the core reports in its instruction or data memory (R246). -/
def Dev.coreFault (d : Dev) (c : Nat) (ecc : Bool) : Dev :=
  if ecc then (if d.coreDieUp c then (d.bump (R.MAR_ECC (coreDie c) (c % 32)) F.MAR_ECC_uncorrected).faultTake c 2 else d)
  else if (d.pcore c).fault = 0 then d else d.faultTake c (d.pcore c).fault

/-- CORE_FAULT_TAKE (R246). -/
def execCoreFaultTake (c : CoreId) (ecc : Bool) (s : State) : Host.Outcome State Fault Refusal := finish s (s.dev.whenHub (fun d => d.coreFault c.val ecc))

/-- SELF_TEST_DONE (R249, R252). -/
def execSelfTestDone (c : CoreId) (pass : Bool) (s : State) : Host.Outcome State Fault Refusal := finish s (s.dev.whenHub (fun d => d.selfTestDone c.val pass))

/-- CORE_RETIRE: PUP_CORE_CMD with op 1 (R252). -/
def execCoreRetire (c : CoreId) (s : State) : Host.Outcome State Fault Refusal := finish s (s.dev.whenHub (fun d => d.coreRetire c.val))

/-- CORE_RETURN: PUP_CORE_CMD with op 2 (R252). -/
def execCoreReturn (c : CoreId) (s : State) : Host.Outcome State Fault Refusal := finish s (s.dev.whenHub (fun d => d.coreReturn c.val))

/-- PUP_PEEK_IDX_WRITE (R232). -/
def execPupPeekIdxWrite (i : Fin 8192) (s : State) : Host.Outcome State Fault Refusal := finish s (s.dev.whenHub (fun d => d.peek i.val))

/-- TASK_DEADLINE of the entry at an index, at NT t (R238, R239). -/
def execTaskDeadline (i : Fin 8192) (t : Nat) (s : State) : Host.Outcome State Fault Refusal := finish s (s.dev.whenHub (fun d => (d.at_ t).taskDeadline i.val))

end Sys2Proof.Machine
end

