-- ==== Sys2Proof/Machine/MemOps.lean ====
section
/-! DEFINITION. The DRAM controller and calibration rows (16_dram_controller.md, 17_calibration.md). -/

namespace Sys2Proof.Machine

open Sys2Proof

/-- DRAM_REQUEST_ARRIVE: A requestor's burst request (R386). -/
def execDramRequestArrive (port : Fin 8) (write : Bool) (burst : Fin 67108864) (mask : BitVec 64) (data : Bytes) (t : Nat) (s : State) : Host.Outcome State Fault Refusal :=
  finish s (s.dev.whenHub (fun d => (d.at_ t).dramArrive port.val write burst.val mask.toNat data))

/-- DRAM_REQUEST_ISSUE: A command opportunity of a channel, with the errors its read finds (R389, R396, R397). -/
def execDramRequestIssue (ch : ChanId) (errs : List DramErr) (t : Nat) (s : State) : Host.Outcome State Fault Refusal :=
  finish s (s.dev.whenHub (fun d => (d.at_ t).dramIssue ch.val errs))

/-- REFRESH_DUE: A bank falls due for a refresh (R390, R391). -/
def execRefreshDue (ch : ChanId) (bank : BankId) (t : Nat) (s : State) : Host.Outcome State Fault Refusal :=
  finish s (s.dev.whenHub (fun d => (d.at_ t).refreshDue ch.val bank.val))

/-- IDLE_REFRESH: A bank that owes refreshes becomes idle (R390). -/
def execIdleRefresh (ch : ChanId) (bank : BankId) (t : Nat) (s : State) : Host.Outcome State Fault Refusal :=
  finish s (s.dev.whenHub (fun d => (d.at_ t).idleRefresh ch.val bank.val))

/-- MR4_READ: The refresh multipliers that the two channels ask for, as log2 (R392). -/
def execMr4Read (r0 r1 : Fin 3) (t : Nat) (s : State) : Host.Outcome State Fault Refusal :=
  finish s (s.dev.whenHub (fun d => (d.at_ t).mr4Read r0.val r1.val))

/-- DERATE_WINDOW_CLOSE: A derate window closes (R393). -/
def execDerateWindowClose (t : Nat) (s : State) : Host.Outcome State Fault Refusal := finish s (s.dev.whenHub (fun d => (d.at_ t).derateClose))

/-- PATROL_SCRUB_READ: The patrol scrub reads its next burst (R398). -/
def execPatrolScrubRead (errs : List DramErr) (t : Nat) (s : State) : Host.Outcome State Fault Refusal :=
  finish s (s.dev.whenHub (fun d => (d.at_ t).patrolRead errs))

/-- CAL_TICK: The second of the calibration controller (R401). -/
def execCalTick (t : Nat) (s : State) : Host.Outcome State Fault Refusal := finish s (s.dev.whenHub (fun d => (d.at_ t).calTick))

/-- CAL_LIVE_STEP: A measurement window of a live-verified unit ends with a figure (R405, R407). -/
def execCalLiveStep (u : CalUnit) (fig : Int) (t : Nat) (s : State) : Host.Outcome State Fault Refusal :=
  finish s (s.dev.whenHub (fun d => (d.at_ t).calLive u.val fig))

/-- CAL_SHADOW_STEP: An eye measurement of a shadow-verified unit ends (R406, R411, R412). -/
def execCalShadowStep (u : CalUnit) (e : CalEye) (t : Nat) (s : State) : Host.Outcome State Fault Refusal :=
  finish s (s.dev.whenHub (fun d => (d.at_ t).calShadow u.val e))

/-- CAL_RETRY_EXPIRE: retry seconds have passed since a run below threshold (R402). -/
def execCalRetryExpire (u : CalUnit) (t : Nat) (s : State) : Host.Outcome State Fault Refusal :=
  finish s (s.dev.whenHub (fun d => (d.at_ t).calRetry u.val))

/-- CAL_RUN: CAL_CMD op 1 (R403). -/
def execCalRun (u : CalUnit) (s : State) : Host.Outcome State Fault Refusal := finish s (s.dev.whenHub (fun d => d.calRunCmd u.val))

/-- CAL_STOP: CAL_CMD op 2 (R404). -/
def execCalStop (u : CalUnit) (s : State) : Host.Outcome State Fault Refusal := finish s (s.dev.whenHub (fun d => d.calStopCmd u.val))

/-- CAL_DRAM_IDX_WRITE: A write to CAL_DRAM_IDX (R412). -/
def execCalDramIdxWrite (ch : ChanId) (bit : Fin 32) (s : State) : Host.Outcome State Fault Refusal :=
  finish s (s.dev.whenHub (fun d => d.dramIdx ch.val bit.val))

end Sys2Proof.Machine
end

