-- ==== Sys2Proof/Machine/MonOps.lean ====
section
/-! DEFINITION. The rows of the event log's removal read and of the Abacus monitors (R487, R490 to R493). -/

namespace Sys2Proof.Machine

open Sys2Proof

/-- EVT_LOG_REC_3_READ: A read of EVT_LOG_REC_3 removes the latched record (R487). -/
def execEvtLogRec3Read (s : State) : Host.Outcome State Fault Refusal := finish s (s.dev.whenHub (fun d => d.readLog3))

/-- MON_WINDOW_END: The running window of an instance ends (R490 to R492). -/
def execMonWindowEnd (n : Fin 32) (t : Nat) (s : State) : Host.Outcome State Fault Refusal :=
  finish s (s.dev.whenHub (fun d => if (d.at_ t).nt % d.monWindow n.val = 0 then (d.at_ t).monClose n.val false else d.at_ t))

/-- MON_CFG_WRITE: A write to MON_n_CFG, or with win to MON_n_WIN (R490). -/
def execMonCfgWrite (n : Fin 32) (win : Bool) (w : Word) (s : State) : Host.Outcome State Fault Refusal :=
  finish s (s.dev.whenHub (fun d => (d.rawWrite (if win then R.MON_WIN n.val else R.MON_CFG n.val) w).monRestart n.val))

/-- MON_STATUS_READ: A read of MON_n_STATUS latches the results (R493). -/
def execMonStatusRead (n : Fin 32) (s : State) : Host.Outcome State Fault Refusal := finish s (s.dev.whenHub (fun d => d.readMonStatus n.val))

/-- MON_HIST_31_READ: A read of MON_n_HIST_31 releases the latch (R493). -/
def execMonHist31Read (n : Fin 32) (s : State) : Host.Outcome State Fault Refusal := finish s (s.dev.whenHub (fun d => d.readMonHist31 n.val))

/-- MON_LATCH_TIMEOUT: 1 s after the latch it is released (R493). -/
def execMonLatchTimeout (n : Fin 32) (t : Nat) (s : State) : Host.Outcome State Fault Refusal :=
  finish s (s.dev.whenHub (fun d => (d.at_ t).monLatchTimeout n.val))

end Sys2Proof.Machine
end

