-- ==== Sys2Proof/Machine/PlatOps.lean ====
section
/-! DEFINITION. Resets, supply, boot, string links, clocks, temperatures and pins (01_architecture.md, 18_configuration_and_commands.md, 21_reliability_and_ordering.md, 23_electrical_and_package.md). -/

namespace Sys2Proof.Machine

open Sys2Proof

/-- What drives a GPIO pad outside the block, as filtered (R505). -/
def Dev.padTo (d : Dev) (k : Nat) (v : Option Bool) : Dev := { d with pads := smSet (fun _ => none) d.pads k v }

/-- POWER_ON: The supply rises from below the AO hold level (R479). -/
def execPowerOn (s : State) : Host.Outcome State Fault Refusal := finish s (let d := s.dev; d.powerOn)

/-- RESET_N_ASSERT: RESET_N has been low for 1 us (R478). -/
def execResetNAssert (s : State) : Host.Outcome State Fault Refusal := finish s (let d := s.dev; d.resetAssert)

/-- RESET_N_RELEASE: RESET_N is released (R422, R430). -/
def execResetNRelease (s : State) : Host.Outcome State Fault Refusal := finish s (let d := s.dev; d.resetRelease)

/-- BROWN_OUT: VIN has been below 9.5 V for 5 us (R480). -/
def execBrownOut (t : Nat) (s : State) : Host.Outcome State Fault Refusal := finish s (let d := s.dev; (d.at_ t).brownOut)

/-- BROWN_OUT_END: VIN has been above 10.5 V for 10 ms (R480). -/
def execBrownOutEnd (s : State) : Host.Outcome State Fault Refusal := finish s (let d := s.dev; d.brownEnd)

/-- AO_HOLD_LOSS: VIN falls below the AO hold level (R480). -/
def execAoHoldLoss (s : State) : Host.Outcome State Fault Refusal := finish s (let d := s.dev; d.aoLost)

/-- VIN_RANGE: VIN leaves or re-enters its range (R476). -/
def execVinRange (out : Bool) (s : State) : Host.Outcome State Fault Refusal := finish s (s.dev.whenAo (fun d => d.vinRange out))

/-- CONTROL_STATE_MISMATCH: The copies of a control element disagree; both says that neither has good parity (R467). -/
def execControlStateMismatch (both : Bool) (s : State) : Host.Outcome State Fault Refusal :=
  finish s (s.dev.whenHub (fun d => d.controlMismatch both))

/-- BOOT_START: Boot, with the lanes that fail each link's training (R420 to R422). -/
def execBootStart (lanes : List (LinkId × Fin 512)) (s : State) : Host.Outcome State Fault Refusal :=
  finish s (s.dev.whenHub (fun d => d.bootStart (lanes.map (fun p => (p.1.val, p.2.val)))))

/-- BOOT_POLL_MET: The condition of the POLL that boot waits on is met (R419). -/
def execBootPollMet (t : Nat) (s : State) : Host.Outcome State Fault Refusal := finish s (s.dev.whenHub (fun d => (d.at_ t).pollGoes))

/-- BOOT_POLL_TIMEOUT: The POLL that boot waits on times out (R420). -/
def execBootPollTimeout (t : Nat) (s : State) : Host.Outcome State Fault Refusal := finish s (s.dev.whenHub (fun d => (d.at_ t).pollFails))

/-- FLIT_SEND: A source hands a transfer to link n + 1 (R13, R16, R17). -/
def execFlitSend (n : LinkId) (k : Dir) (ty : Fin 16) (payload : Bytes) (s : State) : Host.Outcome State Fault Refusal :=
  finish s (s.dev.whenHub (fun d => d.flitSend n.val k ty.val payload))

/-- FLIT_RECEIVE: A flit of 256 bytes arrives on link n + 1; lane is the one its block check names (R16 to R18, R21). -/
def execFlitReceive (n : LinkId) (k : Dir) (raw : Bytes) (lane : Option Lane) (s : State) : Host.Outcome State Fault Refusal :=
  finish s (s.dev.whenHub (fun d => d.flitReceive n.val k raw (lane.map (·.val))))

/-- LINK_RETRAIN: A flit has been resent 8 times (R19). -/
def execLinkRetrain (n : LinkId) (s : State) : Host.Outcome State Fault Refusal := finish s (s.dev.whenHub (fun d => d.linkRetrain n.val))

/-- LINK_RETRAIN_DONE: A retrain ends; failed has the lanes that failed it (R19, R21). -/
def execLinkRetrainDone (n : LinkId) (failed : Fin 512) (s : State) : Host.Outcome State Fault Refusal :=
  finish s (s.dev.whenHub (fun d => d.retrainDone n.val failed.val))

/-- LANE_FAILURE: A lane loses block lock, or has reached retire_count errors (R22 to R24). -/
def execLaneFailure (n : LinkId) (lane : Lane) (lost : Bool) (s : State) : Host.Outcome State Fault Refusal :=
  finish s (s.dev.whenHub (fun d => d.laneFailure n.val lane.val lost))

/-- SPARE_CHECK_FAIL: The unused spare lane fails its check (R23). -/
def execSpareCheckFail (n : LinkId) (s : State) : Host.Outcome State Fault Refusal := finish s (s.dev.whenHub (fun d => d.spareFail n.val))

/-- CLOCK_DOMAIN_FAULT: A PLL-derived domain departs by more than 1% on a die (R28). -/
def execClockDomainFault (c : ClkDom) (die : Fin 8) (t : Nat) (s : State) : Host.Outcome State Fault Refusal :=
  finish s (s.dev.whenHub (fun d => (d.at_ t).clockFault c die.val))

/-- XO_FAILURE: XO fails (R28). -/
def execXoFailure (t : Nat) (s : State) : Host.Outcome State Fault Refusal := finish s (s.dev.whenHub (fun d => (d.at_ t).xoFailure))

/-- TEMP_SENSOR_READING: A temperature sensor delivers a reading, in 1/16 degree (R15, R125, R400). -/
def execTempSensorReading (sensor : SensorId) (v : Int) (t : Nat) (s : State) : Host.Outcome State Fault Refusal :=
  finish s (s.dev.whenHub (fun d => (d.at_ t).tempReading sensor.val v))

/-- SUPPLY_SAMPLE: The supply probe samples VIN, in mV (R489). -/
def execSupplySample (mv : Nat) (s : State) : Host.Outcome State Fault Refusal := finish s (s.dev.whenHub (fun d => d.sample 9 0 mv))

/-- CAGE_OVERCURRENT: The supply output of a cage folds back (R500). -/
def execCageOvercurrent (n : MacId) (s : State) : Host.Outcome State Fault Refusal := finish s (s.dev.whenAo (fun d => d.cageFold n.val))

/-- FOLD_BACK_RETRY: A folded output is tried again (R500). -/
def execFoldBackRetry (n : MacId) (s : State) : Host.Outcome State Fault Refusal := finish s (s.dev.whenAo (fun d => d.cageRetry n.val))

/-- GPIO_INPUT_CHANGE: A GPIO pad takes a level, or nothing outside drives it any more (R505). -/
def execGpioInputChange (k : Fin 24) (v : Option Bool) (s : State) : Host.Outcome State Fault Refusal := finish s (let d := s.dev; d.padTo k.val v)

/-- EVT_LOG_REC_0_READ: A read of EVT_LOG_REC_0 latches the oldest record (R487). -/
def execEvtLogRec0Read (ecc : List StoreErr) (s : State) : Host.Outcome State Fault Refusal :=
  finish s (s.dev.whenHub (fun d => (d.storeErrs ecc).readLog0))

/-- REGISTER_WRITE: A write to a register acts under its access codes (R10, R11). -/
def execRegisterWrite (a w : Word) (s : State) : Host.Outcome State Fault Refusal := finish s (s.dev.whenHub (fun d => d.registerWrite a.toNat w))

/-- AO_FAIL_CLEAR: PWR_AO_STATUS.fail_seen is cleared (R447). -/
def execAoFailClear (s : State) : Host.Outcome State Fault Refusal := finish s (s.dev.whenHub (fun d => d.aoFailClear))

end Sys2Proof.Machine
end

