-- ==== Sys2Proof/Machine/RadOps.lean ====
section
/-! DEFINITION. The radio rows that act alone: centre frequency, synthesiser, booster group, carriers, duty meters and Region Profile fuses (04_radios.md). -/

namespace Sys2Proof.Machine

open Sys2Proof

/-- A carrier of radio r on sub-channel k0 has reached its end, and other carriers stay on air. -/
def Dev.carrierLeaves (d : Dev) (r k0 : Nat) (rl : Int) : Dev :=
  match d.carrierEnds r k0 rl with
  | (_, true) => d
  | (e, false) => e

/-- The only carrier of radio r, on sub-channel k0, has reached its end (R120). -/
def Dev.lastCarrier (d : Dev) (r k0 : Nat) (rl : Int) : Dev :=
  let stop := (((d.radio r).air.head?).map (·.stop)).getD d.nt
  match d.carrierEnds r k0 rl with
  | (e, true) => e.lastEnds r stop
  | (_, false) => d

/-- RAD_FC_WRITE: A write to RAD_FC (R109). -/
def execRadFcWrite (r : RadioId) (fc : Word) (s : State) : Host.Outcome State Fault Refusal :=
  finish s (s.dev.whenHub (fun d => if d.dieUp (r.val + 1) then (d.writeFc r.val fc.toNat).1 else d))

/-- VCO_CAL_REQUEST: RAD_CTRL.vco_cal_req is set (R113). -/
def execVcoCalRequest (r : RadioId) (s : State) : Host.Outcome State Fault Refusal :=
  finish s (s.dev.whenHub (fun d => if d.dieUp (r.val + 1) then d.vcoRequest r.val else d))

/-- RADIO_TRANSITION_DONE: A change of state of a radio completes (R115, R116). -/
def execRadioTransitionDone (r : RadioId) (t : Nat) (s : State) : Host.Outcome State Fault Refusal :=
  finish s (s.dev.whenHub (fun d => if d.radioUp r.val then (d.at_ t).transitionDone r.val else d))

/-- VCO_CALIBRATION_DONE: A VCO calibration ends, with the band chosen or none (R409). -/
def execVcoCalibrationDone (r : RadioId) (band : Option (Fin 128)) (t : Nat) (s : State) : Host.Outcome State Fault Refusal :=
  finish s (s.dev.whenHub (fun d => if d.radioUp r.val then (d.at_ t).vcoDone r.val (band.map (·.val)) else d))

/-- SYNTH_UNLOCK: The synthesiser of a radio loses lock (R114). -/
def execSynthUnlock (r : RadioId) (t : Nat) (s : State) : Host.Outcome State Fault Refusal :=
  finish s (s.dev.whenHub (fun d => (d.at_ t).synthUnlock r.val))

/-- SYNTH_RELOCK: The synthesiser of a radio relocks (R114). -/
def execSynthRelock (r : RadioId) (t : Nat) (s : State) : Host.Outcome State Fault Refusal :=
  finish s (s.dev.whenHub (fun d => (d.at_ t).synthRelock r.val))

/-- TX_LEAVE_START: T - lead is reached for the next RAD_TX_START of a radio (R118). -/
def execTxLeaveStart (r : RadioId) (t : Nat) (s : State) : Host.Outcome State Fault Refusal :=
  finish s (s.dev.whenHub (fun d => (d.at_ t).txLeave r.val))

/-- XAMP_STEP: The next due step of the booster group (R133). -/
def execXampStep (r : RadioId) (t : Nat) (s : State) : Host.Outcome State Fault Refusal :=
  finish s (s.dev.whenHub (fun d => if d.radioUp r.val then (d.at_ t).xampStep r.val else d))

/-- XAMP_FAULT: XAMP_FLT has held active for flt_filter cycles (R134). -/
def execXampFault (r : RadioId) (t : Nat) (s : State) : Host.Outcome State Fault Refusal :=
  finish s (s.dev.whenHub (fun d => (d.at_ t).xampFault r.val))

/-- XAMP_HOLD_EXPIRE: flt_hold has passed since XAMP_FLT was last active (R134). -/
def execXampHoldExpire (r : RadioId) (seen : FltSeen) (s : State) : Host.Outcome State Fault Refusal :=
  finish s (s.dev.whenHub (fun d => (d.at_ seen.now).xampHoldExpire r.val seen.last))

/-- DUTY_METER_TICK: The rolling duty meters of a radio advance (R130). -/
def execDutyMeterTick (r : RadioId) (t : Nat) (s : State) : Host.Outcome State Fault Refusal :=
  finish s (s.dev.whenHub (fun d => (d.at_ t).dutyTick r.val))

/-- RAD_RP_PROG_GO: RAD_RP_PROG.go is set (R128). -/
def execRadRpProgGo (r : RadioId) (s : State) : Host.Outcome State Fault Refusal :=
  finish s (s.dev.whenHub (fun d => if d.dieUp (r.val + 1) then d.rpGo r.val else d))

/-- RP_FUSE_BLOW_DONE: A Region Profile fuse blow ends; failed has the bits that did not blow (R128). -/
def execRpFuseBlowDone (r : RadioId) (failed : Word) (s : State) : Host.Outcome State Fault Refusal :=
  finish s (s.dev.whenHub (fun d => if d.dieUp (r.val + 1) then d.rpBlown r.val failed.toNat else d))

/-- CARRIER_END: A carrier ends while others stay on air; rl is the return loss of its set in 0.25 dB (R120, R135). -/
def execCarrierEnd (r : RadioId) (k0 : Fin 1536) (rl : Int) (t : Nat) (s : State) : Host.Outcome State Fault Refusal :=
  finish s (s.dev.whenHub (fun d => if d.radioUp r.val then (d.at_ t).carrierLeaves r.val k0.val rl else d))

/-- LAST_CARRIER_END: The last carrier of a radio ends (R120, R135). -/
def execLastCarrierEnd (r : RadioId) (k0 : Fin 1536) (rl : Int) (t : Nat) (s : State) : Host.Outcome State Fault Refusal :=
  finish s (s.dev.whenHub (fun d => if d.radioUp r.val then (d.at_ t).lastCarrier r.val k0.val rl else d))

end Sys2Proof.Machine
end

