-- ==== Sys2Proof/Machine/RegOps.lean ====
section
/-! DEFINITION. The registry and node commands of the access scheduler (R205, R229, R230). -/

namespace Sys2Proof.Machine

open Sys2Proof

/-- The word of SCH_REG_CMD that starts an operation. -/
def regCmdWord (op : Nat) : Word := F.SCH_REG_CMD_go.into (F.SCH_REG_CMD_op.into 0 op) 1

/-- The word of SCH_NODE_CMD that starts an operation with its fields. -/
def nodeCmdWord (op hold mode period : Nat) : Word :=
  F.SCH_NODE_CMD_go.into (F.SCH_NODE_CMD_op.into (F.SCH_NODE_CMD_hold.into (F.SCH_NODE_CMD_mode.into
    (F.SCH_NODE_CMD_period_log2.into 0 period) mode) hold) op) 1

/-- PROVISION: SCH_REG_CMD op PROVISION (R205). -/
def execProvision (s : State) : Host.Outcome State Fault Refusal := finish s (s.dev.whenHub (fun d => d.regCmd (regCmdWord 1)))

/-- REGISTRY_READ: SCH_REG_CMD op READ (R205). -/
def execRegistryRead (s : State) : Host.Outcome State Fault Refusal := finish s (s.dev.whenHub (fun d => d.regCmd (regCmdWord 2)))

/-- DELETE: SCH_REG_CMD op DELETE (R205, R220, R370). -/
def execDelete (s : State) : Host.Outcome State Fault Refusal := finish s (s.dev.whenHub (fun d => d.regCmd (regCmdWord 3)))

/-- RELEASE: SCH_NODE_CMD op RELEASE (R230). -/
def execRelease (s : State) : Host.Outcome State Fault Refusal := finish s (s.dev.whenHub (fun d => d.nodeCmdWrite (nodeCmdWord 1 0 0 0)))

/-- PILOT_HOLD: SCH_NODE_CMD op PILOT_HOLD with its arg (R230). -/
def execPilotHold (hold : Bool) (s : State) : Host.Outcome State Fault Refusal :=
  finish s (s.dev.whenHub (fun d => d.nodeCmdWrite (nodeCmdWord 2 (bitOf hold) 0 0)))

/-- REVOKE: SCH_NODE_CMD op REVOKE (R230). -/
def execRevoke (s : State) : Host.Outcome State Fault Refusal := finish s (s.dev.whenHub (fun d => d.nodeCmdWrite (nodeCmdWord 3 0 0 0)))

/-- REPLACE: SCH_NODE_CMD op REPLACE with its mode and period (R230). -/
def execReplace (mode : Fin 8) (periodLog2 : Fin 16) (s : State) : Host.Outcome State Fault Refusal :=
  finish s (s.dev.whenHub (fun d => d.nodeCmdWrite (nodeCmdWord 4 0 mode.val periodLog2.val)))

end Sys2Proof.Machine
end

