-- ==== Sys2Proof/Machine/RtcOps.lean ====
section
/-! DEFINITION. The real-time clock rows (20_rtc.md). The AO domain runs them whether or not the HUB does. -/

namespace Sys2Proof.Machine

open Sys2Proof

/-- RTC_SECOND_TICK: The prescaler has counted len ticks (R451). -/
def execRtcSecondTick (t : Nat) (s : State) : Host.Outcome State Fault Refusal := finish s (s.dev.whenAo (fun d => (d.at_ t).rtcTick))

/-- RTC_FIELD_STAGE: A write to a calendar field reaches the staging copy (R452). -/
def execRtcFieldStage (f : RtcField) (v : Nat) (s : State) : Host.Outcome State Fault Refusal := finish s (s.dev.whenHub (fun d => d.rtcStage f v))

/-- RTC_SEC_WRITE: A write to RTC_SEC commits the staged calendar (R452, R453). -/
def execRtcSecWrite (v : Nat) (s : State) : Host.Outcome State Fault Refusal := finish s (s.dev.whenHub (fun d => d.rtcSecWrite v))

/-- RTC_SEC_READ: A read of RTC_SEC latches the calendar (R454). -/
def execRtcSecRead (s : State) : Host.Outcome State Fault Refusal := finish s (s.dev.whenHub (fun d => d.rtcSecRead))

/-- RTC_YEAR_READ: A read of RTC_YEAR returns the snapshot and releases it (R454). -/
def execRtcYearRead (s : State) : Host.Outcome State Fault Refusal := finish s (s.dev.whenHub (fun d => d.rtcYearRead))

/-- RTC_SNAPSHOT_TIMEOUT: 1 s after the latch the snapshot is released (R454). -/
def execRtcSnapshotTimeout (t : Nat) (s : State) : Host.Outcome State Fault Refusal := finish s (s.dev.whenAo (fun d => (d.at_ t).rtcSnapTimeout))

/-- RTC_NT_SET: RTC_CTRL.nt_set is set (R455). -/
def execRtcNtSet (s : State) : Host.Outcome State Fault Refusal := finish s (s.dev.whenHub (fun d => d.ntSet))

/-- RTC_NT_SET_COMMIT: A whole second of NT with nt_set pending (R455). -/
def execRtcNtSetCommit (t : Nat) (s : State) : Host.Outcome State Fault Refusal := finish s (s.dev.whenHub (fun d => (d.at_ t).ntSetCommit))

/-- RTC_LEAP_WRITE: A write to RTC_LEAP (R457). -/
def execRtcLeapWrite (w : Word) (s : State) : Host.Outcome State Fault Refusal := finish s (s.dev.whenHub (fun d => d.leapWrite w))

/-- RTC_ALARM_WRITE: A write to an alarm's registers (R460, R461). -/
def execRtcAlarmWrite (a : Fin 2) (g : AlarmReg) (w : Word) (s : State) : Host.Outcome State Fault Refusal :=
  finish s (s.dev.whenHub (fun d => d.alarmWrite a.val g w))

/-- RTC_TRIM_DONE: A trim measurement window ends with c XO cycles counted (R459). -/
def execRtcTrimDone (c : Nat) (t : Nat) (s : State) : Host.Outcome State Fault Refusal := finish s (s.dev.whenHub (fun d => (d.at_ t).trimDone c))

end Sys2Proof.Machine
end

