-- ==== Sys2Proof/Machine/Dispatch.lean ====
section
/-! DEFINITION. What each command does: one arm per constructor, a direct call of its meaning. -/

namespace Sys2Proof.Machine

open Sys2Proof

def exec (i : Instr) (s : State) : Host.Outcome State Fault Refusal :=
  match i with
  | .powerOn => Sys2Proof.Machine.execPowerOn s
  | .resetNAssert => Sys2Proof.Machine.execResetNAssert s
  | .brownOut t => Sys2Proof.Machine.execBrownOut t s
  | .brownOutEnd => Sys2Proof.Machine.execBrownOutEnd s
  | .vinRange out => Sys2Proof.Machine.execVinRange out s
  | .controlStateMismatch both => Sys2Proof.Machine.execControlStateMismatch both s
  | .bootStart lanes => Sys2Proof.Machine.execBootStart lanes s
  | .bootPollMet t => Sys2Proof.Machine.execBootPollMet t s
  | .bootPollTimeout t => Sys2Proof.Machine.execBootPollTimeout t s
  | .flitSend n k ty payload => Sys2Proof.Machine.execFlitSend n k ty payload s
  | .flitReceive n k raw lane => Sys2Proof.Machine.execFlitReceive n k raw lane s
  | .linkRetrain n => Sys2Proof.Machine.execLinkRetrain n s
  | .linkRetrainDone n failed => Sys2Proof.Machine.execLinkRetrainDone n failed s
  | .laneFailure n lane lost => Sys2Proof.Machine.execLaneFailure n lane lost s
  | .spareCheckFail n => Sys2Proof.Machine.execSpareCheckFail n s
  | .clockDomainFault c die t => Sys2Proof.Machine.execClockDomainFault c die t s
  | .xoFailure t => Sys2Proof.Machine.execXoFailure t s
  | .tempSensorReading sensor v t => Sys2Proof.Machine.execTempSensorReading sensor v t s
  | .clkNtSecHiRead => Sys2Proof.Machine.execClkNtSecHiRead s
  | .clkSlotRead => Sys2Proof.Machine.execClkSlotRead s
  | .clkSnapshotTimeout t => Sys2Proof.Machine.execClkSnapshotTimeout t s
  | .slotStart a rx ecc => Sys2Proof.Machine.execSlotStart a rx ecc s
  | .superframeBoundary sf => Sys2Proof.Machine.execSuperframeBoundary sf s
  | .ppsEdge t => Sys2Proof.Machine.execPpsEdge t s
  | .ptpMessage m t => Sys2Proof.Machine.execPtpMessage m t s
  | .ref10mMeasurement ppb t => Sys2Proof.Machine.execRef10mMeasurement ppb t s
  | .stepApplyMs t => Sys2Proof.Machine.execStepApplyMs t s
  | .stepApplyQuiet t => Sys2Proof.Machine.execStepApplyQuiet t s
  | .referenceTimeout k t => Sys2Proof.Machine.execReferenceTimeout k t s
  | .clkTodLoad => Sys2Proof.Machine.execClkTodLoad s
  | .ppsOutRise t => Sys2Proof.Machine.execPpsOutRise t s
  | .ppsOutFall t => Sys2Proof.Machine.execPpsOutFall t s
  | .actionArm ecc => Sys2Proof.Machine.execActionArm ecc s
  | .actionCancel a => Sys2Proof.Machine.execActionCancel a s
  | .radTxStart a0 t => Sys2Proof.Machine.execRadTxStart a0 t s
  | .radState a0 t => Sys2Proof.Machine.execRadState a0 t s
  | .clsGenSwitch a0 t => Sys2Proof.Machine.execClsGenSwitch a0 t s
  | .shpGateTakeover a0 t => Sys2Proof.Machine.execShpGateTakeover a0 t s
  | .cfgStageTakeover a0 t => Sys2Proof.Machine.execCfgStageTakeover a0 t s
  | .calQuiet a0 t => Sys2Proof.Machine.execCalQuiet a0 t s
  | .gpioLevel a0 t => Sys2Proof.Machine.execGpioLevel a0 t s
  | .radFcWrite r fc => Sys2Proof.Machine.execRadFcWrite r fc s
  | .vcoCalRequest r => Sys2Proof.Machine.execVcoCalRequest r s
  | .radioTransitionDone r t => Sys2Proof.Machine.execRadioTransitionDone r t s
  | .vcoCalibrationDone r band t => Sys2Proof.Machine.execVcoCalibrationDone r band t s
  | .synthUnlock r t => Sys2Proof.Machine.execSynthUnlock r t s
  | .synthRelock r t => Sys2Proof.Machine.execSynthRelock r t s
  | .txLeaveStart r t => Sys2Proof.Machine.execTxLeaveStart r t s
  | .txDeferredStart r t => Sys2Proof.Machine.execTxDeferredStart r t s
  | .txGuardExpire r t => Sys2Proof.Machine.execTxGuardExpire r t s
  | .lastCarrierEnd r k0 rl t => Sys2Proof.Machine.execLastCarrierEnd r k0 rl t s
  | .returnLossAbort r port t => Sys2Proof.Machine.execReturnLossAbort r port t s
  | .xampStep r t => Sys2Proof.Machine.execXampStep r t s
  | .xampFault r t => Sys2Proof.Machine.execXampFault r t s
  | .xampHoldExpire r seen => Sys2Proof.Machine.execXampHoldExpire r seen s
  | .dutyMeterTick r t => Sys2Proof.Machine.execDutyMeterTick r t s
  | .radRpProgGo r => Sys2Proof.Machine.execRadRpProgGo r s
  | .rpFuseBlowDone r failed => Sys2Proof.Machine.execRpFuseBlowDone r failed s
  | .diversityBlock r ms x0 x1 t => Sys2Proof.Machine.execDiversityBlock r ms x0 x1 t s
  | .ringFrameComplete r a t ecc => Sys2Proof.Machine.execRingFrameComplete r a t ecc s
  | .occMapClose r a x0 x1 t => Sys2Proof.Machine.execOccMapClose r a x0 x1 t s
  | .detectorEvaluation r k gain t => Sys2Proof.Machine.execDetectorEvaluation r k gain t s
  | .captureComplete r c xs t => Sys2Proof.Machine.execCaptureComplete r c xs t s
  | .overloadInterval r c0 c1 t => Sys2Proof.Machine.execOverloadInterval r c0 c1 t s
  | .maskCheck r bins t => Sys2Proof.Machine.execMaskCheck r bins t s
  | .txBufferFetch r handle t => Sys2Proof.Machine.execTxBufferFetch r handle t s
  | .schSlotOverrun t => Sys2Proof.Machine.execSchSlotOverrun t s
  | .downlinkTaskCreate a0 t => Sys2Proof.Machine.execDownlinkTaskCreate a0 t s
  | .taskDeadline a0 t => Sys2Proof.Machine.execTaskDeadline a0 t s
  | .taskRelease a0 ecc t => Sys2Proof.Machine.execTaskRelease a0 ecc t s
  | .cycleBudgetExceeded c => Sys2Proof.Machine.execCycleBudgetExceeded c s
  | .coreFaultTake c ecc => Sys2Proof.Machine.execCoreFaultTake c ecc s
  | .selfTestDone c pass => Sys2Proof.Machine.execSelfTestDone c pass s
  | .coreRetire c => Sys2Proof.Machine.execCoreRetire c s
  | .coreReturn c => Sys2Proof.Machine.execCoreReturn c s
  | .pupPeekIdxWrite a0 => Sys2Proof.Machine.execPupPeekIdxWrite a0 s
  | .nop c => Sys2Proof.Machine.execNop c s
  | .ldw l => Sys2Proof.Machine.execLdw l s
  | .ldh l => Sys2Proof.Machine.execLdh l s
  | .stw c => Sys2Proof.Machine.execStw c s
  | .sth c => Sys2Proof.Machine.execSth c s
  | .ldp l => Sys2Proof.Machine.execLdp l s
  | .stp c => Sys2Proof.Machine.execStp c s
  | .mov c => Sys2Proof.Machine.execMov c s
  | .mva c => Sys2Proof.Machine.execMva c s
  | .mta c => Sys2Proof.Machine.execMta c s
  | .modp c => Sys2Proof.Machine.execModp c s
  | .ldim c => Sys2Proof.Machine.execLdim c s
  | .add2 c => Sys2Proof.Machine.execAdd2 c s
  | .sub2 c => Sys2Proof.Machine.execSub2 c s
  | .addw c => Sys2Proof.Machine.execAddw c s
  | .subw c => Sys2Proof.Machine.execSubw c s
  | .and c => Sys2Proof.Machine.execAnd c s
  | .or c => Sys2Proof.Machine.execOr c s
  | .xor c => Sys2Proof.Machine.execXor c s
  | .shift c => Sys2Proof.Machine.execShift c s
  | .cmp c => Sys2Proof.Machine.execCmp c s
  | .ldi c => Sys2Proof.Machine.execLdi c s
  | .ldip c => Sys2Proof.Machine.execLdip c s
  | .mac c => Sys2Proof.Machine.execMac c s
  | .mac2 c => Sys2Proof.Machine.execMac2 c s
  | .cmac c => Sys2Proof.Machine.execCmac c s
  | .cmul c => Sys2Proof.Machine.execCmul c s
  | .accop c => Sys2Proof.Machine.execAccop c s
  | .norm c => Sys2Proof.Machine.execNorm c s
  | .exp c => Sys2Proof.Machine.execExp c s
  | .acs c => Sys2Proof.Machine.execAcs c s
  | .br c => Sys2Proof.Machine.execBr c s
  | .call c => Sys2Proof.Machine.execCall c s
  | .jr c => Sys2Proof.Machine.execJr c s
  | .reti c => Sys2Proof.Machine.execReti c s
  | .rep c => Sys2Proof.Machine.execRep c s
  | .trap c => Sys2Proof.Machine.execTrap c s
  | .interruptTake c => Sys2Proof.Machine.execInterruptTake c s
  | .coreTimerZero c => Sys2Proof.Machine.execCoreTimerZero c s
  | .budgetWarn c => Sys2Proof.Machine.execBudgetWarn c s
  | .coreTruCtrlWrite c w => Sys2Proof.Machine.execCoreTruCtrlWrite c w s
  | .transferComplete c => Sys2Proof.Machine.execTransferComplete c s
  | .coreDoorbellWrite c target => Sys2Proof.Machine.execCoreDoorbellWrite c target s
  | .coreIrqSetWrite c w => Sys2Proof.Machine.execCoreIrqSetWrite c w s
  | .coreDoneWrite c v obs t => Sys2Proof.Machine.execCoreDoneWrite c v obs t s
  | .outputAccept c t => Sys2Proof.Machine.execOutputAccept c t s
  | .macFrameReceive n w t => Sys2Proof.Machine.execMacFrameReceive n w t s
  | .pauseTimerExpire n t => Sys2Proof.Machine.execPauseTimerExpire n t s
  | .pauseRefresh n t => Sys2Proof.Machine.execPauseRefresh n t s
  | .linkUp n an t => Sys2Proof.Machine.execLinkUp n an t s
  | .linkDown n t => Sys2Proof.Machine.execLinkDown n t s
  | .verifyTimer n t => Sys2Proof.Machine.execVerifyTimer n t s
  | .macCntClr n => Sys2Proof.Machine.execMacCntClr n s
  | .macCntHiRead n c => Sys2Proof.Machine.execMacCntHiRead n c s
  | .macCntLoRead n c => Sys2Proof.Machine.execMacCntLoRead n c s
  | .macPtpTxSecHiRead n => Sys2Proof.Machine.execMacPtpTxSecHiRead n s
  | .macPtpTxIdRead n => Sys2Proof.Machine.execMacPtpTxIdRead n s
  | .classifyFrame n errs t => Sys2Proof.Machine.execClassifyFrame n errs t s
  | .fragmentWaitExpire t => Sys2Proof.Machine.execFragmentWaitExpire t s
  | .fragmentEntryExpire t => Sys2Proof.Machine.execFragmentEntryExpire t s
  | .tcamScrub errs => Sys2Proof.Machine.execTcamScrub errs s
  | .policerWrite p word w => Sys2Proof.Machine.execPolicerWrite p word w s
  | .egressFrameStart n e t => Sys2Proof.Machine.execEgressFrameStart n e t s
  | .egressFrameEnd n t => Sys2Proof.Machine.execEgressFrameEnd n t s
  | .gateStateChange n t => Sys2Proof.Machine.execGateStateChange n t s
  | .shpVtHiRead n => Sys2Proof.Machine.execShpVtHiRead n s
  | .keyLoad slot cls big => Sys2Proof.Machine.execKeyLoad slot cls big s
  | .keyClear slot => Sys2Proof.Machine.execKeyClear slot s
  | .rootKeyBlow => Sys2Proof.Machine.execRootKeyBlow s
  | .rootKeyBlowDone failed => Sys2Proof.Machine.execRootKeyBlowDone failed s
  | .classLimitWrite c w => Sys2Proof.Machine.execClassLimitWrite c w s
  | .cjSubmit c ecc => Sys2Proof.Machine.execCjSubmit c ecc s
  | .cipherJobStart => Sys2Proof.Machine.execCipherJobStart s
  | .cipherJobComplete c => Sys2Proof.Machine.execCipherJobComplete c s
  | .cjResultRead c => Sys2Proof.Machine.execCjResultRead c s
  | .strOwnerWrite who v => Sys2Proof.Machine.execStrOwnerWrite who v s
  | .strStart who w => Sys2Proof.Machine.execStrStart who w s
  | .strAbort who => Sys2Proof.Machine.execStrAbort who s
  | .strDinWrite who w => Sys2Proof.Machine.execStrDinWrite who w s
  | .strDoutRead who => Sys2Proof.Machine.execStrDoutRead who s
  | .streamJobEnd => Sys2Proof.Machine.execStreamJobEnd s
  | .cipSlotIdxWrite n => Sys2Proof.Machine.execCipSlotIdxWrite n s
  | .dramRequestArrive port write burst mask data t => Sys2Proof.Machine.execDramRequestArrive port write burst mask data t s
  | .dramRequestIssue ch errs t => Sys2Proof.Machine.execDramRequestIssue ch errs t s
  | .refreshDue ch bank t => Sys2Proof.Machine.execRefreshDue ch bank t s
  | .idleRefresh ch bank t => Sys2Proof.Machine.execIdleRefresh ch bank t s
  | .mr4Read r0 r1 t => Sys2Proof.Machine.execMr4Read r0 r1 t s
  | .derateWindowClose t => Sys2Proof.Machine.execDerateWindowClose t s
  | .patrolScrubRead errs t => Sys2Proof.Machine.execPatrolScrubRead errs t s
  | .calTick t => Sys2Proof.Machine.execCalTick t s
  | .calLiveStep u fig t => Sys2Proof.Machine.execCalLiveStep u fig t s
  | .calShadowStep u e t => Sys2Proof.Machine.execCalShadowStep u e t s
  | .calRetryExpire u t => Sys2Proof.Machine.execCalRetryExpire u t s
  | .calRun u => Sys2Proof.Machine.execCalRun u s
  | .calStop u => Sys2Proof.Machine.execCalStop u s
  | .calDramIdxWrite ch bit => Sys2Proof.Machine.execCalDramIdxWrite ch bit s
  | .i2cWriteTransaction bytes ecc => Sys2Proof.Machine.execI2cWriteTransaction bytes ecc s
  | .i2cReadTransaction n => Sys2Proof.Machine.execI2cReadTransaction n s
  | .i2cTimeout => Sys2Proof.Machine.execI2cTimeout s
  | .mgmtFrameAuth => Sys2Proof.Machine.execMgmtFrameAuth s
  | .replayLogDone => Sys2Proof.Machine.execReplayLogDone s
  | .read words => Sys2Proof.Machine.execRead words s
  | .write words => Sys2Proof.Machine.execWrite words s
  | .writeMasked => Sys2Proof.Machine.execWriteMasked s
  | .tableWrite words => Sys2Proof.Machine.execTableWrite words s
  | .stage => Sys2Proof.Machine.execStage s
  | .arm => Sys2Proof.Machine.execArm s
  | .nvmWriteOpen => Sys2Proof.Machine.execNvmWriteOpen s
  | .nvmWriteData => Sys2Proof.Machine.execNvmWriteData s
  | .nvmWriteClose => Sys2Proof.Machine.execNvmWriteClose s
  | .nvmPhaseDone ok => Sys2Proof.Machine.execNvmPhaseDone ok s
  | .powerEnterVigil t => Sys2Proof.Machine.execPowerEnterVigil t s
  | .powerEnterDormant t => Sys2Proof.Machine.execPowerEnterDormant t s
  | .powerDomainOff t => Sys2Proof.Machine.execPowerDomainOff t s
  | .powerDomainOn t => Sys2Proof.Machine.execPowerDomainOn t s
  | .abort => Sys2Proof.Machine.execAbort s
  | .status => Sys2Proof.Machine.execStatus s
  | .drainEnd dom unfinished t => Sys2Proof.Machine.execDrainEnd dom unfinished t s
  | .domainPowerUpDone dom t => Sys2Proof.Machine.execDomainPowerUpDone dom t s
  | .jackWriteMatch => Sys2Proof.Machine.execJackWriteMatch s
  | .jackRead => Sys2Proof.Machine.execJackRead s
  | .wakeStageReady t => Sys2Proof.Machine.execWakeStageReady t s
  | .wakeStageTimeout t => Sys2Proof.Machine.execWakeStageTimeout t s
  | .aoFailClear => Sys2Proof.Machine.execAoFailClear s
  | .gpioInputChange k v => Sys2Proof.Machine.execGpioInputChange k v s
  | .rtcSecondTick t => Sys2Proof.Machine.execRtcSecondTick t s
  | .rtcFieldStage f v => Sys2Proof.Machine.execRtcFieldStage f v s
  | .rtcSecWrite v => Sys2Proof.Machine.execRtcSecWrite v s
  | .rtcSecRead => Sys2Proof.Machine.execRtcSecRead s
  | .rtcYearRead => Sys2Proof.Machine.execRtcYearRead s
  | .rtcSnapshotTimeout t => Sys2Proof.Machine.execRtcSnapshotTimeout t s
  | .rtcNtSet => Sys2Proof.Machine.execRtcNtSet s
  | .rtcNtSetCommit t => Sys2Proof.Machine.execRtcNtSetCommit t s
  | .rtcLeapWrite w => Sys2Proof.Machine.execRtcLeapWrite w s
  | .rtcAlarmWrite a g w => Sys2Proof.Machine.execRtcAlarmWrite a g w s
  | .rtcTrimDone c t => Sys2Proof.Machine.execRtcTrimDone c t s
  | .evtLogRec0Read ecc => Sys2Proof.Machine.execEvtLogRec0Read ecc s
  | .evtLogRec3Read => Sys2Proof.Machine.execEvtLogRec3Read s
  | .notifyFrameSend => Sys2Proof.Machine.execNotifyFrameSend s
  | .monWindowEnd n t => Sys2Proof.Machine.execMonWindowEnd n t s
  | .monCfgWrite n win w => Sys2Proof.Machine.execMonCfgWrite n win w s
  | .monStatusRead n => Sys2Proof.Machine.execMonStatusRead n s
  | .monHist31Read n => Sys2Proof.Machine.execMonHist31Read n s
  | .monLatchTimeout n t => Sys2Proof.Machine.execMonLatchTimeout n t s
  | .provision => Sys2Proof.Machine.execProvision s
  | .registryRead => Sys2Proof.Machine.execRegistryRead s
  | .delete => Sys2Proof.Machine.execDelete s
  | .release => Sys2Proof.Machine.execRelease s
  | .pilotHold hold => Sys2Proof.Machine.execPilotHold hold s
  | .revoke => Sys2Proof.Machine.execRevoke s
  | .replace mode periodLog2 => Sys2Proof.Machine.execReplace mode periodLog2 s
  | .registerWrite a w => Sys2Proof.Machine.execRegisterWrite a w s
  | .resetNRelease => Sys2Proof.Machine.execResetNRelease s
  | .aoHoldLoss => Sys2Proof.Machine.execAoHoldLoss s
  | .pcsLockChange n pcs fec t => Sys2Proof.Machine.execPcsLockChange n pcs fec t s
  | .cageOvercurrent n => Sys2Proof.Machine.execCageOvercurrent n s
  | .foldBackRetry n => Sys2Proof.Machine.execFoldBackRetry n s
  | .carrierEnd r k0 rl t => Sys2Proof.Machine.execCarrierEnd r k0 rl t s
  | .supplySample mv => Sys2Proof.Machine.execSupplySample mv s

end Sys2Proof.Machine
end

