-- ==== Sys2Proof/Safety.lean ====
section
/-! DEFINITION. What counts as a safe state and a safe step: the pins the block drives are those the rest of the state gives them, every command
completes, and what a command leaves as it was. -/

namespace Sys2Proof

open Sys2Proof.Machine

/-- Every pin stands at the level its rule gives it (R503), and no event of an earlier instant waits to be logged (R485). -/
def PinsAgree (s : State) : Prop := s.dev.pins = s.dev.pinsOf ∧ s.dev.evt.pend = []

/-- The bytes of a memory stand in canonical form: addresses strictly rising, and no entry equal to what an unlisted address reads as. DRAM reads 0
there (log entry 9), the flash 0xFF (log entry 8). -/
abbrev Machine.Memory.wf (unlisted : Byte) (m : List Host.Cell) : Prop := smWf (fun _ => unlisted) m = true

/-- A command completes: it answers a next state, takes nothing from the queue behind it, and leaves a device of which P holds. -/
def Runs (c : Instr) (s : State) (P : Dev → Prop) : Prop :=
  ∃ t, exec c s = .next t ∧ t.pending = s.pending ∧ P t.dev

/-- The parts of the device that a frame speaks of, apart from its registers, the pins, and what raising an event touches. -/
inductive Part where
  | nt | xo | rdata | free | links | clkOff | mons | pwr | boot | cmd | stages | nvm | flash | fuses | rootKey | pads | cages | clk | acts
  | radios | kals | dram | temps | sched | pup | cores | macs | cls | mgmtIn | queues | ports | policers | cip | drc | cal | rtc | evtSelf
deriving DecidableEq, Repr

/-- A part is the same in two devices. The I2C buffer of the Command Port takes event notifications and the RTC's trim window follows Clockwork's state,
so neither belongs to its part; the log, the sequence numbers and the notifications collected belong to none. -/
def Part.same (d e : Dev) : Part → Prop
  | .nt => e.nt = d.nt
  | .xo => e.xo = d.xo
  | .rdata => e.rdata = d.rdata
  | .free => e.free = d.free
  | .links => e.links = d.links
  | .clkOff => e.clkOff = d.clkOff
  | .mons => e.mons = d.mons
  | .pwr => e.pwr = d.pwr
  | .boot => e.boot = d.boot
  | .cmd => { e.cmd with i2c := [] } = { d.cmd with i2c := [] }
  | .stages => e.stages = d.stages ∧ e.stagesFired = d.stagesFired
  | .nvm => e.nvmCopy = d.nvmCopy
  | .flash => e.flash = d.flash
  | .fuses => e.fuses = d.fuses ∧ e.pubDigest = d.pubDigest ∧ e.member = d.member
  | .rootKey => e.rootKey = d.rootKey ∧ e.rootProgrammed = d.rootProgrammed ∧ e.rootBlow = d.rootBlow
  | .pads => e.pads = d.pads
  | .cages => e.cagesFolded = d.cagesFolded
  | .clk => e.clk = d.clk
  | .acts => e.acts = d.acts ∧ e.actsFired = d.actsFired
  | .radios => e.radios = d.radios
  | .kals => e.kals = d.kals
  | .dram => e.dram = d.dram
  | .temps => e.temps = d.temps
  | .sched => e.sched = d.sched
  | .pup => e.pup = d.pup
  | .cores => e.cores = d.cores
  | .macs => e.macs = d.macs
  | .cls => e.cls = d.cls
  | .mgmtIn => e.mgmtIn = d.mgmtIn
  | .queues => e.queues = d.queues
  | .ports => e.ports = d.ports
  | .policers => e.policers = d.policers
  | .cip => e.cip = d.cip
  | .drc => e.drc = d.drc
  | .cal => e.cal = d.cal
  | .rtc => { e.rtc with trimAt := none } = { d.rtc with trimAt := none }
  | .evtSelf => e.evt.latch = d.evt.latch ∧ e.evt.arm6 = d.evt.arm6 ∧ e.evt.trip = d.evt.trip

/-- The registers that hold counts of the event system itself: records and notifications lost (R483, R485). -/
def evtCounts : List Nat := [R.EVT_LOG_STAT, R.EVT_NOTIFY]

/-- The registers of the status bits (R482). -/
def evtStatuses : List Nat := [R.EVT_STATUS_LO, R.EVT_STATUS_HI]

/-- What a command leaves: every part but those listed, every register but those listed (the event system's counts apart), and the status bit of every
source but those listed. -/
def Frame (parts : List Part) (regs : List Nat) (events : List Nat) (d e : Dev) : Prop :=
  (∀ p, p ∉ parts → p.same d e) ∧
  (∀ a, a ∉ regs → a ∉ evtCounts → a ∉ evtStatuses → e.word a = d.word a) ∧
  (∀ n, n < 64 → n ∉ events → e.evtStatus n = d.evtStatus n)

end Sys2Proof
end

