-- ==== Sys2Proof/Certificates/Slice0/Obligations.lean ====
section
/-! DEFINITION. The statements for the provers. A statement of the form Runs c s P says that the command c completes at the state s, takes nothing from
the queue behind it, and leaves a device of which P holds. -/

section

open Sys2Proof Sys2Proof.Machine

/-- A step runs the command at the front of the queue, on the state with the queue's rest. -/
def Obligations.AStepRunsTheFrontCommand : Prop :=
  ∀ (s : State) (c : Instr) (q : List Instr), step { s with pending := c :: q } = exec c { s with pending := q }

/-- With no command waiting the block idles; the model's choice (log entry 1). -/
def Obligations.AnEmptyQueueIdles : Prop :=
  ∀ s : State, s.pending = [] → step s = .next s

/-- Every command completes: it answers a next state, whose pins agree with the rest of it, and takes nothing from the queue behind it. -/
def Obligations.EveryCommandCompletes : Prop :=
  ∀ (c : Instr) (s : State), ∃ t, exec c s = .next t ∧ t.pending = s.pending ∧ t.dev.pins = t.dev.pinsOf ∧ t.dev.evt.pend = []

/-- At reset the pins agree with the state. -/
def Obligations.PinsAgreeAtReset : Prop :=
  PinsAgree State.reset

/-- Every step keeps the pins in agreement with the state, and leaves no event of its instant unlogged. -/
def Obligations.StepsKeepThePinsInAgreement : Prop :=
  ∀ s t : State, PinsAgree s → step s = .next t → PinsAgree t

/-- As many steps as the queue holds commands drain it, one command after the other in their order, without a fault or a refusal; the pins of the state
reached agree with it. -/
def Obligations.TheQueueDrainsInOrder : Prop :=
  (∀ s : State, PinsAgree s → ∃ t, Host.Core.run Sys2Proof.core s.pending.length s = .next t ∧ t.pending = [] ∧ PinsAgree t) ∧
  (∀ (s : State) (p q : List Instr), ∃ t u : State,
    Host.Core.run Sys2Proof.core p.length { s with pending := p } = .next t ∧ t.pending = [] ∧
    Host.Core.run Sys2Proof.core q.length { t with pending := q } = .next u ∧
    Host.Core.run Sys2Proof.core (p ++ q).length { s with pending := p ++ q } = .next u)

/-- What the pins show after every command (R53, R133, R445, R461, R484, R500, R503, R505). -/
def Obligations.PinsFollowTheirRules : Prop :=
  ∀ (c : Instr) (s t : State), exec c s = .next t →
    (t.dev.pins.alarm = true ↔ t.dev.pwr.mode = .wakeFail ∨ t.dev.hubUp = true ∧ t.dev.boot.phase ≠ .idle ∧ (t.dev.boot.phase = .fail ∨
      ∃ n, n < 64 ∧ t.dev.evtStatus n = true ∧ t.dev.evtEnabled n = true ∧ t.dev.evtRoute n = 1)) ∧
    (t.dev.pins.rtcAlarm = true ↔ t.dev.pwr.aoOn = true ∧ ∃ a, a < 2 ∧ t.dev.flag (R.RTC_ALM_CTRL a) F.RTC_ALM_CTRL_pin_en = true ∧
      t.dev.flag (R.RTC_ALM_CTRL a) F.RTC_ALM_CTRL_fired = true) ∧
    (t.dev.hubUp = false ∨ t.dev.boot.phase = .idle → t.dev.pins.jackHasI2c = true ∧ t.dev.pins.ppsOut = none ∧ t.dev.pins.gpioDir = 0 ∧
      t.dev.pins.xamp = [none, none, none] ∧ t.dev.pins.txdisLow = 0 ∧ t.dev.pins.txdisHigh = 0) ∧
    (t.dev.hubUp = true → t.dev.boot.phase ≠ .idle → t.dev.pins.jackHasI2c = t.dev.pwr.jack ∧
      t.dev.pins.ppsOut = some (t.dev.clk.ppsRise.isSome && t.dev.ppsRuns) ∧ t.dev.pins.gpioDir = t.dev.get R.GPIO_DIR F.GPIO_DIR_out_en ∧
      (∀ n, n < 8 → (t.dev.pins.txdisLow.testBit n = true ↔ t.dev.flag (R.MAC_CTRL n) F.MAC_CTRL_enable = true ∧
        (t.dev.pwr.mode = .vigil → n = t.dev.pwr.mgmtMac)))) ∧
    (t.dev.pwr.mode ≠ .run → t.dev.pins.xamp = [none, none, none])

/-- What each reset leaves (R478 to R480): a power-on puts every domain, AO included, at its reset value; RESET_N and a brown-out hold every domain but
AO, whose calendar goes on; their ends start the HUB with causes 2 and 3; and a loss of the AO hold level loses AO too. -/
def Obligations.ResetsLeave : Prop :=
  (∀ s : State, Runs .powerOn s (fun d => d.pwr.aoOn = true ∧ d.pwr.hubOn = (!s.dev.pwr.resetLow) ∧ d.pwr.cause = 1 ∧ d.pwr.mode = .run ∧
    d.boot = Boot.reset ∧ d.sched = Sched.reset ∧ d.pup = Pup.reset ∧ d.cores = [] ∧ d.dram = [] ∧ d.queues = [] ∧
    d.rtc.now = ⟨0, 1, 1, 0, 0, 0⟩ ∧ (∀ a, d.word a = resetWord a) ∧ d.flash = s.dev.flash)) ∧
  (∀ s : State, s.dev.pwr.aoOn = true → Runs .resetNAssert s (fun d => d.pwr.hubOn = false ∧ d.pwr.resetLow = true ∧ d.pwr.cause = 2 ∧
    d.boot = Boot.reset ∧ d.sched = Sched.reset ∧ d.pup = Pup.reset ∧ d.cores = [] ∧ d.radios = [] ∧ d.dram = [] ∧ d.cip = Cip.reset ∧
    d.rtc.now = s.dev.rtc.now ∧ d.pwr.mode = s.dev.pwr.mode ∧ d.flash = s.dev.flash)) ∧
  (∀ s : State, s.dev.pwr.resetLow = true → s.dev.pwr.aoOn = true → s.dev.pwr.brown = false → s.dev.pwr.cause = 2 →
    Runs .resetNRelease s (fun d => d.pwr.resetLow = false ∧ d.pwr.hubOn = true ∧ d.pwr.cause = 2 ∧
      d.get R.EVT_RST_CAUSE F.EVT_RST_CAUSE_resets =
        min (s.dev.get R.EVT_RST_CAUSE F.EVT_RST_CAUSE_resets + 1) F.EVT_RST_CAUSE_resets.top)) ∧
  (∀ (s : State) (t : Nat), s.dev.pwr.aoOn = true → Runs (.brownOut t) s (fun d => d.pwr.hubOn = false ∧ d.pwr.brown = true ∧
    d.radios = [] ∧ d.pins.xamp = [none, none, none] ∧ d.boot = Boot.reset ∧ d.cores = [] ∧ d.rtc.now = s.dev.rtc.now)) ∧
  (∀ s : State, s.dev.pwr.brown = true → s.dev.pwr.resetLow = false → Runs .brownOutEnd s (fun d =>
    d.pwr.brown = false ∧ d.pwr.hubOn = true ∧ d.pwr.cause = 3)) ∧
  (∀ s : State, Runs .aoHoldLoss s (fun d => d.pwr.aoOn = false ∧ d.pwr.hubOn = false ∧ d.boot = Boot.reset ∧ d.cores = [] ∧ d.dram = [] ∧
    d.flash = s.dev.flash))

/-- The supply's range, control state, a domain clock and XO (R28, R467, R476, R481, R485): each shows in its event and in the state it changes. VIN
leaving its range or coming back is event 5, kept for later while the HUB is off; a control element with one bad copy is restored with event 62, kind
6, and with two the device resets with cause 5; a clock that fails stops its block on that die with event 63, kind 3; XO's failure stops them all. -/
def Obligations.FaultsOfTheWholeDeviceShow : Prop :=
  (∀ (s : State) (out : Bool), s.dev.pwr.aoOn = true → s.dev.pwr.vinOut ≠ out → Runs (.vinRange out) s (fun d =>
    d.pwr.vinOut = out ∧ (s.dev.pwr.hubOn = true → d.evtStatus 5 = true ∧ d.evtSeq 5 = (s.dev.evtSeq 5 + 1) % 65536) ∧
    (s.dev.pwr.hubOn = false → d.evt.lateq = s.dev.evt.lateq ++ [(5, 0, bitOf out)]))) ∧
  (∀ s : State, s.dev.hubUp = true → Runs (.controlStateMismatch false) s (fun d =>
    d.get R.EVT_RECOVERY F.EVT_RECOVERY_last_kind = 6 ∧ d.evtStatus 62 = true ∧ d.pwr.cause = s.dev.pwr.cause ∧
    d.get R.EVT_RECOVERY F.EVT_RECOVERY_actions =
      min (s.dev.get R.EVT_RECOVERY F.EVT_RECOVERY_actions + 1) F.EVT_RECOVERY_actions.top ∧
    d.get R.EVT_RECOVERY F.EVT_RECOVERY_corrected =
      min (s.dev.get R.EVT_RECOVERY F.EVT_RECOVERY_corrected + 1) F.EVT_RECOVERY_corrected.top)) ∧
  (∀ s : State, s.dev.hubUp = true → Runs (.controlStateMismatch true) s (fun d =>
    d.pwr.cause = 5 ∧ d.pwr.hubOn = true ∧ d.boot = Boot.reset ∧ d.cores = [] ∧ d.sched = Sched.reset ∧ d.rtc.now = s.dev.rtc.now)) ∧
  (∀ (s : State) (c : ClkDom) (die : Fin 8) (t : Nat), s.dev.hubUp = true → s.dev.present die.val = true → die.val ∈ domDies c →
    (c, die.val) ∉ s.dev.clkOff → Runs (.clockDomainFault c die t) s (fun d => d.clkOff = s.dev.clkOff ++ [(c, die.val)] ∧
      d.evtStatus 63 = true ∧ d.get R.EVT_FATAL F.EVT_FATAL_kind = 3 ∧ d.get R.EVT_FATAL F.EVT_FATAL_unit = die.val ∧
      d.get R.EVT_FATAL F.EVT_FATAL_count = min (s.dev.get R.EVT_FATAL F.EVT_FATAL_count + 1) F.EVT_FATAL_count.top ∧
      d.dieClockOff die.val = true ∧ (c = .core → die.val = 0 → d.hubUp = false) ∧
      ∀ r : RadioId, die.val = r.val + 1 → (d.radio r).air = [] ∧ (d.radio r).held = [])) ∧
  (∀ (s : State) (t : Nat), s.dev.hubUp = true → Runs (.xoFailure t) s (fun d => d.evtStatus 63 = true ∧
    d.get R.EVT_FATAL F.EVT_FATAL_kind = 3 ∧ d.get R.EVT_FATAL F.EVT_FATAL_unit = 0 ∧
    d.get R.EVT_FATAL F.EVT_FATAL_count = min (s.dev.get R.EVT_FATAL F.EVT_FATAL_count + 1) F.EVT_FATAL_count.top ∧
    (∀ c die, die ∈ domDies c → s.dev.present die = true → (c, die) ∈ d.clkOff) ∧ d.hubUp = false ∧
    ∀ r : RadioId, (d.radio r).air = [] ∧ (d.radio r).held = []))

/-- What the sensors, the supply outputs and the pads report (R15, R489, R500, R505). -/
def Obligations.SensorsPadsAndOutputs : Prop :=
  (∀ (s : State) (n : SensorId) (v : Int) (t : Nat), s.dev.dieUp (n.val / 2) = true → tempOk v = true → Runs (.tempSensorReading n v t) s (fun d =>
    smFind d.temps n.val = some v ∧ d.get (R.CAL_TEMP n.val) ⟨31, 31⟩ = 1 ∧ d.get (R.CAL_TEMP n.val) ⟨15, 0⟩ = wrapNat 16 v)) ∧
  (∀ (s : State) (n : SensorId) (v : Int) (t : Nat), s.dev.dieUp (n.val / 2) = true → tempOk v = false → Runs (.tempSensorReading n v t) s (fun d =>
    d.get (R.CAL_TEMP n.val) ⟨31, 31⟩ = 0 ∧ d.evt.trip = s.dev.evt.trip ∧ d.radios = s.dev.radios)) ∧
  (∀ (s : State) (mv : Nat) (n : Fin 32), s.dev.hubUp = true → s.dev.monOn n.val 9 0 = true → Runs (.supplySample mv) s (fun d =>
    (d.mon n.val).cur.count = min ((s.dev.mon n.val).cur.count + 1) (2 ^ 32 - 1) ∧
    (d.mon n.val).cur.max_ = max (s.dev.mon n.val).cur.max_ mv ∧ (d.mon n.val).cur.min_ = min (s.dev.mon n.val).cur.min_ mv)) ∧
  (∀ (s : State) (n : MacId), s.dev.pwr.aoOn = true → Runs (.cageOvercurrent n) s (fun d => d.cagesFolded.testBit n.val = true)) ∧
  (∀ (s : State) (n : MacId), s.dev.pwr.aoOn = true → Runs (.foldBackRetry n) s (fun d => d.cagesFolded.testBit n.val = false)) ∧
  (∀ (s : State) (k : Fin 24) (v : Option Bool), Runs (.gpioInputChange k v) s (fun d =>
    smGet (fun _ => none) d.pads k.val = v ∧ ∀ j, j ≠ k.val → smGet (fun _ => none) d.pads j = smGet (fun _ => none) s.dev.pads j))

/-- A direction of a link (R17, R18). -/
def Sys2Proof.dirOf (d : Dev) (n : Nat) (k : Dir) : LinkDir := (d.link n).dir k

/-- The string links carry, check, resend and lose lanes (R16 to R19, R22, R23): a transfer of one flit enters the replay buffer with the next number, a
good flit in order is delivered, a bad one is counted and discarded, an exhausted link stops and retrains, a retrain brings it up, and a lane that
fails is replaced by the spare with event 62. -/
def Obligations.LinksCarryAndRepair : Prop :=
  (∀ (s : State) (n : LinkId) (k : Dir) (ty : Fin 16) (p : Bytes), s.dev.dieUp (n.val + 1) = true → ty.val < 8 → p ≠ [] → p.length ≤ 248 →
    (s.dev.link n.val).isolated = false → (s.dev.link n.val).up = true → (dirOf s.dev n.val k).replay.length < 64 →
    (dirOf s.dev n.val k).stalled = [] → Runs (.flitSend n k ty p) s (fun d =>
      (dirOf d n.val k).replay = (dirOf s.dev n.val k).replay ++ [⟨(dirOf s.dev n.val k).next, ty.val, p, 0⟩] ∧
      (dirOf d n.val k).next = ((dirOf s.dev n.val k).next + 1) % 4096 ∧ (dirOf d n.val k).wire.length = 1)) ∧
  (∀ (s : State) (n : LinkId) (k : Dir) (raw : Bytes), s.dev.dieUp (n.val + 1) = true → (s.dev.link n.val).up = true → raw.length = 256 →
    leAt raw 252 4 = crc32 (raw.take 252) → leAt raw 0 2 % 4096 = (dirOf s.dev n.val k).expect → leAt raw 0 2 / 4096 ≠ 0 →
    Runs (.flitReceive n k raw none) s (fun d =>
      (dirOf d n.val k).delivered = (dirOf s.dev n.val k).delivered ++ [(leAt raw 0 2 / 4096, sliceB raw 4 248)] ∧
      (dirOf d n.val k).expect = ((dirOf s.dev n.val k).expect + 1) % 4096)) ∧
  (∀ (s : State) (n : LinkId) (k : Dir) (raw : Bytes), s.dev.dieUp (n.val + 1) = true → (s.dev.link n.val).up = true → raw.length = 256 →
    leAt raw 252 4 ≠ crc32 (raw.take 252) → Runs (.flitReceive n k raw none) s (fun d =>
      (dirOf d n.val k).delivered = (dirOf s.dev n.val k).delivered ∧ (dirOf d n.val k).expect = (dirOf s.dev n.val k).expect ∧
      d.get (R.LNK_ERRORS n.val) F.LNK_ERRORS_crc_errors =
        min (s.dev.get (R.LNK_ERRORS n.val) F.LNK_ERRORS_crc_errors + 1) F.LNK_ERRORS_crc_errors.top)) ∧
  (∀ (s : State) (n : LinkId), s.dev.hubUp = true → (s.dev.link n.val).up = true → (s.dev.link n.val).exhausted = true →
    Runs (.linkRetrain n) s (fun d => (d.link n.val).up = false ∧ (d.link n.val).retraining = true)) ∧
  (∀ (s : State) (n : LinkId), s.dev.hubUp = true → (s.dev.link n.val).retraining = true → (s.dev.link n.val).isolated = false →
    Runs (.linkRetrainDone n 0) s (fun d => (d.link n.val).up = true ∧ (d.link n.val).retraining = false)) ∧
  (∀ (s : State) (n : LinkId) (lane : Lane), s.dev.hubUp = true → s.dev.present (n.val + 1) = true → (s.dev.link n.val).isolated = false →
    lane.val < 8 → (s.dev.link n.val).spared = none → (s.dev.link n.val).retired.testBit lane.val = false →
    (s.dev.link n.val).retired.testBit 8 = false → Runs (.laneFailure n lane true) s (fun d =>
      (d.link n.val).spared = some lane.val ∧ (d.link n.val).retired = (s.dev.link n.val).retired + 2 ^ lane.val ∧ d.evtStatus 62 = true)) ∧
  (∀ (s : State) (n : LinkId), s.dev.hubUp = true → s.dev.present (n.val + 1) = true → (s.dev.link n.val).isolated = false →
    (s.dev.link n.val).spareUsed = false → (s.dev.link n.val).retired.testBit 8 = false → Runs (.spareCheckFail n) s (fun d =>
      (d.link n.val).retired = (s.dev.link n.val).retired + 2 ^ 8 ∧ (d.link n.val).spared = (s.dev.link n.val).spared ∧
      d.evtStatus 62 = s.dev.evtStatus 62))

/-- A register written from outside the queue takes the written bits, its own bits cleared or set by a 1, or none, as its access codes say; one whose
access is refused keeps its value (R10, R11, R33); and one that a block holds does what that block's rules say. -/
def Obligations.RegistersFollowTheirAccessCodes : Prop :=
  (∀ (s : State) (a w : Word) (k : Nat), s.dev.hubUp = true → s.dev.evt.pend = [] → s.dev.accessStatus [a.toNat] = 0 → a.toNat < 0x10000 →
    a.toNat ≠ R.PWR_AO_STATUS → Runs (.registerWrite a w) s (fun d => (∀ b, b ≠ a.toNat → d.word b = s.dev.word b) ∧
      ((accMask (· = .rw) a.toNat).getLsbD k = true → (d.word a.toNat).getLsbD k = w.getLsbD k) ∧
      ((accMask (· = .rw) a.toNat).getLsbD k = false → (accMask (fun x => x = .w1s || x = .rwsc) a.toNat).getLsbD k = false →
        (accMask (· = .w1c) a.toNat).getLsbD k = true → (d.word a.toNat).getLsbD k = ((s.dev.word a.toNat).getLsbD k && !w.getLsbD k)) ∧
      ((accMask (· = .rw) a.toNat).getLsbD k = false → (accMask (· = .w1c) a.toNat).getLsbD k = false →
        (accMask (fun x => x = .w1s || x = .rwsc) a.toNat).getLsbD k = true →
          (d.word a.toNat).getLsbD k = ((s.dev.word a.toNat).getLsbD k || w.getLsbD k)) ∧
      ((accMask (· = .rw) a.toNat).getLsbD k = false → (accMask (· = .w1c) a.toNat).getLsbD k = false →
        (accMask (fun x => x = .w1s || x = .rwsc) a.toNat).getLsbD k = false →
          (d.word a.toNat).getLsbD k = (s.dev.word a.toNat).getLsbD k))) ∧
  (∀ (s : State) (a w : Word), s.dev.hubUp = true → s.dev.evt.pend = [] → s.dev.accessStatus [a.toNat] ≠ 0 →
    Runs (.registerWrite a w) s (fun d => d.regs = s.dev.regs)) ∧
  (∀ (s : State) (a w : Word), s.dev.hubUp = true → s.dev.accessStatus [a.toNat] = 0 → (s.dev.busWrite a.toNat w).1.evt.pend = [] →
    Runs (.registerWrite a w) s (fun d => ∀ b, d.word b = (s.dev.busWrite a.toNat w).1.word b))

/-- The instant that a write of v to RTC_SEC commits: each staged field, or the running calendar's where none is staged (R452). -/
def Sys2Proof.stagedUtc (d : Dev) (v : Nat) : Utc :=
  ⟨d.rtc.stYear.getD d.rtc.now.year, d.rtc.stMonth.getD d.rtc.now.month, d.rtc.stDay.getD d.rtc.now.day, d.rtc.stHour.getD d.rtc.now.hour,
    d.rtc.stMin.getD d.rtc.now.minute, v % 64⟩

/-- Setting the calendar (R452, R453, R455): fields are staged, a write to RTC_SEC or a whole second of NT with nt_set pending commits, a commit out of
range changes no time and sets set_err. Leap seconds, trim and alarms (R457, R459, R460, R461). -/
def Obligations.CalendarIsSetAndTrimmed : Prop :=
  (∀ (s : State) (f : RtcField) (v : Nat), s.dev.hubUp = true → Runs (.rtcFieldStage f v) s (fun d => d.rtc.now = s.dev.rtc.now ∧
    (match f with
      | .minute => d.rtc.stMin = some (v % 64) ∧ d.rtc.stHour = s.dev.rtc.stHour
      | .hour => d.rtc.stHour = some (v % 32) ∧ d.rtc.stDay = s.dev.rtc.stDay
      | .day => d.rtc.stDay = some (v % 32) ∧ d.rtc.stMonth = s.dev.rtc.stMonth
      | .month => d.rtc.stMonth = some (v % 16) ∧ d.rtc.stYear = s.dev.rtc.stYear
      | .year => d.rtc.stYear = some (v % 256) ∧ d.rtc.stMin = s.dev.rtc.stMin))) ∧
  (∀ (s : State) (v : Nat), s.dev.hubUp = true → (stagedUtc s.dev v).ok = true → Runs (.rtcSecWrite v) s (fun d =>
    d.rtc.now = stagedUtc s.dev v ∧ d.rtc.stMin = none ∧ d.rtc.stHour = none ∧ d.rtc.stDay = none ∧ d.rtc.stMonth = none ∧ d.rtc.stYear = none)) ∧
  (∀ (s : State) (v : Nat), s.dev.hubUp = true → (stagedUtc s.dev v).ok = false → Runs (.rtcSecWrite v) s (fun d =>
    d.rtc.now = s.dev.rtc.now ∧ d.get R.RTC_STATUS F.RTC_STATUS_set_err = 1 ∧ d.rtc.stMin = none ∧ d.rtc.stHour = none ∧ d.rtc.stDay = none ∧
    d.rtc.stMonth = none ∧ d.rtc.stYear = none)) ∧
  (∀ s : State, s.dev.hubUp = true → Runs .rtcNtSet s (fun d => d.get R.RTC_CTRL F.RTC_CTRL_nt_set = 1)) ∧
  (∀ (s : State) (t : Nat), s.dev.hubUp = true → s.dev.flag R.RTC_CTRL F.RTC_CTRL_nt_set = true → s.dev.nt ≤ t → t % 1000000000 = 0 →
    2 ≤ s.dev.clkState → s.dev.rtc.now.second ≠ 60 → (s.dev.utcAt t).ok = true → Runs (.rtcNtSetCommit t) s (fun d =>
      d.rtc.now = s.dev.utcAt t ∧ d.get R.RTC_CTRL F.RTC_CTRL_nt_set = 0)) ∧
  (∀ (s : State) (w : Word), s.dev.hubUp = true → Runs (.rtcLeapWrite w) s (fun d =>
    d.get R.RTC_LEAP F.RTC_LEAP_year = F.RTC_LEAP_year.of w ∧ d.get R.RTC_LEAP F.RTC_LEAP_month = F.RTC_LEAP_month.of w ∧
    d.get R.RTC_LEAP F.RTC_LEAP_day = F.RTC_LEAP_day.of w ∧
    (dateLt (F.RTC_LEAP_year.of w) (F.RTC_LEAP_month.of w) (F.RTC_LEAP_day.of w) s.dev.rtc.now.year s.dev.rtc.now.month s.dev.rtc.now.day = true →
      d.get R.RTC_LEAP F.RTC_LEAP_armed = 0))) ∧
  (∀ (s : State) (a : Fin 2) (w : Word), s.dev.hubUp = true →
    Runs (.rtcAlarmWrite a .time w) s (fun d => d.word (R.RTC_ALM_TIME a.val) = w &&& 0x071F3F3F) ∧
    Runs (.rtcAlarmWrite a .date w) s (fun d => d.word (R.RTC_ALM_DATE a.val) = w &&& 0x00FF0F1F) ∧
    Runs (.rtcAlarmWrite a .ctrl w) s (fun d => d.word (R.RTC_ALM_CTRL a.val) =
      (w &&& 0x0000FF04) ||| (s.dev.word (R.RTC_ALM_CTRL a.val) &&& 3 &&& ~~~w))) ∧
  (∀ (s : State) (c t start n : Nat), s.dev.hubUp = true → s.dev.rtc.trimAt = some (start, n) → (start + n) * 1000000000 ≤ t →
    Runs (.rtcTrimDone c t) s (fun d => d.get R.RTC_TRIM_MEAS F.RTC_TRIM_MEAS_valid = 1 ∧ d.evtStatus 23 = true))

/-- The calendar's running and reading (R451, R454): a second tick advances it, a read of RTC_SEC returns and latches it, a read of RTC_YEAR returns the
latched year and releases the latch, and so does the passing of 1 s. -/
def Obligations.CalendarRunsAndReads : Prop :=
  (∀ (s : State) (t : Nat), s.dev.pwr.aoOn = true → s.dev.rtc.now.second < 58 → Runs (.rtcSecondTick t) s (fun d =>
    d.rtc.now = { s.dev.rtc.now with second := s.dev.rtc.now.second + 1 })) ∧
  (∀ s : State, s.dev.hubUp = true → Runs .rtcSecRead s (fun d =>
    d.rdata = BitVec.ofNat 32 (s.dev.rtcTicks * 65536 + s.dev.rtc.now.second) ∧ d.rtc.snap = some (s.dev.rtc.now, s.dev.rtcTicks, s.dev.xo) ∧
    d.rtc.now = s.dev.rtc.now)) ∧
  (∀ s : State, s.dev.hubUp = true → Runs .rtcYearRead s (fun d => d.rtc.snap = none ∧
    d.rdata = BitVec.ofNat 32 (match s.dev.rtc.snap with | some (u, _, _) => u.year | none => s.dev.rtc.now.year))) ∧
  (∀ (s : State) (t x k : Nat) (u : Utc), s.dev.pwr.aoOn = true → s.dev.rtc.snap = some (u, k, x) → s.dev.nt ≤ t →
    x + 1000000000 ≤ (s.dev.at_ t).xo → Runs (.rtcSnapshotTimeout t) s (fun d => d.rtc.snap = none))

/-- The instant of a command that comes at t: NT never moves back. -/
def Sys2Proof.instantOf (s : State) (t : Nat) : Nat := max s.dev.nt t

/-- The event log's reads and the Abacus monitors (R487, R490, R493). The snapshot of NT and PPS_OUT (R40, R53). -/
def Obligations.LogMonitorsAndSnapshotRead : Prop :=
  (∀ (s : State) (r : LogRec) (rest : List LogRec), s.dev.hubUp = true → s.dev.evt.log = r :: rest → Runs (.evtLogRec0Read []) s (fun d =>
    d.rdata = r.w0 ∧ d.evt.latch = some r)) ∧
  (∀ s : State, s.dev.hubUp = true → s.dev.evt.log = [] → Runs (.evtLogRec0Read []) s (fun d => d.rdata = 0)) ∧
  (∀ (s : State) (r : LogRec), s.dev.hubUp = true → s.dev.evt.pend = [] → s.dev.evt.latch = some r → Runs .evtLogRec3Read s (fun d =>
    d.rdata = r.w3 ∧ d.evt.latch = none ∧ d.evt.log = s.dev.evt.log.tail)) ∧
  (∀ s : State, s.dev.hubUp = true → s.dev.evt.pend = [] → s.dev.evt.latch = none → Runs .evtLogRec3Read s (fun d =>
    d.rdata = 0 ∧ d.evt.log = s.dev.evt.log)) ∧
  (∀ (s : State) (n : Fin 32) (t : Nat), s.dev.hubUp = true → s.dev.nt ≤ t → t % s.dev.monWindow n.val = 0 → Runs (.monWindowEnd n t) s (fun d =>
    (d.mon n.val).last = ⟨(s.dev.mon n.val).cur, ((s.dev.mon n.val).last.seq + 1) % 65536, false⟩ ∧ (d.mon n.val).cur = MonStat.empty)) ∧
  (∀ (s : State) (n : Fin 32) (win : Bool) (w : Word), s.dev.hubUp = true → Runs (.monCfgWrite n win w) s (fun d =>
    (d.mon n.val).cur = MonStat.empty ∧ (d.mon n.val).last = (s.dev.mon n.val).last ∧
    d.word (if win then R.MON_WIN n.val else R.MON_CFG n.val) =
      writtenWord (if win then R.MON_WIN n.val else R.MON_CFG n.val) (s.dev.word (if win then R.MON_WIN n.val else R.MON_CFG n.val)) w)) ∧
  (∀ (s : State) (n : Fin 32), s.dev.hubUp = true → Runs (.monStatusRead n) s (fun d =>
    d.rdata = BitVec.ofNat 32 (bitOf (s.dev.mon n.val).last.stepped * 65536 + (s.dev.mon n.val).last.seq) ∧
    (d.mon n.val).latch = some ((s.dev.mon n.val).last, s.dev.xo))) ∧
  (∀ (s : State) (n : Fin 32) (r : MonRes) (x : Nat), s.dev.hubUp = true → (s.dev.mon n.val).latch = some (r, x) → Runs (.monHist31Read n) s (fun d =>
    d.rdata = BitVec.ofNat 32 (smGet (fun _ => 0) r.stat.hist 31) ∧ (d.mon n.val).latch = none)) ∧
  (∀ (s : State) (n : Fin 32) (t x : Nat) (r : MonRes), s.dev.hubUp = true → (s.dev.mon n.val).latch = some (r, x) → s.dev.nt ≤ t →
    x + 1000000000 ≤ (s.dev.at_ t).xo → Runs (.monLatchTimeout n t) s (fun d => (d.mon n.val).latch = none)) ∧
  (∀ s : State, s.dev.hubUp = true → Runs .clkNtSecHiRead s (fun d =>
    d.rdata = BitVec.ofNat 32 (s.dev.nt / 1000000000 / 2 ^ 32 % 65536) ∧ d.clk.snap = some (s.dev.nt, s.dev.xo))) ∧
  (∀ (s : State) (u x : Nat), s.dev.hubUp = true → s.dev.clk.snap = some (u, x) → Runs .clkSlotRead s (fun d =>
    d.rdata = BitVec.ofNat 32 (u / slotNs % 256) ∧ d.clk.snap = none)) ∧
  (∀ s : State, s.dev.hubUp = true → s.dev.clk.snap = none → Runs .clkSlotRead s (fun d =>
    d.rdata = BitVec.ofNat 32 (s.dev.nt / slotNs % 256) ∧ d.clk.snap = none)) ∧
  (∀ (s : State) (t u x : Nat), s.dev.hubUp = true → s.dev.clk.snap = some (u, x) → s.dev.nt ≤ t → x + 1000000 ≤ (s.dev.at_ t).xo →
    Runs (.clkSnapshotTimeout t) s (fun d => d.clk.snap = none)) ∧
  (∀ (s : State) (t : Nat), s.dev.hubUp = true → s.dev.ppsRuns = true → instantOf s t % 1000000000 = 0 → s.dev.boot.phase ≠ .idle →
    Runs (.ppsOutRise t) s (fun d => d.clk.ppsRise = some (instantOf s t) ∧ d.pins.ppsOut = some true)) ∧
  (∀ (s : State) (t r : Nat), s.dev.hubUp = true → s.dev.clk.ppsRise = some r → r + s.dev.ppsWidth ≤ instantOf s t → s.dev.boot.phase ≠ .idle →
    Runs (.ppsOutFall t) s (fun d => d.clk.ppsRise = none ∧ d.pins.ppsOut = some false))

/-- The references (R45, R47 to R49): a master is followed, a good sample counts toward validity and a bad one is counted as rejected, 3 s without one
make a reference invalid with event 19, and the seconds of a PPS_IN edge are loaded when asked for. -/
def Obligations.ReferencesAreJudged : Prop :=
  (∀ (s : State) (m : PtpMsg) (t : Nat), s.dev.hubUp = true → s.dev.refOn .ptp = true → s.dev.get R.CLK_PTP_CTRL F.CLK_PTP_CTRL_port = m.mac.val →
    s.dev.get R.CLK_PTP_CTRL F.CLK_PTP_CTRL_transport = m.transport.val → s.dev.get R.CLK_PTP_CTRL F.CLK_PTP_CTRL_domain = m.domain →
    s.dev.clk.master = none → m.body = .announce → Runs (.ptpMessage m t) s (fun d => d.clk.master = some m.master)) ∧
  (∀ (s : State) (m : PtpMsg) (t x : Nat) (o i : Int), s.dev.hubUp = true → s.dev.refOn .ptp = true →
    s.dev.get R.CLK_PTP_CTRL F.CLK_PTP_CTRL_port = m.mac.val → s.dev.get R.CLK_PTP_CTRL F.CLK_PTP_CTRL_transport = m.transport.val →
    s.dev.get R.CLK_PTP_CTRL F.CLK_PTP_CTRL_domain = m.domain → s.dev.clk.master = some x → x ≠ m.master → m.body = .sync1 o i →
    Runs (.ptpMessage m t) s (fun d => d.clk.master = some x ∧ d.clk.ptp.run = 0 ∧
      d.get R.CLK_REJECTS F.CLK_REJECTS_ptp = min (s.dev.get R.CLK_REJECTS F.CLK_REJECTS_ptp + 1) F.CLK_REJECTS_ptp.top)) ∧
  (∀ (s : State) (m : PtpMsg) (t : Nat) (o i : Int), s.dev.hubUp = true → s.dev.refOn .ptp = true →
    s.dev.get R.CLK_PTP_CTRL F.CLK_PTP_CTRL_port = m.mac.val → s.dev.get R.CLK_PTP_CTRL F.CLK_PTP_CTRL_transport = m.transport.val →
    s.dev.get R.CLK_PTP_CTRL F.CLK_PTP_CTRL_domain = m.domain → s.dev.clk.master = some m.master → s.dev.clk.ptpSeq = none →
    s.dev.clk.ptpLead = none → m.body = .sync1 o i → Runs (.ptpMessage m t) s (fun d => d.clk.master = some m.master ∧
      d.clk.ptp.run = min (s.dev.clk.ptp.run + 1) 16 ∧ d.clk.ptpSeq = some m.seq ∧ d.clk.syncT = some (o, i) ∧
      d.word R.CLK_REJECTS = s.dev.word R.CLK_REJECTS)) ∧
  (∀ (s : State) (t : Nat), s.dev.hubUp = true → s.dev.refOn .pps = true → s.dev.clk.ppsAgree < 3 → Runs (.ppsEdge t) s (fun d =>
    d.clk.ppsLast = some (((s.dev.at_ t).xo : Int) - sext 12 (s.dev.get R.CLK_PPS_CTRL F.CLK_PPS_CTRL_in_delay)) ∧
    d.clk.pps.run = min (s.dev.clk.pps.run + 1) 16 ∧ d.get R.CLK_TOD_CTRL F.CLK_TOD_CTRL_load = 0)) ∧
  (∀ (s : State) (t : Nat) (l x : Int), s.dev.hubUp = true → s.dev.refOn .pps = true → 3 ≤ s.dev.clk.ppsAgree → s.dev.clk.ppsLast = some l →
    x = ((s.dev.at_ t).xo : Int) - sext 12 (s.dev.get R.CLK_PPS_CTRL F.CLK_PPS_CTRL_in_delay) →
    (nearSec (x - l) < 1 ∨ 2000 < (x - l - nearSec (x - l) * 1000000000).natAbs) → Runs (.ppsEdge t) s (fun d =>
      d.clk.pps.run = 0 ∧ d.clk.ppsLast = some l ∧
      d.get R.CLK_REJECTS F.CLK_REJECTS_pps = min (s.dev.get R.CLK_REJECTS F.CLK_REJECTS_pps + 1) F.CLK_REJECTS_pps.top)) ∧
  (∀ (s : State) (ppb : Int) (t : Nat), s.dev.hubUp = true → s.dev.refOn .ref10m = true → ppb.natAbs ≤ 20000 → Runs (.ref10mMeasurement ppb t) s
    (fun d => d.clk.ref.run = min (s.dev.clk.ref.run + 1) 16)) ∧
  (∀ (s : State) (ppb : Int) (t : Nat), s.dev.hubUp = true → s.dev.refOn .ref10m = true → 20000 < ppb.natAbs → Runs (.ref10mMeasurement ppb t) s
    (fun d => d.clk.ref.run = 0 ∧ d.get R.CLK_REJECTS_REF F.CLK_REJECTS_REF_ref10m =
      min (s.dev.get R.CLK_REJECTS_REF F.CLK_REJECTS_REF_ref10m + 1) F.CLK_REJECTS_REF_ref10m.top)) ∧
  (∀ (s : State) (k : RefId) (t x : Nat), s.dev.hubUp = true → (s.dev.refSt k).at_ = some x → s.dev.nt ≤ t →
    x + 3000000000 ≤ (s.dev.at_ t).xo → s.dev.refValid k = true → Runs (.referenceTimeout k t) s (fun d =>
      d.refValid k = false ∧ d.refSt k = RefSt.reset ∧ d.evtStatus 19 = true)) ∧
  (∀ s : State, s.dev.hubUp = true → Runs .clkTodLoad s (fun d => d.get R.CLK_TOD_CTRL F.CLK_TOD_CTRL_load = 1))

/-- The time grid (R41, R42, R52, R55, R57): a slot start is the first instant of its slot and is served once, a superframe boundary puts the written
quiet slot in force, and a step of NT is applied at the instant it waited for, with event 18. -/
def Obligations.GridAndSteps : Prop :=
  (∀ (s : State) (a : Nat), s.dev.hubUp = true → s.dev.nt ≤ a * slotNs → s.dev.slotServed a = false → Runs (.slotStart a [] []) s (fun d =>
    d.nt = a * slotNs ∧ d.clk.lastSlot = some a)) ∧
  (∀ (s : State) (sf : Nat), s.dev.hubUp = true → s.dev.nt ≤ sf * superNs → Runs (.superframeBoundary sf) s (fun d =>
    d.nt = sf * superNs ∧ d.clk.quiet = s.dev.get R.CLK_CTRL F.CLK_CTRL_quiet_slot ∧ d.clk.holdSum = 0 ∧ d.clk.holdN = 0)) ∧
  (∀ (s : State) (t : Nat) (x : Int), s.dev.hubUp = true → s.dev.clk.stepMs = some x → s.dev.nt ≤ t → t % 1000000 = 0 →
    Runs (.stepApplyMs t) s (fun d => d.nt = ((t : Int) + x).toNat ∧ d.clk.stepMs = none ∧ d.clk.good = 0 ∧ d.evtStatus 18 = true)) ∧
  (∀ (s : State) (t : Nat) (x : Int), s.dev.hubUp = true → s.dev.clk.stepQuiet = some x → s.dev.nt ≤ t → t % slotNs = 0 →
    slotOf t = s.dev.quietAt t → Runs (.stepApplyQuiet t) s (fun d =>
      d.nt = ((t : Int) + x).toNat ∧ d.clk.stepQuiet = none ∧ d.clk.good = 0 ∧ d.evtStatus 18 = true))

/-- Arming, refusing and cancelling an action (R58, R59, R63, R65). -/
def Obligations.ActionsAreArmedAndCancelled : Prop :=
  (∀ (s : State) (i : Nat), s.dev.hubUp = true →
    s.dev.armValid s.dev.stagedAct (s.dev.get R.CLK_ACT_TIME_NS F.CLK_ACT_TIME_NS_ns) = true → smLowestFree s.dev.acts 1024 = some i →
    s.dev.nt + 2000 ≤ s.dev.stagedAct.time → Runs (.actionArm []) s (fun d => smFind d.acts i = some s.dev.stagedAct ∧
      (∀ j, j ≠ i → smFind d.acts j = smFind s.dev.acts j) ∧ d.get R.CLK_ACT_RESULT F.CLK_ACT_RESULT_outcome = 1 ∧
      d.get R.CLK_ACT_RESULT F.CLK_ACT_RESULT_index = i)) ∧
  (∀ s : State, s.dev.hubUp = true → s.dev.armValid s.dev.stagedAct (s.dev.get R.CLK_ACT_TIME_NS F.CLK_ACT_TIME_NS_ns) = false →
    Runs (.actionArm []) s (fun d => d.acts = s.dev.acts ∧ d.get R.CLK_ACT_RESULT F.CLK_ACT_RESULT_outcome = 6)) ∧
  (∀ s : State, s.dev.hubUp = true → s.dev.armValid s.dev.stagedAct (s.dev.get R.CLK_ACT_TIME_NS F.CLK_ACT_TIME_NS_ns) = true →
    smLowestFree s.dev.acts 1024 = none → Runs (.actionArm []) s (fun d => d.acts = s.dev.acts ∧
      d.get R.CLK_ACT_RESULT F.CLK_ACT_RESULT_outcome = 5 ∧ (s.dev.stagedAct.ty = 1 → d.evtStatus 46 = true))) ∧
  (∀ (s : State) (a : ActId), s.dev.hubUp = true → Runs (.actionCancel a) s (fun d =>
    smFind d.acts a.val = none ∧ (∀ j, j ≠ a.val → smFind d.acts j = smFind s.dev.acts j) ∧
    d.get R.CLK_ACT_RESULT F.CLK_ACT_RESULT_index = a.val ∧ d.get R.CLK_ACT_RESULT F.CLK_ACT_RESULT_outcome =
      (if (smFind s.dev.acts a.val).isSome then 7 else if s.dev.actsFired.contains a.val then 8 else 9)))

/-- What each type of action does when it fires, and that it then leaves the list: a burst set starts where the radio can send, is held where it cannot
yet, and is cancelled where checks 1 to 5 say so (R60, R61, R116 to R118, R315, R337, R408, R436, R505, R510). -/
def Obligations.ActionsFire : Prop :=
  (∀ (s : State) (i : ActId) (t : Nat) (a : Act) (r : RadioId), s.dev.radioUp r = true → (s.dev.at_ t).firing i 1 = some a → a.target = r.val →
    s.dev.txCheck r = none → (s.dev.burstSet r a.arg).1 ≠ [] → s.dev.canSend r = false → Runs (.radTxStart i t) s (fun d =>
      smFind d.acts i.val = none ∧ (d.radio r).held = (s.dev.radio r).held ++ [⟨a.arg, a.time, (s.dev.burstSet r a.arg).1⟩])) ∧
  (∀ (s : State) (i : ActId) (t p : Nat) (a : Act) (r : RadioId) (x : TxDesc), s.dev.radioUp r = true → (s.dev.at_ t).firing i 1 = some a →
    a.target = r.val → s.dev.txCheck r = none → (s.dev.burstSet r a.arg).1 = [x] → s.dev.canSend r = true → s.dev.txPort r = some p →
    (s.dev.radio r).subs + groupOf x.size ≤ s.dev.txShare r →
    (s.dev.at_ t).rpVerdict r (s.dev.carrierOf r a.arg p (sampleInstant a.time) x) a.time = none → Runs (.radTxStart i t) s (fun d =>
      smFind d.acts i.val = none ∧ (d.radio r).held = (s.dev.radio r).held ∧
      (d.radio r).air = (s.dev.radio r).air ++ [s.dev.carrierOf r a.arg p (sampleInstant a.time) x])) ∧
  (∀ (s : State) (i : ActId) (t : Nat) (a : Act) (r : RadioId) (cause : Nat), s.dev.radioUp r = true → (s.dev.at_ t).firing i 1 = some a →
    a.target = r.val → s.dev.txCheck r = some cause → (s.dev.burstSet r a.arg).1 ≠ [] → Runs (.radTxStart i t) s (fun d =>
      smFind d.acts i.val = none ∧ (d.radio r).held = (s.dev.radio r).held ∧ (d.radio r).air = (s.dev.radio r).air ∧
      d.get (R.RAD_TX_CANCEL r) F.RAD_TX_CANCEL_last_cause = cause ∧ d.evtStatus 28 = true)) ∧
  (∀ (s : State) (i : ActId) (t : Nat) (a : Act) (r : RadioId), s.dev.radioUp r = true → (s.dev.at_ t).firing i 2 = some a → a.target = r.val →
    a.arg < 4 → s.dev.radInTx r = false → Runs (.radState i t) s (fun d => smFind d.acts i.val = none ∧ d.radTarget r = a.arg)) ∧
  (∀ (s : State) (i : ActId) (t : Nat) (a : Act), s.dev.hubUp = true → (s.dev.at_ t).firing i 3 = some a → s.dev.activeGen ≠ a.arg % 2 →
    Runs (.clsGenSwitch i t) s (fun d => smFind d.acts i.val = none ∧ d.activeGen = a.arg % 2 ∧
      (s.dev.genFlight s.dev.activeGen = 0 → d.evtStatus 48 = true ∧ d.flag R.CLS_GEN F.CLS_GEN_drained = true) ∧
      (s.dev.genFlight s.dev.activeGen ≠ 0 → d.flag R.CLS_GEN F.CLS_GEN_drained = false))) ∧
  (∀ (s : State) (i : ActId) (t : Nat) (a : Act) (n : MacId), s.dev.hubUp = true → (s.dev.at_ t).firing i 4 = some a → a.target = n.val →
    Runs (.shpGateTakeover i t) s (fun d => smFind d.acts i.val = none ∧ d.get (R.SHP_PORT_CTRL n) F.SHP_PORT_CTRL_bank = a.arg % 2 ∧
      d.get (R.SHP_PORT_CTRL n) F.SHP_PORT_CTRL_has_list = 1 ∧ d.get (R.SHP_PORT_T0_NS n) F.SHP_PORT_T0_NS_ns = a.time % 1000000000 ∧
      d.evtStatus 51 = true)) ∧
  (∀ (s : State) (i : ActId) (t : Nat) (a : Act), s.dev.hubUp = true → (s.dev.at_ t).firing i 5 = some a → a.arg < 8 →
    ¬(instantOf s t % slotNs = 0 ∧ s.dev.clk.lastSlot = some (absSlot (instantOf s t))) → Runs (.cfgStageTakeover i t) s (fun d =>
      smFind d.acts i.val = none ∧ d.stagesFired = s.dev.stagesFired ++ [a.arg] ∧ d.sched.dirTake = true)) ∧
  (∀ (s : State) (i : ActId) (t : Nat) (a : Act) (r : RadioId), s.dev.radioUp r = true → (s.dev.at_ t).firing i 6 = some a → a.target = r.val →
    (a.arg = 2 ∨ a.arg = 1 ∧ s.dev.vcoDue r = true) → (s.dev.radState r = radRX ∨ s.dev.radState r = radTUNE) →
    s.dev.radTarget r = s.dev.radState r → Runs (.calQuiet i t) s (fun d =>
      smFind d.acts i.val = none ∧ d.radState r = radVCO ∧ d.radLocked r = false)) ∧
  (∀ (s : State) (i : ActId) (t : Nat) (a : Act), s.dev.hubUp = true → (s.dev.at_ t).firing i 7 = some a → a.target < 24 →
    Runs (.gpioLevel i t) s (fun d => smFind d.acts i.val = none ∧ d.get R.GPIO_OUT ⟨a.target, a.target⟩ = a.arg % 2 ∧
      ∀ j, j < 24 → j ≠ a.target → d.get R.GPIO_OUT ⟨j, j⟩ = s.dev.get R.GPIO_OUT ⟨j, j⟩))

/-- R119: a burst set that fires while the radio is OFF, or is heading to OFF, is cancelled with cause 5, and event 28 is raised. -/
def Obligations.BurstsAreCancelledInOff : Prop :=
  ∀ (s : State) (i : ActId) (t : Nat) (a : Act) (r : RadioId), s.dev.radioUp r = true → (s.dev.at_ t).firing i 1 = some a → a.target = r.val →
    (s.dev.radState r = radOFF ∨ s.dev.radTarget r = radOFF) → (s.dev.burstSet r a.arg).1 ≠ [] → Runs (.radTxStart i t) s (fun d =>
      (d.radio r).air = (s.dev.radio r).air ∧ (d.radio r).held = (s.dev.radio r).held ∧ smFind d.acts i.val = none ∧
      d.get (R.RAD_TX_CANCEL r) F.RAD_TX_CANCEL_last_cause = 5 ∧ d.evtStatus 28 = true)

/-- A radio is told where to tune and calibrates its VCO (R109, R110, R113, R115, R409). A synthesiser that loses lock takes its radio to TUNE with event
27, and one that relocks takes it on to the state it was going to (R114). -/
def Obligations.RadiosTuneAndLock : Prop :=
  (∀ (s : State) (r : RadioId) (fc : Word), s.dev.dieUp (r.val + 1) = true → Runs (.radFcWrite r fc) s (fun d =>
    d.word (R.RAD_FC r) = (if fcLow r ≤ fc.toNat ∧ fc.toNat ≤ fcHigh r then fc else s.dev.word (R.RAD_FC r)))) ∧
  (∀ (s : State) (r : RadioId), s.dev.dieUp (r.val + 1) = true → Runs (.vcoCalRequest r) s (fun d =>
    d.vcoDue r = true ∧ d.get (R.RAD_CTRL r) F.RAD_CTRL_vco_cal_req = 1)) ∧
  (∀ (s : State) (r : RadioId) (t : Nat), s.dev.radioUp r = true → s.dev.radState r ≠ s.dev.radTarget r → s.dev.radState r ≠ radTX →
    s.dev.radState r ≠ radVCO → (s.dev.radState r = radTUNE → s.dev.radLocked r = true ∨ s.dev.radTarget r ≤ radTUNE) → s.dev.vcoDue r = false →
    s.dev.rxBarred r (nextRadState (s.dev.radState r) (s.dev.radTarget r)) = false →
    Runs (.radioTransitionDone r t) s (fun d =>
      d.radState r = nextRadState (s.dev.radState r) (s.dev.radTarget r) ∧
      (s.dev.radState r = radREADY → radTUNE ≤ s.dev.radTarget r →
        let fc := s.dev.get (R.RAD_FC r) F.RAD_FC_fc
        d.radLocked r = true ∧ d.get (R.RAD_SYN r) F.RAD_SYN_div_log2 = divLog2 r fc ∧
          d.get (R.RAD_SYN_FRAC r) F.RAD_SYN_FRAC_n_frac = synthN r fc % 2 ^ 24))) ∧
  (∀ (s : State) (r : RadioId) (b : Fin 128) (t : Nat), s.dev.radioUp r = true → s.dev.radState r = radVCO →
    Runs (.vcoCalibrationDone r (some b) t) s (fun d => d.radState r = radTUNE ∧ d.vcoDue r = false ∧
      d.get (R.CAL_RAD_VCO r) F.CAL_RAD_VCO_band = b.val ∧ d.evtStatus 59 = true)) ∧
  (∀ (s : State) (r : RadioId) (t : Nat), s.dev.radioUp r = true → s.dev.radState r = radVCO →
    Runs (.vcoCalibrationDone r none t) s (fun d => d.radState r = radTUNE ∧ d.evtStatus 60 = true)) ∧
  (∀ (s : State) (r : RadioId) (t : Nat), s.dev.radioUp r = true → s.dev.radLocked r = true →
    (s.dev.radState r = radRX ∨ s.dev.radState r = radTX) → Runs (.synthUnlock r t) s (fun d =>
      d.radState r = radTUNE ∧ d.radLocked r = false ∧ d.evtStatus 27 = true ∧ (s.dev.radState r = radTX → (d.radio r).air = []))) ∧
  (∀ (s : State) (r : RadioId) (t : Nat), s.dev.radioUp r = true → s.dev.radLocked r = false → s.dev.radState r = radTUNE →
    s.dev.radTarget r = radRX → s.dev.rxBarred r radRX = false → (s.dev.radio r).held = [] → Runs (.synthRelock r t) s (fun d =>
      d.radState r = radRX ∧ d.radLocked r = true))

/-- A radio leaves for TX at T - lead of its next RAD_TX_START, from whatever state but OFF it holds (R118); a held burst set starts at a sample instant
once the radio can send, and a burst of it that would no longer fit its slots is cancelled (R121); tx_guard after T a set that has not started is
cancelled and the radio leaves TX (R122); a carrier that ends counts as sent, and the last one takes the radio to the state that a RAD_STATE named or
to its transmit-return state, unless a RAD_TX_START stands less than 100 us ahead (R117, R120); and a return loss below 3 dB aborts what its port
carries and marks it faulty (R135, R136). -/
def Obligations.TransmissionsStartAndEnd : Prop :=
  (∀ (s : State) (r : RadioId) (t T : Nat), s.dev.radioUp r = true → s.dev.nextTx r = some T → s.dev.radState r ≠ radOFF →
    s.dev.radTarget r ≠ radOFF → s.dev.radInTx r = false → (s.dev.radio r).returning = false →
    T ≤ instantOf s t + s.dev.lead r (s.dev.radState r) → Runs (.txLeaveStart r t) s (fun d =>
      (d.radio r).leaving = true ∧ d.radTarget r = radTX ∧
      d.radState r = (if s.dev.radState r = radREADY ∧ s.dev.vcoDue r = true then radVCO else s.dev.radState r) ∧
      (d.radio r).after = (if (s.dev.radio r).commanded || (s.dev.radio r).forced then some (s.dev.radTarget r) else (s.dev.radio r).after))) ∧
  (∀ (s : State) (r : RadioId) (t p : Nat) (h : HeldSet) (x : TxDesc), s.dev.radioUp r = true → s.dev.canSend r = true →
    (s.dev.radio r).held = [h] → h.bursts = [x] → h.time ≤ sampleInstant (instantOf s t) →
    sampleInstant (instantOf s t) ≤ h.time + s.dev.txGuard r → sampleInstant (instantOf s t) + x.ns + 1000000 ≤ s.dev.burstEnd r h x →
    s.dev.txPort r = some p → (s.dev.radio r).subs + groupOf x.size ≤ s.dev.txShare r →
    (s.dev.at_ t).rpVerdict r (s.dev.carrierOf r h.handle p (sampleInstant (instantOf s t)) x) h.time = none →
    Runs (.txDeferredStart r t) s (fun d => (d.radio r).held = [] ∧
      (d.radio r).air = (s.dev.radio r).air ++ [s.dev.carrierOf r h.handle p (sampleInstant (instantOf s t)) x] ∧
      d.get (R.RAD_ANT r) F.RAD_ANT_tx_port = p ∧ d.radState r = radTX ∧
      d.get (R.RAD_TX_STATS r) F.RAD_TX_STATS_deferred =
        (if h.time < instantOf s t then min (s.dev.get (R.RAD_TX_STATS r) F.RAD_TX_STATS_deferred + 1) F.RAD_TX_STATS_deferred.top
         else s.dev.get (R.RAD_TX_STATS r) F.RAD_TX_STATS_deferred))) ∧
  (∀ (s : State) (r : RadioId) (t : Nat) (h : HeldSet), s.dev.radioUp r = true → s.dev.canSend r = true → (s.dev.radio r).held = [h] →
    h.bursts ≠ [] → h.time ≤ sampleInstant (instantOf s t) → sampleInstant (instantOf s t) ≤ h.time + s.dev.txGuard r →
    (∀ x ∈ h.bursts, s.dev.burstEnd r h x < sampleInstant (instantOf s t) + x.ns + 1000000) → Runs (.txDeferredStart r t) s (fun d =>
      (d.radio r).held = [] ∧ (d.radio r).air = (s.dev.radio r).air ∧ d.evtStatus 28 = true ∧
      d.get (R.RAD_TX_CANCEL r) F.RAD_TX_CANCEL_last_cause = 1 ∧ d.get (R.RAD_TX_CANCEL r) F.RAD_TX_CANCEL_count =
        min (s.dev.get (R.RAD_TX_CANCEL r) F.RAD_TX_CANCEL_count + h.bursts.length) F.RAD_TX_CANCEL_count.top)) ∧
  (∀ (s : State) (r : RadioId) (t : Nat) (h : HeldSet), s.dev.radioUp r = true → (s.dev.radio r).held = [h] →
    h.time + s.dev.txGuard r ≤ instantOf s t → h.bursts ≠ [] → Runs (.txGuardExpire r t) s (fun d =>
      (d.radio r).held = [] ∧ (d.radio r).air = (s.dev.radio r).air ∧ d.evtStatus 28 = true ∧
      d.get (R.RAD_TX_CANCEL r) F.RAD_TX_CANCEL_last_cause = 1 ∧ d.get (R.RAD_TX_CANCEL r) F.RAD_TX_CANCEL_count =
        min (s.dev.get (R.RAD_TX_CANCEL r) F.RAD_TX_CANCEL_count + h.bursts.length) F.RAD_TX_CANCEL_count.top ∧
      ((s.dev.radio r).air = [] → s.dev.radState r = radTX → s.dev.radTarget r = radTX → (s.dev.radio r).after.getD 0 < 6 →
        d.radTarget r = (s.dev.radio r).after.getD (s.dev.txReturn r) ∧ (d.radio r).after = none))) ∧
  (∀ (s : State) (r : RadioId) (k0 : Fin 1536) (rl : Int) (t : Nat) (c : Carrier), s.dev.radioUp r = true → (s.dev.radio r).air = [c] →
    c.desc.k0 = k0.val → c.stop ≤ instantOf s t → Runs (.lastCarrierEnd r k0 rl t) s (fun d => (d.radio r).air = [] ∧
      d.get (R.RAD_TX_STATS r) F.RAD_TX_STATS_sent = min (s.dev.get (R.RAD_TX_STATS r) F.RAD_TX_STATS_sent + 1) F.RAD_TX_STATS_sent.top ∧
      (s.dev.radState r = radTX → s.dev.radTarget r = radTX → (s.dev.radio r).after.getD 0 < 6 → ((s.dev.radio r).after ≠ none ∨ ∀ T, s.dev.nextTx r = some T → c.stop + 100000 ≤ T) →
        d.radTarget r = (s.dev.radio r).after.getD (s.dev.txReturn r) ∧ (d.radio r).after = none) ∧
      (∀ T, (s.dev.radio r).after = none → s.dev.nextTx r = some T → T < c.stop + 100000 →
        d.radState r = s.dev.radState r ∧ d.radTarget r = s.dev.radTarget r))) ∧
  (∀ (s : State) (r : RadioId) (k0 : Fin 1536) (rl : Int) (t : Nat) (c : Carrier), s.dev.radioUp r = true →
    (s.dev.radio r).air.find? (fun o => o.desc.k0 == k0.val && decide (o.stop ≤ instantOf s t)) = some c →
    (s.dev.radio r).air.filter (fun o => o.desc.k0 != k0.val) ≠ [] → Runs (.carrierEnd r k0 rl t) s (fun d =>
      (d.radio r).air = (s.dev.radio r).air.filter (fun o => o.desc.k0 != k0.val) ∧ d.radState r = s.dev.radState r ∧
      d.radTarget r = s.dev.radTarget r ∧
      d.get (R.RAD_TX_STATS r) F.RAD_TX_STATS_sent = min (s.dev.get (R.RAD_TX_STATS r) F.RAD_TX_STATS_sent + 1) F.RAD_TX_STATS_sent.top)) ∧
  (∀ (s : State) (r : RadioId) (p : Fin 2) (t : Nat), s.dev.radioUp r = true → (s.dev.radio r).air.any (fun c => c.port == p.val) = true →
    Runs (.returnLossAbort r p t) s (fun d => (d.radio r).air = (s.dev.radio r).air.filter (fun c => c.port != p.val) ∧
      d.txFault r p = true ∧ d.evtStatus 28 = true ∧ d.get (R.RAD_TX_CANCEL r) F.RAD_TX_CANCEL_last_cause = 4 ∧
      d.get (R.RAD_TX_CANCEL r) F.RAD_TX_CANCEL_count = min (s.dev.get (R.RAD_TX_CANCEL r) F.RAD_TX_CANCEL_count +
        ((s.dev.radio r).air.filter (fun c => c.port == p.val)).length) F.RAD_TX_CANCEL_count.top ∧
      (s.dev.txFault r p = false → s.dev.txFault r (1 - p.val) = true → d.evtStatus 63 = true) ∧
      (s.dev.txFault r p = false → s.dev.txFault r (1 - p.val) = false → s.dev.txPreferred r = p.val → d.evtStatus 62 = true)))

/-- The XO count at the instant of a command that comes at t. -/
def Sys2Proof.xoOf (s : State) (t : Nat) : Nat := (s.dev.at_ t).xo

/-- The booster group's outputs follow T in the steps of R133, the switch to bias and enable, and leave in the reverse order after a stretch of TX; its
fault line stops transmission and blocks it until flt_hold has passed (R134); and the duty meters warn (R130). Region Profile fuses blow once asked,
and only where R128 lets them: before the seal every bit that exists, after it only those of R128 in the header and in entries in use; a blown bit
stays (R126, R128). -/
def Obligations.BoosterDutyAndRegionProfile : Prop :=
  (∀ (s : State) (r : RadioId) (t T : Nat), s.dev.radioUp r = true → s.dev.xampOn r = true → (s.dev.radio r).release = none →
    s.dev.radState r ≠ radOFF → s.dev.radTarget r ≠ radOFF → s.dev.xampT r = some T →
    ((s.dev.radio r).xamp.testBit 0 = false → T ≤ instantOf s t + s.dev.tBs r + s.dev.tSe r + s.dev.tLead r →
      Runs (.xampStep r t) s (fun d => (d.radio r).xamp = setBit (s.dev.radio r).xamp 0 true ∧ d.radState r = s.dev.radState r)) ∧
    ((s.dev.radio r).xamp.testBit 0 = true → (s.dev.radio r).xamp.testBit 1 = false → T ≤ instantOf s t + s.dev.tSe r + s.dev.tLead r →
      Runs (.xampStep r t) s (fun d => (d.radio r).xamp = setBit (s.dev.radio r).xamp 1 true)) ∧
    ((s.dev.radio r).xamp.testBit 0 = true → (s.dev.radio r).xamp.testBit 1 = true → (s.dev.radio r).xamp.testBit 2 = false →
      T ≤ instantOf s t + s.dev.tLead r → Runs (.xampStep r t) s (fun d => (d.radio r).xamp = setBit (s.dev.radio r).xamp 2 true))) ∧
  (∀ (s : State) (r : RadioId) (t e : Nat) (early : Bool), s.dev.radioUp r = true → s.dev.xampOn r = true →
    (s.dev.radio r).release = some (e, early) →
    ((s.dev.radio r).xamp.testBit 2 = true → e + (if early then 0 else s.dev.tLag r) ≤ instantOf s t →
      Runs (.xampStep r t) s (fun d => (d.radio r).xamp = setBit (s.dev.radio r).xamp 2 false ∧ (d.radio r).release = some (e, early))) ∧
    ((s.dev.radio r).xamp.testBit 2 = false → (s.dev.radio r).xamp.testBit 1 = true →
      e + (if early then 0 else s.dev.tLag r) + s.dev.tSe r ≤ instantOf s t →
      Runs (.xampStep r t) s (fun d => (d.radio r).xamp = setBit (s.dev.radio r).xamp 1 false ∧ (d.radio r).release = some (e, early))) ∧
    ((s.dev.radio r).xamp.testBit 2 = false → (s.dev.radio r).xamp.testBit 1 = false →
      e + (if early then 0 else s.dev.tLag r) + s.dev.tSe r + s.dev.tBs r ≤ instantOf s t →
      Runs (.xampStep r t) s (fun d => (d.radio r).xamp = 0 ∧ (d.radio r).release = none))) ∧
  (∀ (s : State) (r : RadioId) (t : Nat), s.dev.radioUp r = true → s.dev.xampOn r = true → (s.dev.radio r).xamp.testBit 0 = true →
    Runs (.xampFault r t) s (fun d => d.get (R.RAD_XAMP_CTRL r) F.RAD_XAMP_CTRL_flt_seen = 1 ∧ (d.radio r).air = [] ∧ (d.radio r).held = [] ∧
      (d.radio r).xamp.testBit 2 = false ∧ (d.radio r).fltAt = some (xoOf s t) ∧ d.evtStatus 31 = true)) ∧
  (∀ (s : State) (r : RadioId) (last t x : Nat), s.dev.hubUp = true → (s.dev.radio r).fltAt = some x →
    x + s.dev.get (R.RAD_XAMP_CTRL r) F.RAD_XAMP_CTRL_flt_hold * 1000000 ≤ xoOf s t →
    last + s.dev.get (R.RAD_XAMP_CTRL r) F.RAD_XAMP_CTRL_flt_hold * 1000000 ≤ instantOf s t →
    Runs (.xampHoldExpire r ⟨last, t⟩) s (fun d => (d.radio r).fltAt = none)) ∧
  (∀ (s : State) (r : RadioId) (t : Nat) (e : Fin 32), s.dev.radioUp r = true → s.dev.get (R.RAD_DUTY_CTRL r) F.RAD_DUTY_CTRL_warn ≠ 0 →
    (s.dev.rpEntry r e).used = true → (s.dev.radio r).warned.testBit e = false →
    (s.dev.rpEntry r e).duty * 3600000 * min (s.dev.get (R.RAD_DUTY_CTRL r) F.RAD_DUTY_CTRL_warn) 100 < (s.dev.at_ t).dutyUs r e * 100 →
    Runs (.dutyMeterTick r t) s (fun d => (d.radio r).warned.testBit e = true ∧ d.evtStatus 30 = true)) ∧
  (∀ (s : State) (r : RadioId), s.dev.dieUp (r.val + 1) = true → (s.dev.radio r).blow = none →
    let w := s.dev.get (R.RAD_RP_PROG r) F.RAD_RP_PROG_word
    let e := s.dev.get (R.RAD_RP_PROG r) F.RAD_RP_PROG_entry
    let bits := s.dev.get (R.RAD_RP_BITS r) F.RAD_RP_BITS_bits
    (bits &&& (if s.dev.rpSealed r then rpAfterSeal w else rpFields w) = bits → (s.dev.rpSealed r = true → w = 3 ∨ (s.dev.rpEntry r e).used = true) →
      Runs (.radRpProgGo r) s (fun d => d.get (R.RAD_RP_PROG r) F.RAD_RP_PROG_go = 1 ∧
        (d.radio r).blow = some (if w = 3 then R.RAD_RP_HDR r else R.RAD_RP_E r e w, bits) ∧ d.fuses = s.dev.fuses)) ∧
    (bits &&& (if s.dev.rpSealed r then rpAfterSeal w else rpFields w) ≠ bits ∨
        s.dev.rpSealed r = true ∧ w ≠ 3 ∧ (s.dev.rpEntry r e).used = false →
      Runs (.radRpProgGo r) s (fun d => d.get (R.RAD_RP_PROG r) F.RAD_RP_PROG_result = 2 ∧ (d.radio r).blow = none ∧
        d.fuses = s.dev.fuses))) ∧
  (∀ (s : State) (r : RadioId) (failed : Word) (a bits : Nat), s.dev.dieUp (r.val + 1) = true → (s.dev.radio r).blow = some (a, bits) →
    bits < 2 ^ 32 → Runs (.rpFuseBlowDone r failed) s (fun d => (d.radio r).blow = none ∧ d.get (R.RAD_RP_PROG r) F.RAD_RP_PROG_go = 0 ∧
      (failed = 0 → d.fuse a = s.dev.fuse a ||| bits ∧ d.get (R.RAD_RP_PROG r) F.RAD_RP_PROG_result = 1) ∧
      (∀ i, (s.dev.fuse a).testBit i = true → (d.fuse a).testBit i = true)))

/-- Kaleidoscope: a 1 ms block's streams and the combiner's smoothed sums (R138 to R143), overload (R161), the spectral mask (R160) and the symbol buffers
fetched (R155). Kaleidoscope: the frames of the sample ring, occupancy maps, detectors with the join captures and tasks that they make, and captures
written to DRAM (R145, R148, R151 to R153, R168). -/
def Obligations.KaleidoscopeMeasuresAndStores : Prop :=
  (∀ (s : State) (r : RadioId) (ms : Nat) (x0 x1 : List IQ) (t : Nat), s.dev.radioUp r = true →
    Runs (.diversityBlock r ms x0 x1 t) s (fun d =>
    let e := s.dev.at_ t
    let b := e.runBank r 30 x0 x1
    (d.kal r).dc0 = b.dc0 ∧ (d.kal r).dc1 = b.dc1 ∧ (d.kal r).hist0 = b.hist0 ∧ (d.kal r).hist1 = b.hist1 ∧
    (d.kal r).blocks = (e.streamBlock r ms b :: (s.dev.kal r).blocks).take keptBlocks ∧
    (d.kal r).caps = (s.dev.kal r).caps.map (fun c => (c.1, c.2.take (e.streamBlock r ms b))) ∧
    (s.dev.combining r = false → (d.kal r).divs = (s.dev.kal r).divs) ∧
    (s.dev.combining r = true → ∀ k, k < 1536 →
      let old := smGet (fun _ => Divers.reset) (s.dev.kal r).divs k
      let new := smGet (fun _ => Divers.reset) (d.kal r).divs k
      let sums := divSums (e.summed r ms (b.port0.getD k [])) (e.summed r ms (b.port1.getD k []))
      let mix (a : Rat) (n : Int) : Rat := a + ((n : Rat) - a) / (2 ^ s.dev.divAvg r : Nat)
      new.p0 = mix old.p0 sums.1 ∧ new.p1 = mix old.p1 sums.2.1 ∧ new.cRe = mix old.cRe sums.2.2.1 ∧ new.cIm = mix old.cIm sums.2.2.2 ∧
      (old.ref1 = false → 0 ≤ new.p0 → new.ref1 = decide (4 * new.p0 < new.p1)) ∧ (old.ref1 = true → new.ref1 = !decide (4 * new.p1 < new.p0))))) ∧
  (∀ (s : State) (r : RadioId) (c0 c1 t : Nat), s.dev.radioUp r = true →
    (s.dev.get (R.KAL_OVL r) F.KAL_OVL_ovl_thr < c0 ∨ s.dev.get (R.KAL_OVL r) F.KAL_OVL_ovl_thr < c1) →
    Runs (.overloadInterval r c0 c1 t) s (fun d => (d.kal r).ovl = (s.dev.kal r).ovl + 1 ∧
      d.get (R.KAL_OVL r) F.KAL_OVL_ovl_ms = min (s.dev.get (R.KAL_OVL r) F.KAL_OVL_ovl_ms + 1) F.KAL_OVL_ovl_ms.top ∧
      ((s.dev.kal r).ovlRaised = false → d.evtStatus 38 = true ∧ d.get (R.KAL_OVL r) F.KAL_OVL_last_cause = 1))) ∧
  (∀ (s : State) (r : RadioId) (bins : List (Nat × Int)) (t : Nat), s.dev.radioUp r = true →
    s.dev.flag (R.KAL_MASK_CTRL r) F.KAL_MASK_CTRL_mask_en = true → s.dev.radState r = radTX →
    bins.any (fun b => decide (b.1 < 2048) && s.dev.binOver r b.1 b.2) = true → Runs (.maskCheck r bins t) s (fun d =>
      (s.dev.get (R.KAL_MASK_STAT r) F.KAL_MASK_STAT_atten < s.dev.maskFloor r →
        d.get (R.KAL_MASK_STAT r) F.KAL_MASK_STAT_atten = s.dev.get (R.KAL_MASK_STAT r) F.KAL_MASK_STAT_atten + 1 ∧ d.radios = s.dev.radios) ∧
      (s.dev.maskFloor r ≤ s.dev.get (R.KAL_MASK_STAT r) F.KAL_MASK_STAT_atten → (d.radio r).air = [] ∧ d.evtStatus 39 = true))) ∧
  (∀ (s : State) (r : RadioId) (h : Fin 1024) (t : Nat), s.dev.radioUp r = true → Runs (.txBufferFetch r h t) s (fun d =>
    ∀ y ∈ (s.dev.txChain r 64 h []).1, smFind (d.kal r).bufs y.idx = some (s.dev.dramRead y.buf (ceilDiv y.count 4)))) ∧
  (∀ (s : State) (r : RadioId) (a t : Nat), s.dev.ringOn r = true → (s.dev.slotRec r a).bond.length = 48 →
    s.dev.dramOk (s.dev.frameAddr r a) (256 + ((s.dev.kal r).frameIq a (s.dev.slotRec r a).bond).length) = true →
    Runs (.ringFrameComplete r a t []) s (fun d =>
      d.dramRead (s.dev.frameAddr r a) (256 + ((s.dev.kal r).frameIq a (s.dev.slotRec r a).bond).length) =
        s.dev.frameHeader r a ++ (s.dev.kal r).frameIq a (s.dev.slotRec r a).bond ∧
      d.dramRead (s.dev.frameAddr r a) 8 = toLE 8 a)) ∧
  (∀ (s : State) (r : RadioId) (a : Nat) (x0 x1 : List IQ) (t : Nat), s.dev.radioUp r = true →
    (∀ m, smFind (s.dev.kal r).maps (a % 4) = some m → m.1 ≠ a) → Runs (.occMapClose r a x0 x1 t) s (fun d =>
      let bs := (s.dev.at_ t).mapBlocks r a x0 x1
      d.word (R.KAL_OCC_MAP r (a % 4) 0) = BitVec.ofNat 32 a ∧
      d.word (R.KAL_OCC_MAP r (a % 4) 1) = BitVec.ofNat 32 (65536 + min 600 (receivedIq bs 0).length) ∧
      (∀ k, k < 1536 → d.word (R.KAL_OCC_MAP r (a % 4) (4 + k)) = BitVec.ofNat 32 (s.dev.occWord r a k bs)) ∧
      d.get (R.KAL_OCC_STAT r) F.KAL_OCC_STAT_latest = a % 4 ∧ smFind (d.kal r).maps (a % 4) = some (a, instantOf s t))) ∧
  (∀ (s : State) (r : RadioId) (k : Fin 1536) (gain t : Nat), s.dev.radioUp r = true → s.dev.radState r = radRX → s.dev.detMode r k ≠ 0 →
    (s.dev.at_ t).detDue r k = true → s.dev.detThr r ≤ s.dev.detMetric r k gain → k.val ∉ (s.dev.kal r).primed →
    Runs (.detectorEvaluation r k gain t) s (fun d => k.val ∈ (d.kal r).primed ∧ smFind (d.kal r).evals k = some (instantOf s t) ∧
      d.get (R.KAL_DET_STAT r) F.KAL_DET_STAT_detections = s.dev.get (R.KAL_DET_STAT r) F.KAL_DET_STAT_detections)) ∧
  (∀ (s : State) (r : RadioId) (k : Fin 1536) (gain t : Nat), s.dev.radioUp r = true → s.dev.radState r = radRX → s.dev.detMode r k = 2 →
    (s.dev.at_ t).detDue r k = true → s.dev.detThr r ≤ s.dev.detMetric r k gain → k.val ∈ (s.dev.kal r).primed →
    Runs (.detectorEvaluation r k gain t) s (fun d => k.val ∉ (d.kal r).primed ∧
      smGet (fun _ => 0) (d.kal r).occDet k = min 255 (smGet (fun _ => 0) (s.dev.kal r).occDet k + 1) ∧
      d.get (R.KAL_DET_STAT r) F.KAL_DET_STAT_detections =
        min (s.dev.get (R.KAL_DET_STAT r) F.KAL_DET_STAT_detections + 1) F.KAL_DET_STAT_detections.top)) ∧
  (∀ (s : State) (r : RadioId) (k : Fin 1536) (gain t c i : Nat), s.dev.radioUp r = true → s.dev.radState r = radRX → s.dev.detMode r k = 1 →
    (s.dev.at_ t).detDue r k = true → s.dev.detThr r ≤ s.dev.detMetric r k gain → k.val ∈ (s.dev.kal r).primed →
    smGet (fun _ => 0) (s.dev.kal r).deaf k < instantOf s t → smLowestFree (s.dev.kal r).caps (s.dev.capCount r) = some c →
    smLowestFree s.dev.pup.tasks 8192 = some i → Runs (.detectorEvaluation r k gain t) s (fun d => k.val ∉ (d.kal r).primed ∧
      d.get (R.KAL_DET_STAT r) F.KAL_DET_STAT_detections =
        min (s.dev.get (R.KAL_DET_STAT r) F.KAL_DET_STAT_detections + 1) F.KAL_DET_STAT_detections.top ∧
      ∃ x y, smFind (d.kal r).caps c = some x ∧ x.kind = 2 ∧ x.sub = k.val ∧ x.start = joinStart (instantOf s t) ∧
        x.samples = s.dev.capLen r * 30 ∧ d.task i = some y ∧ y.kind = 2 ∧ y.state = 1 ∧ x.task = some (y.handle i))) ∧
  (∀ (s : State) (r : RadioId) (k : Fin 1536) (gain t : Nat), s.dev.radioUp r = true → s.dev.radState r = radRX → s.dev.detMode r k ≠ 0 →
    (s.dev.at_ t).detDue r k = true → s.dev.detMetric r k gain < s.dev.detThr r →
    Runs (.detectorEvaluation r k gain t) s (fun d => k.val ∉ (d.kal r).primed)) ∧
  (∀ (s : State) (r : RadioId) (c : Fin 256) (x : Capture) (xs : List (IQ × IQ)) (t : Nat), s.dev.radioUp r = true →
    smFind (s.dev.kal r).caps c = some x → s.dev.dramOk (s.dev.capAddr r c) (x.header ++ x.bytes).length = true →
    Runs (.captureComplete r c xs t) s (fun d =>
      let y := x.take ((s.dev.at_ t).underWay r (xs.map (·.1)) (xs.map (·.2)))
      d.dramRead (s.dev.capAddr r c) (y.header ++ y.bytes).length = y.header ++ y.bytes))

/-- The slot overrun (R228); the task of a join response and that of a downlink window that carries entries, each with its run, its deadline and its
operands (R214, R222, R223, R235); deadlines, with firing or expiry (R238, R239, R193); release, which arms a transmission in time and counts a late
one (R187), or brings a record's counts to its node's context (R178, R202), and frees the entry (R253); and the peek registers (R232). -/
def Obligations.TasksAreCreatedAndEnd : Prop :=
  (∀ (s : State) (t a : Nat), s.dev.hubUp = true → s.dev.sched.served = some a → s.dev.sched.overrun = false → Runs (.schSlotOverrun t) s (fun d =>
    d.sched.overrun = true ∧ d.evtStatus 43 = true ∧ d.get R.SCH_SLOT_STAT F.SCH_SLOT_STAT_overruns =
      min (s.dev.get R.SCH_SLOT_STAT F.SCH_SLOT_STAT_overruns + 1) F.SCH_SLOT_STAT_overruns.top)) ∧
  (∀ (s : State) (i : Fin 65536) (t j : Nat) (p : JoinResp) (x : Ctx), s.dev.hubUp = true → s.dev.flag R.SCH_CTRL F.SCH_CTRL_en = true →
    s.dev.pwr.mode = .run → s.dev.pwr.entry = none → s.dev.sched.resps = [p] → p.ctx = i.val → p.start ≤ instantOf s t + s.dev.dlLead →
    instantOf s t < p.start → s.dev.txRunServed p.radio p.start 131 = true → s.dev.ctx i = some x → smLowestFree s.dev.pup.tasks 8192 = some j →
    Runs (.downlinkTaskCreate i t) s (fun d =>
      d.sched.resps = [] ∧ d.pup.fireNo = s.dev.pup.fireNo + 1 ∧ (d.flow i).seq = ((s.dev.flow i).seq + 1) % 65536 ∧
      d.get R.PUP_CREATED F.PUP_CREATED_created = (s.dev.get R.PUP_CREATED F.PUP_CREATED_created + 1) % 2 ^ 32 ∧
      ∃ y, d.task j = some y ∧ y.kind = 3 ∧ y.flow = i.val ∧ y.seq = ((s.dev.flow i).seq + 1) % 65536 ∧ y.ops = [opCtx i, opEntries 2, 0, 0] ∧
        y.deadline = p.start - armLead ∧ y.info.start = p.start ∧ y.info.stop = p.start + 131 * slotNs ∧ y.info.radioA = p.radio ∧
        y.info.k0A = p.k0 ∧ (y.state = 2 ∨ y.state = 3))) ∧
  (∀ (s : State) (i : Fin 65536) (t j T : Nat) (g : Grant) (x : Ctx) (es : List CtlEntry), s.dev.hubUp = true →
    s.dev.flag R.SCH_CTRL F.SCH_CTRL_en = true → s.dev.pwr.mode = .run → s.dev.pwr.entry = none → s.dev.sched.resps = [] →
    s.dev.ctx i = some x → s.dev.windowAt x (instantOf s t) = some (T, g) → (i.val, T) ∉ s.dev.sched.windows → s.dev.radioUp g.radio = true →
    x.dq = [] → x.dlCount < 0xFFFFFFFF → (s.dev.at_ t).dutyBlocks g = false → s.dev.carriedOf x.ctl (superOf T) (entriesFit g.mode) = es → es ≠ [] →
    smLowestFree s.dev.pup.tasks 8192 = some j → Runs (.downlinkTaskCreate i t) s (fun d =>
      (i.val, T) ∈ d.sched.windows ∧ (d.flow i).seq = ((s.dev.flow i).seq + 1) % 65536 ∧
      ∃ y, d.task j = some y ∧ y.kind = 3 ∧ y.flow = i.val ∧ y.ops = [opCtx i, opEntries es.length, 0, 0] ∧ y.deadline = T - armLead ∧
        y.info.start = T ∧ y.info.stop = T + dlLen g * slotNs ∧ y.info.radioA = g.radio ∧ y.info.k0A = g.k0 ∧ y.info.mode = g.mode ∧
        (y.state = 2 ∨ y.state = 3))) ∧
  (∀ (s : State) (i : Fin 8192) (t : Nat) (x : Task), s.dev.hubUp = true → s.dev.task i = some x → x.state = 1 → x.deadline ≤ instantOf s t →
    x.enough = false → Runs (.taskDeadline i t) s (fun d => d.task i = none ∧
      d.get R.PUP_LOSS F.PUP_LOSS_expired = min (s.dev.get R.PUP_LOSS F.PUP_LOSS_expired + 1) F.PUP_LOSS_expired.top ∧
      (d.evtStatus 33 = true ∨ d.evtStatus 41 = true))) ∧
  (∀ (s : State) (i : Fin 8192) (t : Nat) (x : Task), s.dev.hubUp = true → s.dev.task i = some x → x.state = 1 → x.deadline ≤ instantOf s t →
    x.enough = true → Runs (.taskDeadline i t) s (fun d => d.evtStatus 44 = true ∧
      d.pup.fireNo = s.dev.pup.fireNo + 1 ∧ (d.flow x.flow).nextRel = (s.dev.flow x.flow).nextRel + 1 ∧
      d.get R.SCH_SEE_STAT F.SCH_SEE_STAT_single = min (s.dev.get R.SCH_SEE_STAT F.SCH_SEE_STAT_single + 1) F.SCH_SEE_STAT_single.top)) ∧
  (∀ (s : State) (i : Fin 8192) (t : Nat) (x : Task), s.dev.hubUp = true → s.dev.task i = some x → s.dev.releasable x = true →
    Runs (.taskRelease i [] t) s (fun d => d.task i = none)) ∧
  (∀ (s : State) (i : Fin 8192) (t h done k : Nat) (x : Task) (o : TxOwn), s.dev.hubUp = true → s.dev.task i = some x →
    s.dev.releasable x = true → x.out = .ready h done → x.info.own = some o →
    (o.kind = 2 ∨ s.dev.txRunInDir x.info.radioA x.info.start ((x.info.stop - x.info.start) / slotNs) = true) →
    (done + armLead ≤ x.info.start → smLowestFree s.dev.acts 1024 = some k → instantOf s t + 2000 ≤ x.info.start →
      Runs (.taskRelease i [] t) s (fun d => d.task i = none ∧ smFind d.acts k = some ⟨x.info.start, 1, x.info.radioA, h⟩ ∧
        d.get R.CLK_ACT_RESULT F.CLK_ACT_RESULT_outcome = 1 ∧ (smFind d.sched.own (x.info.radioA * 1024 + h)).isSome = true ∧
        d.get R.SCH_DL_STAT F.SCH_DL_STAT_late = s.dev.get R.SCH_DL_STAT F.SCH_DL_STAT_late)) ∧
    (x.info.start < done + armLead → Runs (.taskRelease i [] t) s (fun d => d.task i = none ∧ d.acts = s.dev.acts ∧ d.evtStatus 46 = true ∧
      d.get R.SCH_DL_STAT F.SCH_DL_STAT_late = min (s.dev.get R.SCH_DL_STAT F.SCH_DL_STAT_late + 1) F.SCH_DL_STAT_late.top))) ∧
  (∀ (s : State) (i : Fin 8192) (t : Nat) (x : Task) (c : Ctx) (rec payload : Bytes) (fw : Option FwCounts), s.dev.hubUp = true →
    s.dev.task i = some x → s.dev.releasable x = true → x.kind < 2 → x.out = .record rec payload fw → recPilotReq rec = 0 →
    s.dev.ctx x.flow = some c → c.address = x.info.node → Runs (.taskRelease i [] t) s (fun d => d.task i = none ∧
      d.sched.stale = s.dev.sched.stale + (if recStatus rec = 4 then 1 else 0) ∧
      (recStatus rec = 0 → ∃ y, d.ctx x.flow = some y ∧ y.ulCount = recFrameCtr rec * 4096 + recControl rec / 4096 % 4096 ∧
        y.lastLqf = recLqf rec ∧ y.offset = recOffsetPpb rec))) ∧
  (∀ (s : State) (i : Fin 8192) (x : Task) (w : Fin 16), s.dev.hubUp = true → s.dev.task i = some x → Runs (.pupPeekIdxWrite i) s (fun d =>
    d.word (R.PUP_PEEK w) = BitVec.ofNat 32 (leAt (x.bytes i) (4 * w.val) 4)))

/-- Cores fault, are tested, retire and return: the Puppeteer takes the running task of a faulted core back for one more attempt on another core, or
abandons it after its second fault with the record of R248, takes the queued one back unstarted, retires a core that fails its self-test or has
faulted three times in a second, and retires and returns cores on command (R246 to R249, R252). -/
def Obligations.CoresFaultAndRetire : Prop :=
  (∀ (s : State) (c : CoreId), s.dev.coreRuns c = true → (s.dev.pcore c).done = none → Runs (.cycleBudgetExceeded c) s (fun d =>
    (d.pcore c).fault = 1 ∧ (d.mcore c).stopped = true ∧ (d.mcore c).running = false)) ∧
  (∀ (s : State) (c : CoreId), s.dev.hubUp = true → (s.dev.pcore c).fault ≠ 0 → Runs (.coreFaultTake c false) s (fun d =>
    (d.pcore c).fault = 0 ∧ (d.pcore c).run = none ∧ (d.pcore c).queued = none ∧ ((s.dev.pcore c).st = 0 → (d.pcore c).st = 2) ∧
    d.evtStatus 34 = true ∧ d.get R.PUP_FAULT_STAT F.PUP_FAULT_STAT_faults =
      min (s.dev.get R.PUP_FAULT_STAT F.PUP_FAULT_STAT_faults + 1) F.PUP_FAULT_STAT_faults.top ∧
    d.word R.PUP_FAULT_LAST = BitVec.ofNat 32 ((s.dev.pcore c).fault * 2 ^ 28 +
      ((((s.dev.pcore c).run.bind s.dev.task).map (·.kind)).getD 0) * 65536 +
      ((((s.dev.pcore c).run.bind s.dev.task).map (·.attempt)).getD 0) * 128 + c.val))) ∧
  (∀ (s : State) (c : CoreId) (i : Nat) (x : Task), s.dev.hubUp = true → (s.dev.pcore c).fault ≠ 0 → (s.dev.pcore c).run = some i →
    (s.dev.pcore c).queued = none → s.dev.task i = some x → s.dev.pup.redo = [] →
    (x.attempt = 0 → Runs (.coreFaultTake c false) s (fun d => ∃ y, d.task i = some y ∧ y.attempt = 1 ∧ y.flow = x.flow ∧ y.rel = x.rel ∧
      ((∃ p ∈ d.pup.redo, p.1 = i) ∨ (y.state = 3 ∧ y.core ≠ c.val ∧ d.evtStatus 62 = true)))) ∧
    (x.attempt ≠ 0 → Runs (.coreFaultTake c false) s (fun d => d.evtStatus 62 = true ∧
      d.get R.PUP_FAULT_STAT F.PUP_FAULT_STAT_abandoned =
        min (s.dev.get R.PUP_FAULT_STAT F.PUP_FAULT_STAT_abandoned + 1) F.PUP_FAULT_STAT_abandoned.top ∧
      d.task i = some { x with state := 4, out := if x.kind ≤ 2 then .record x.lostRecord [] none else .none }))) ∧
  (∀ (s : State) (c : CoreId) (j : Nat) (x : Task) (desc : Bytes), s.dev.hubUp = true → (s.dev.pcore c).fault ≠ 0 → (s.dev.pcore c).run = none →
    (s.dev.pcore c).queued = some (j, desc) → s.dev.task j = some x → x.attempt = 0 → Runs (.coreFaultTake c false) s (fun d =>
      ∃ y, d.task j = some y ∧ y.attempt = 0 ∧ (y.state = 2 ∨ y.state = 3 ∧ y.core ≠ c.val))) ∧
  (∀ (s : State) (c : CoreId) (pass : Bool), s.dev.hubUp = true → (s.dev.pcore c).st = 2 → (s.dev.pcore c).returning = true →
    Runs (.selfTestDone c pass) s (fun d => (d.pcore c).st = (if pass then 1 else 3) ∧ (d.pcore c).returning = false ∧
      d.get R.PUP_CORE_CMD F.PUP_CORE_CMD_result = (if pass then 1 else 4))) ∧
  (∀ (s : State) (c : CoreId), s.dev.hubUp = true → (s.dev.pcore c).st = 2 → (s.dev.pcore c).returning = false →
    (s.dev.pcore c).retiring = false → ((s.dev.pcore c).faults.filter (fun x => decide (s.dev.xo < x + 1000000000))).length < 3 →
    Runs (.selfTestDone c true) s (fun d => (d.pcore c).st = 0 ∧ (d.mcore c).stopped = false)) ∧
  (∀ (s : State) (c : CoreId), s.dev.hubUp = true → (s.dev.pcore c).st = 2 → (s.dev.pcore c).returning = false →
    3 ≤ ((s.dev.pcore c).faults.filter (fun x => decide (s.dev.xo < x + 1000000000))).length →
    Runs (.selfTestDone c true) s (fun d => (d.pcore c).st = 3 ∧ (d.evtStatus 35 = true ∨ d.evtStatus 36 = true))) ∧
  (∀ (s : State) (c : CoreId), s.dev.hubUp = true → (s.dev.pcore c).st = 2 → (s.dev.pcore c).returning = false →
    Runs (.selfTestDone c false) s (fun d => (d.pcore c).st = 3 ∧ (d.evtStatus 35 = true ∨ d.evtStatus 36 = true))) ∧
  (∀ (s : State) (c : CoreId), s.dev.hubUp = true → s.dev.coreActive c = false → Runs (.coreRetire c) s (fun d =>
    d.get R.PUP_CORE_CMD F.PUP_CORE_CMD_result = 2 ∧ d.get R.PUP_CORE_CMD F.PUP_CORE_CMD_go = 0 ∧ d.pcore c = s.dev.pcore c)) ∧
  (∀ (s : State) (c : CoreId), s.dev.hubUp = true → s.dev.coreActive c = true → ((List.range 64).filter s.dev.coreActive).length ≠ 1 →
    (s.dev.pcore c).run = none → Runs (.coreRetire c) s (fun d =>
      (d.pcore c).st = 3 ∧ (d.pcore c).queued = none ∧ d.get R.PUP_CORE_CMD F.PUP_CORE_CMD_result = 1)) ∧
  (∀ (s : State) (c : CoreId) (i : Nat), s.dev.hubUp = true → s.dev.coreActive c = true → ((List.range 64).filter s.dev.coreActive).length ≠ 1 →
    (s.dev.pcore c).run = some i → Runs (.coreRetire c) s (fun d => (d.pcore c).st = 0 ∧ (d.pcore c).retiring = true ∧
      (d.pcore c).run = some i ∧ (d.pcore c).queued = none ∧ d.get R.PUP_CORE_CMD F.PUP_CORE_CMD_go = 1)) ∧
  (∀ (s : State) (c : CoreId), s.dev.hubUp = true → s.dev.coreActive c = true → ((List.range 64).filter s.dev.coreActive).length = 1 →
    Runs (.coreRetire c) s (fun d => d.get R.PUP_CORE_CMD F.PUP_CORE_CMD_result = 3 ∧ d.pcore c = s.dev.pcore c)) ∧
  (∀ (s : State) (c : CoreId), s.dev.hubUp = true → (s.dev.pcore c).st = 3 → s.dev.coreDieUp c = true → Runs (.coreReturn c) s (fun d =>
    (d.pcore c).st = 2 ∧ (d.pcore c).returning = true))

/-- The core's next slot holds an operation with the opcode given, the core can execute it, and its bundle does not trap (R276, R282, R283). -/
abbrev Sys2Proof.Ready (d : Dev) (c : CoreId) (isC : Bool) (op : Nat) : Prop :=
  d.slotReady c = true ∧ (d.mcore c).holds isC op = true ∧ ((d.mcore c).slot = 0 → (d.mcore c).landed.traps (d.coreKind c) = [])

/-- What the bundle numbered n reads from a register of a bank (R261). -/
def Sys2Proof.seenAt (k : Core) (n key : Nat) : Nat := (smGet (fun _ => 0) ({ k with count := n }).landed.regs key).toNat

/-- A compute operation writes v to the word register its slot names, as the next bundle reads it, sets n and z from v, and slot X is next. -/
def Sys2Proof.WritesD (i : CoreId → Instr) (op : Nat) (v : Core → Nat → Nat) : Prop :=
  ∀ (s : State) (c : CoreId), Ready s.dev c true op → Runs (i c) s (fun d =>
    let k := (s.dev.mcore c).enter
    let sr := seenAt (d.mcore c) (k.count + 1) (k.bank keySR)
    seenAt (d.mcore c) (k.count + 1) (k.bank (cD k.cWord)) = v k k.cWord ∧ sr.testBit 1 = (v k k.cWord).testBit 31 ∧
      sr.testBit 0 = decide (v k k.cWord = 0) ∧ (d.mcore c).slot = 1 ∧ (d.mcore c).pc = k.pc)

/-- The word and half operations of the C slot (R267, R294): their results and flags. -/
def Obligations.MarionetteComputes : Prop :=
  WritesD .add2 0x01 (fun k w => pack (satS 16 (k.sh (cA w) false + k.sh (cB w) false)) (satS 16 (k.sh (cA w) true + k.sh (cB w) true))) ∧
  WritesD .sub2 0x02 (fun k w => pack (satS 16 (k.sh (cA w) false - k.sh (cB w) false)) (satS 16 (k.sh (cA w) true - k.sh (cB w) true))) ∧
  WritesD .addw 0x03 (fun k w => (k.dw (cA w) + k.dw (cB w)) % 2 ^ 32) ∧
  WritesD .subw 0x04 (fun k w => wrapNat 32 ((k.dw (cA w) : Int) - k.dw (cB w))) ∧
  WritesD .and 0x05 (fun k w => k.dw (cA w) &&& k.dw (cB w)) ∧
  WritesD .or 0x06 (fun k w => k.dw (cA w) ||| k.dw (cB w)) ∧
  WritesD .xor 0x07 (fun k w => k.dw (cA w) ^^^ k.dw (cB w)) ∧
  WritesD .shift 0x08 (fun k w => match bitsOf 13 12 w with
    | 0 => wrapNat 32 (sext 32 (k.dw (cA w)) / (2 ^ (w % 32) : Nat))
    | 1 => k.dw (cA w) * 2 ^ (w % 32) % 2 ^ 32
    | 2 => pack (k.sh (cA w) false / (2 ^ (w % 32) : Nat)) (k.sh (cA w) true / (2 ^ (w % 32) : Nat))
    | _ => pack (satS 16 (k.sh (cA w) false * (2 ^ (w % 32) : Nat))) (satS 16 (k.sh (cA w) true * (2 ^ (w % 32) : Nat)))) ∧
  (∀ (s : State) (c : CoreId), Ready s.dev c true 0x09 → Runs (.cmp c) s (fun d =>
    let k := (s.dev.mcore c).enter
    let v := wrapNat 32 ((k.dw (cA k.cWord) : Int) - k.dw (cB k.cWord))
    let sr := seenAt (d.mcore c) (k.count + 1) (k.bank keySR)
    sr.testBit 1 = v.testBit 31 ∧ sr.testBit 0 = decide (v = 0) ∧ (d.mcore c).slot = 1 ∧
      ∀ n, n < 16 → seenAt (d.mcore c) (k.count + 1) (k.bank n) = seenAt k (k.count + 1) (k.bank n))) ∧
  (∀ (s : State) (c : CoreId), Ready s.dev c true 0x0A → Runs (.ldi c) s (fun d =>
    let k := (s.dev.mcore c).enter
    let w := k.cWord
    let v := seenAt (d.mcore c) (k.count + 1) (k.bank (cD w))
    (bitsOf 21 20 w = 0 → v % 65536 = w % 65536) ∧ (bitsOf 21 20 w = 1 → v / 65536 = w % 65536) ∧
      (bitsOf 21 20 w = 2 → v = wrapNat 32 (sext 16 w)) ∧ (bitsOf 21 20 w = 3 → v = w % 65536))) ∧
  (∀ (s : State) (c : CoreId), Ready s.dev c true 0x0B → Runs (.ldip c) s (fun d =>
    let k := (s.dev.mcore c).enter
    let w := k.cWord
    seenAt (d.mcore c) (k.count + 3) (k.bank ((if w.testBit 25 then keyM else keyP) (bitsOf 24 22 w))) = w % 2 ^ 20))

/-- A compute operation writes v modulo 2^40 to accumulator n, as the next bundle reads it. -/
def Sys2Proof.WritesAcc (i : CoreId → Instr) (op : Nat) (n : Nat → Nat) (v : Core → Nat → Int) : Prop :=
  ∀ (s : State) (c : CoreId), Ready s.dev c true op → Runs (i c) s (fun d =>
    let k := (s.dev.mcore c).enter
    seenAt (d.mcore c) (k.count + 1) (k.bank (keyACC (n k.cWord))) = wrapNat 40 (v k k.cWord) ∧ (d.mcore c).slot = 1)

/-- The multiply and accumulator operations of the C slot (R265, R268, R269, R295 to R297, R299). -/
def Obligations.MarionetteMultiplies : Prop :=
  WritesAcc .mac 0x10 mAcc (fun k w =>
    let p := k.sh (mA w) (w.testBit 15) * k.sh (mB w) (w.testBit 14)
    (if mClr w then 0 else k.acc (mAcc w)) + (if mNeg w then -p else p)) ∧
  WritesAcc .mac2 0x11 mAcc (fun k w =>
    let p := k.sh (mA w) false * k.sh (mB w) false + k.sh (mA w) true * k.sh (mB w) true
    (if mClr w then 0 else k.acc (mAcc w)) + (if mNeg w then -p else p)) ∧
  WritesAcc .cmac 0x12 mAcc (fun k w =>
    let bi := if mNeg w then -k.sh (mB w) true else k.sh (mB w) true
    (if mClr w then 0 else k.acc (mAcc w)) + (k.sh (mA w) false * k.sh (mB w) false - k.sh (mA w) true * bi)) ∧
  WritesAcc .cmac 0x12 (fun w => mAcc w + 1) (fun k w =>
    let bi := if mNeg w then -k.sh (mB w) true else k.sh (mB w) true
    (if mClr w then 0 else k.acc (mAcc w + 1)) + (k.sh (mA w) false * bi + k.sh (mA w) true * k.sh (mB w) false)) ∧
  (∀ (s : State) (c : CoreId), Ready s.dev c true 0x13 → Runs (.cmul c) s (fun d =>
    let k := (s.dev.mcore c).enter
    let w := k.cWord
    let bi := if w.testBit 13 then -k.sh (cB w) true else k.sh (cB w) true
    seenAt (d.mcore c) (k.count + 1) (k.bank (cD w)) =
      pack (halfMove (k.sh (cA w) false * k.sh (cB w) false - k.sh (cA w) true * bi) k.srScale).1
        (halfMove (k.sh (cA w) false * bi + k.sh (cA w) true * k.sh (cB w) false) k.srScale).1)) ∧
  WritesAcc .accop 0x14 (bitsOf 25 24) (fun k w => match bitsOf 21 20 w with
    | 0 => 0
    | 1 => k.acc (bitsOf 25 24 w) + k.acc (bitsOf 23 22 w)
    | 2 => k.acc (bitsOf 25 24 w) - k.acc (bitsOf 23 22 w)
    | _ => -k.acc (bitsOf 25 24 w)) ∧
  WritesAcc .norm 0x15 (bitsOf 25 24) (fun k w =>
    let n := clampInt (-40) 40 (if w.testBit 23 then k.sh (bitsOf 22 19 w) (w.testBit 18) else sext 8 w)
    if 0 ≤ n then satS 40 (k.acc (bitsOf 25 24 w) * (2 ^ n.toNat : Nat)) else k.acc (bitsOf 25 24 w) / (2 ^ (-n).toNat : Nat)) ∧
  (∀ (s : State) (c : CoreId), Ready s.dev c true 0x16 → Runs (.exp c) s (fun d =>
    let k := (s.dev.mcore c).enter
    let w := k.cWord
    let e := if w.testBit 19 then (leadSigns 40 (k.nat (keyACC (bitsOf 13 12 w))) : Int) - 9
      else (leadSigns 16 (k.half (bitsOf 18 15 w) (w.testBit 14)) : Int) - 1
    let v := seenAt (d.mcore c) (k.count + 1) (k.bank (cD w))
    (if w.testBit 21 then v / 65536 else v % 65536) = wrapNat 16 (if w.testBit 20 then min (k.sh (cD w) (w.testBit 21)) e else e))) ∧
  (∀ (s : State) (c : CoreId), Ready s.dev c true 0x17 → (s.dev.mcore c).slot = 0 → Runs (.acs c) s (fun d =>
    let k := (s.dev.mcore c).enter
    let w := k.cWord
    let bm := k.sh (cB w) (w.testBit 9)
    let x0 := satS 16 (k.sh (cA w) false + bm)
    let y0 := satS 16 (k.sh (cA w) true - bm)
    let x1 := satS 16 (k.sh (cA w) false - bm)
    let y1 := satS 16 (k.sh (cA w) true + bm)
    seenAt (d.mcore c) (k.count + 1) (k.bank (cD w)) = pack (max x0 y0) (max x1 y1) ∧
    seenAt (d.mcore c) (k.count + 1) (k.bank (bitsOf 13 10 w)) =
      (k.dw (bitsOf 13 10 w) * 4 + bitOf (decide (x1 < y1)) * 2 + bitOf (decide (x0 < y0))) % 2 ^ 32))

/-- Loads, stores and moves in slots X and Y, in the core's own memories (R257, R258, R260, R261, R266, R288 to R292). -/
def Obligations.MarionetteMoves : Prop :=
  (∀ (s : State) (c : CoreId) (n : Nat), let k := s.dev.mcore c
    let w := k.slotWord
    Ready s.dev c false 0x1 → inLocal (k.ptr (xP w)) = true → Runs (.ldw ⟨c, ⟨n, false⟩⟩) s (fun d =>
      seenAt (d.mcore c) (k.count + 3) (k.bank (xR w)) = ofLE (k.bytesAt (k.ptr (xP w)) 4) ∧
      d.get (R.MAR_ECC (coreDie c) (c.val % 32)) F.MAR_ECC_corrected =
        min 65535 (s.dev.get (R.MAR_ECC (coreDie c) (c.val % 32)) F.MAR_ECC_corrected + n))) ∧
  (∀ (s : State) (c : CoreId) (n : Nat), let k := s.dev.mcore c
    Ready s.dev c false 0x1 → inShared (k.ptr (xP k.slotWord)) = true → Runs (.ldw ⟨c, ⟨n, true⟩⟩) s (fun d =>
      (d.mcore c).stopped = true ∧ (d.mcore c).running = false ∧ (d.pcore c).fault = 2)) ∧
  (∀ (s : State) (c : CoreId) (n : Nat), let k := s.dev.mcore c
    let w := k.slotWord
    Ready s.dev c false 0x2 → inLocal (k.ptr (xP w)) = true → Runs (.ldh ⟨c, ⟨n, false⟩⟩) s (fun d =>
      let v := seenAt (d.mcore c) (k.count + 3) (k.bank (xR w))
      (if xH w then v / 65536 else v % 65536) = ofLE (k.bytesAt (k.ptr (xP w)) 2))) ∧
  (∀ (s : State) (c : CoreId) (n : Nat), let k := s.dev.mcore c
    let w := k.slotWord
    Ready s.dev c false 0x5 → inLocal (k.ptr (xP w)) = true → xStill w = true → Runs (.ldp ⟨c, ⟨n, false⟩⟩) s (fun d =>
      seenAt (d.mcore c) (k.count + 3) (k.bank (xPM w)) = ofLE (k.bytesAt (k.ptr (xP w)) 4) % 2 ^ 20)) ∧
  (∀ (s : State) (c : CoreId), let k := s.dev.mcore c
    let w := k.slotWord
    Ready s.dev c false 0x3 → inLocal (k.ptr (xP w)) = true → k.ptr (xP w) % 4 = 0 → k.slot = 2 → k.stores = [] → Runs (.stw c) s (fun d =>
      (d.mcore c).bytesAt (k.ptr (xP w)) 4 = toLE 4 (k.dw (xR w)) ∧
      ∀ a, inLocal a = true → a < k.ptr (xP w) ∨ k.ptr (xP w) + 4 ≤ a → (d.mcore c).byte a = k.byte a)) ∧
  (∀ (s : State) (c : CoreId), let k := s.dev.mcore c
    let w := k.slotWord
    Ready s.dev c false 0x3 → inLocal (k.ptr (xP w)) = true → k.slot = 1 → Runs (.stw c) s (fun d =>
      (d.mcore c).stores = k.stores ++ [(k.ptr (xP w), toLE 4 (k.dw (xR w)))] ∧ (d.mcore c).slot = 2)) ∧
  (∀ (s : State) (c : CoreId), let k := s.dev.mcore c
    let w := k.slotWord
    Ready s.dev c false 0x4 → inLocal (k.ptr (xP w)) = true → k.slot = 1 → Runs (.sth c) s (fun d =>
      (d.mcore c).stores = k.stores ++ [(k.ptr (xP w), toLE 2 (k.half (xR w) (xH w)))] ∧ (d.mcore c).slot = 2)) ∧
  (∀ (s : State) (c : CoreId), let k := s.dev.mcore c
    let w := k.slotWord
    Ready s.dev c false 0x6 → inLocal (k.ptr (xP w)) = true → k.slot = 1 → Runs (.stp c) s (fun d =>
      (d.mcore c).stores = k.stores ++ [(k.ptr (xP w), toLE 4 (if w.testBit 11 then wrapNat 32 (k.mod_ (bitsOf 10 8 w)) else k.ptr (bitsOf 10 8 w)))] ∧
      (d.mcore c).slot = 2)) ∧
  (∀ (s : State) (c : CoreId), let k := s.dev.mcore c
    let w := k.slotWord
    Ready s.dev c false 0x7 → Runs (.mov c) s (fun d =>
      let dst := bitsOf 11 6 w
      (dst < 16 → seenAt (d.mcore c) (k.count + 1) (k.bank dst) = wrapNat 32 (k.movRead (w % 64))) ∧
      (16 ≤ dst → dst < 32 → seenAt (d.mcore c) (k.count + 3) (k.bank dst) = wrapNat 20 (k.movRead (w % 64))) ∧
      ((dst = 32 ∨ dst = 33) → seenAt (d.mcore c) (k.count + 3) (k.bank dst) = wrapNat 16 (k.movRead (w % 64))))) ∧
  (∀ (s : State) (c : CoreId), let k := s.dev.mcore c
    let w := k.slotWord
    Ready s.dev c false 0x8 → Runs (.mva c) s (fun d =>
      let v := seenAt (d.mcore c) (k.count + 1) (k.bank (xR w))
      let a := k.acc (bitsOf 7 6 w)
      (bitsOf 5 4 w = 0 → v = wrapNat 32 (wordMove a k.srScale).1) ∧ (bitsOf 5 4 w = 1 → v % 65536 = wrapNat 16 (halfMove a k.srScale).1) ∧
      (bitsOf 5 4 w = 2 → v / 65536 = wrapNat 16 (halfMove a k.srScale).1))) ∧
  (∀ (s : State) (c : CoreId), let k := s.dev.mcore c
    let w := k.slotWord
    Ready s.dev c false 0x9 → Runs (.mta c) s (fun d =>
      seenAt (d.mcore c) (k.count + 1) (k.bank (keyACC (bitsOf 7 6 w))) =
        wrapNat 40 (if bitsOf 5 4 w = 0 then sext 32 (k.dw (xR w)) else k.sh (xR w) (bitsOf 5 4 w == 2) * 32768))) ∧
  (∀ (s : State) (c : CoreId), let k := s.dev.mcore c
    let w := k.slotWord
    Ready s.dev c false 0xA → xStill w = false → Runs (.modp c) s (fun d =>
      seenAt (d.mcore c) (k.count + 1) (k.bank (keyP (xP w))) =
        wrapNat 20 ((k.ptr (xP w) : Int) + (if xK w then sext 3 (xM w) * 4 else k.mod_ (xM w))))) ∧
  (∀ (s : State) (c : CoreId), let k := s.dev.mcore c
    let w := k.slotWord
    Ready s.dev c false 0xB → Runs (.ldim c) s (fun d => seenAt (d.mcore c) (k.count + 3) (k.bank (xPM w)) = wrapNat 20 (sext 8 w)))

/-- The flow of a core's program (R262, R270, R275, R276, R283, R300, R301): a bundle's end, jumps after their delay slots, loops and the fatal trap. -/
def Obligations.MarionetteFlows : Prop :=
  (∀ (s : State) (c : CoreId), Ready s.dev c (decide ((s.dev.mcore c).slot = 0)) 0 → (s.dev.mcore c).slot < 2 → Runs (.nop c) s (fun d =>
    d.mcore c = { (s.dev.mcore c).enter with slot := (s.dev.mcore c).slot + 1 })) ∧
  (∀ (s : State) (c : CoreId), let k := s.dev.mcore c
    Ready s.dev c false 0 → k.slot = 2 → k.loops = [] → k.branch = none → k.stores = [] → k.pc + 1 < 8192 → Runs (.nop c) s (fun d =>
      (d.mcore c).pc = k.pc + 1 ∧ (d.mcore c).slot = 0 ∧ (d.mcore c).count = k.count + 1 ∧ (d.mcore c).regs = k.regs ∧
      d.word (R.CORE_CYCLES c) = s.dev.word (R.CORE_CYCLES c) + 1)) ∧
  (∀ (s : State) (c : CoreId) (target : Nat), let k := s.dev.mcore c
    Ready s.dev c false 0 → k.slot = 2 → k.loops = [] → k.branch = some (1, target, false) → target < 8192 → Runs (.nop c) s (fun d =>
      (d.mcore c).pc = target ∧ (d.mcore c).branch = none ∧ (d.mcore c).shadow = k.shadow)) ∧
  (∀ (s : State) (c : CoreId) (target : Nat), let k := s.dev.mcore c
    Ready s.dev c false 0 → k.slot = 2 → k.loops = [] → k.stores = [] → k.branch = some (1, target, true) → Runs (.nop c) s (fun d =>
      (d.mcore c).pc = seenAt k (k.count + 1) keyRPC % 8192 ∧ (d.mcore c).branch = none ∧ (d.mcore c).shadow = false)) ∧
  (∀ (s : State) (c : CoreId), Ready s.dev c true 0x20 → Runs (.br c) s (fun d =>
    let k := (s.dev.mcore c).enter
    (d.mcore c).branch = (if k.condition (cD k.cWord) then some (3, k.cWord % 8192, false) else k.branch) ∧ (d.mcore c).inDelay = true ∧
      (d.mcore c).slot = 1)) ∧
  (∀ (s : State) (c : CoreId), Ready s.dev c true 0x21 → Runs (.call c) s (fun d =>
    let k := (s.dev.mcore c).enter
    (d.mcore c).branch = some (3, k.cWord % 8192, false) ∧
    (k.pc < 8192 → seenAt (d.mcore c) (k.count + 1) (k.bank (cD k.cWord)) = k.pc + 3))) ∧
  (∀ (s : State) (c : CoreId), Ready s.dev c true 0x22 → Runs (.jr c) s (fun d =>
    let k := (s.dev.mcore c).enter
    (d.mcore c).branch = some (3, k.dw (cD k.cWord) % 8192, false))) ∧
  (∀ (s : State) (c : CoreId), Ready s.dev c true 0x23 → Runs (.reti c) s (fun d =>
    (d.mcore c).branch.map (fun b => (b.1, b.2.2)) = some (3, true) ∧ (d.mcore c).slot = 1)) ∧
  (∀ (s : State) (c : CoreId), Ready s.dev c true 0x24 → Runs (.rep c) s (fun d =>
    let k := (s.dev.mcore c).enter
    let w := k.cWord
    let n := if w.testBit 25 then k.half (bitsOf 15 12 w) (w.testBit 11) else w % 65536
    let len := bitsOf 24 19 w + 1
    (n = 0 → (d.mcore c).branch = some (1, k.pc + len + 1, false) ∧ (d.mcore c).loops = k.loops) ∧
    (n ≠ 0 → (d.mcore c).loops = ⟨k.pc + 1, k.pc + len⟩ :: k.loops ∧
      seenAt (d.mcore c) (k.count + 1) (keyLC k.loops.length) = n ∧
      seenAt (d.mcore c) k.count (keyLC k.loops.length) = seenAt k k.count (keyLC k.loops.length)))) ∧
  (∀ (s : State) (c : CoreId), let k := (s.dev.mcore c).landed
    s.dev.slotReady c = true → (s.dev.mcore c).holds true 0x25 = true → k.traps (s.dev.coreKind c) = [8] → Runs (.trap c) s (fun d =>
      (d.mcore c).stopped = true ∧ (d.mcore c).running = false ∧ (d.pcore c).fault = 3 ∧ d.evtStatus 37 = true ∧
      d.word (R.MAR_TRAP (coreDie c) (c.val % 32)) = BitVec.ofNat 32 (8 * 2 ^ 28 + k.pc)))

/-- A core's interrupts, timer, budget warning, transfers, doorbell and completion (R273 to R275, R277, R280, R281). -/
def Obligations.MarionetteInterruptsAndEnds : Prop :=
  (∀ (s : State) (c : CoreId) (n : Nat), s.dev.coreRuns c = true → (s.dev.pcore c).done = none → s.dev.interruptDue c = some n →
    Runs (.interruptTake c) s (fun d => (d.mcore c).shadow = true ∧ (d.mcore c).pc = s.dev.get (R.CORE_IRQ_VEC c n) F.CORE_IRQ_VEC_vec ∧
      smGet (fun _ => 0) (d.mcore c).regs keyRPC = BitVec.ofNat 40 (s.dev.mcore c).pc ∧ (d.mcore c).count = (s.dev.mcore c).count ∧
      d.word (R.CORE_CYCLES c) = s.dev.word (R.CORE_CYCLES c) + 1)) ∧
  (∀ (s : State) (c : CoreId), s.dev.coreDieUp c = true → s.dev.get (R.CORE_TIMER c) F.CORE_TIMER_count ≠ 0 → Runs (.coreTimerZero c) s (fun d =>
    d.get (R.CORE_TIMER c) F.CORE_TIMER_count = 0 ∧ (d.word (R.CORE_IRQ_PEND c)).getLsbD 4 = true)) ∧
  (∀ (s : State) (c : CoreId), s.dev.coreRuns c = true → Runs (.budgetWarn c) s (fun d => (d.word (R.CORE_IRQ_PEND c)).getLsbD 6 = true)) ∧
  (∀ (s : State) (c : CoreId) (w : Word), s.dev.coreRuns c = true → (s.dev.mcore c).tru.length < 8 → (s.dev.mcore c).truWait = none →
    Runs (.coreTruCtrlWrite c w) s (fun d =>
    ∃ x, (d.mcore c).tru = (s.dev.mcore c).tru ++ [x] ∧ x.ext = (s.dev.word (R.CORE_TRU_EXT c)).toNat ∧
      x.loc = (s.dev.word (R.CORE_TRU_LOC c)).toNat ∧ x.length = w.toNat % 2 ^ 17 ∧ x.toExt = w.getLsbD 31)) ∧
  (∀ (s : State) (c : CoreId) (w : Word), s.dev.coreRuns c = true → (s.dev.mcore c).tru.length = 8 → (s.dev.mcore c).truWait = none →
    Runs (.coreTruCtrlWrite c w) s (fun d => (d.mcore c).tru = (s.dev.mcore c).tru ∧ d.slotReady c = false ∧
      ∃ x, (d.mcore c).truWait = some x ∧ x.ext = (s.dev.word (R.CORE_TRU_EXT c)).toNat ∧ x.length = w.toNat % 2 ^ 17)) ∧
  (∀ (s : State) (c : CoreId) (x : Transfer) (rest : List Transfer), s.dev.coreDieUp c = true → (s.dev.mcore c).tru = x :: rest →
    Runs (.transferComplete c) s (fun d => (d.mcore c).tru = rest ++ (s.dev.mcore c).truWait.toList ∧ (d.mcore c).truWait = none ∧
      d.get (R.CORE_TRU_STATUS c) F.CORE_TRU_STATUS_done = (s.dev.get (R.CORE_TRU_STATUS c) F.CORE_TRU_STATUS_done + 1) % 256 ∧
      (s.dev.truError x ≠ 0 → d.get (R.CORE_TRU_STATUS c) F.CORE_TRU_STATUS_last_err = s.dev.truError x ∧ d.dram = s.dev.dram ∧
        (d.word (R.CORE_IRQ_PEND c)).getLsbD 1 = true) ∧
      (s.dev.truError x = 0 → x.toExt = true → x.space = 0 → d.dramRead x.ext x.length = (s.dev.mcore c).bytesAt x.loc x.length ∧
        (d.word (R.CORE_IRQ_PEND c)).getLsbD 0 = true) ∧
      (s.dev.truError x = 0 → x.toExt = false → x.space = 0 → s.dev.drc.poison = [] →
        (d.mcore c).bytesAt x.loc x.length = s.dev.dramRead x.ext x.length ∧ (d.word (R.CORE_IRQ_PEND c)).getLsbD 0 = true))) ∧
  (∀ (s : State) (c : CoreId) (target : Fin 32), s.dev.coreRuns c = true → Runs (.coreDoorbellWrite c target) s (fun d =>
    (d.word (R.CORE_IRQ_PEND (c.val / 32 * 32 + target.val))).getLsbD 5 = true)) ∧
  (∀ (s : State) (c : CoreId) (w : Word), s.dev.coreRuns c = true → w.getLsbD 7 = true → Runs (.coreIrqSetWrite c w) s (fun d =>
    (d.word (R.CORE_IRQ_PEND c)).getLsbD 7 = true)) ∧
  (∀ (s : State) (c : CoreId) (v : Word) (t : Nat), s.dev.coreRuns c = true → (s.dev.pcore c).done = none → 3 ≤ s.dev.coreKind c →
    v.toNat / 2 ^ 28 = 2 → Runs (.coreDoneWrite c v none t) s (fun d => (d.pcore c).done = some (.ready (v.toNat % 1024) (instantOf s t)))) ∧
  (∀ (s : State) (c : CoreId) (v : Word) (t : Nat), s.dev.coreRuns c = true → (s.dev.pcore c).done = none →
    (v.toNat / 2 ^ 28 = 0 ∨ 3 < v.toNat / 2 ^ 28) → Runs (.coreDoneWrite c v none t) s (fun d => (d.pcore c).fault = 3 ∧ d.evtStatus 37 = true)) ∧
  (∀ (s : State) (c : CoreId) (t i : Nat) (out : TaskOut) (x : Task), s.dev.hubUp = true → (s.dev.pcore c).done = some out →
    (s.dev.pcore c).run = some i → s.dev.task i = some x → (s.dev.mcore c).tru = [] → s.dev.jobsOf c = 0 → (s.dev.mcore c).slot = 0 →
    Runs (.outputAccept c t) s (fun d => (d.pcore c).done = none ∧
      (s.dev.firedTasks = [] → s.dev.pup.redo = [] → (s.dev.pcore c).retiring = false →
        d.task i = some { x with state := 4, out := (s.dev.mcore c).outputs out })))

/-- A MAC's frames, pauses and counters (R346, R347, R349, R351, R360, R362, R364). A MAC's lock, link and verification (R345, R353). -/
def Obligations.MacsReceiveCountAndLink : Prop :=
  (∀ (s : State) (n : MacId) (w : WireRx) (t : Nat), s.dev.portUp n = true → w.kind = .whole → w.good = true → w.codeErr = false →
    64 ≤ w.data.length + 4 → w.data.length + 4 ≤ s.dev.macMax n → beAt w.data 12 2 ≠ 0x8808 →
    s.dev.rxUsed n + (w.data.length + 4) ≤ rxBufSize n → Runs (.macFrameReceive n w t) s (fun d =>
      ∃ f, (d.mac n).rx = (s.dev.mac n).rx ++ [f] ∧ f.data = w.data ∧ f.port = n.val ∧
        f.nt = instantOf s t - (w.ago + s.dev.get (R.MAC_PTP_LAT n) F.MAC_PTP_LAT_rx_lat))) ∧
  (∀ (s : State) (n : MacId) (w : WireRx) (t : Nat), s.dev.portUp n = true → w.kind = .whole → w.good = false →
    Runs (.macFrameReceive n w t) s (fun d => (d.mac n).rx = (s.dev.mac n).rx ∧ d.macCnt n 7 = (s.dev.macCnt n 7 + 1) % 2 ^ 48)) ∧
  (∀ (s : State) (n : MacId) (t u : Nat), s.dev.hubUp = true → (s.dev.mac n).pauseUntil = some u → u ≤ xoOf s t →
    Runs (.pauseTimerExpire n t) s (fun d => (d.mac n).pauseUntil = none ∧ d.get (R.MAC_STATUS n) F.MAC_STATUS_pause_rx = 0)) ∧
  (∀ (s : State) (n : MacId) (t x : Nat), s.dev.hubUp = true → (s.dev.mac n).pauseSent = some x →
    x + s.dev.quantaNs n (max 1 (s.dev.get (R.MAC_PAUSE n) F.MAC_PAUSE_refresh)) ≤ xoOf s t → s.dev.loWm n < s.dev.rxUsed n →
    s.dev.txPauseOn n = true → Runs (.pauseRefresh n t) s (fun d => (d.mac n).pauseSent = some (xoOf s t))) ∧
  (∀ (s : State) (n : MacId), s.dev.hubUp = true → Runs (.macCntClr n) s (fun d => (∀ c, d.macCnt n c = 0) ∧
    d.word (R.MAC_CNT_HALF_LO n) = 0 ∧ d.word (R.MAC_CNT_HALF_HI n) = 0)) ∧
  (∀ (s : State) (n : MacId) (c : Fin 64), s.dev.hubUp = true → Runs (.macCntHiRead n c) s (fun d =>
    d.rdata = BitVec.ofNat 32 (s.dev.macCnt n c / 2 ^ 32) ∧ smFind (d.mac n).cntLatch c = some (s.dev.macCnt n c % 2 ^ 32))) ∧
  (∀ (s : State) (n : MacId) (c : Fin 64) (v : Nat), s.dev.hubUp = true → smFind (s.dev.mac n).cntLatch c = some v →
    Runs (.macCntLoRead n c) s (fun d => d.rdata = BitVec.ofNat 32 v ∧ smFind (d.mac n).cntLatch c = none)) ∧
  (∀ (s : State) (n : MacId) (x : Nat × Nat × Nat), s.dev.hubUp = true → (s.dev.mac n).ptpTx = some x → Runs (.macPtpTxSecHiRead n) s (fun d =>
    d.rdata = BitVec.ofNat 32 (x.1 / 1000000000 / 2 ^ 32 % 65536) ∧ (d.mac n).ptpLatch = some x)) ∧
  (∀ (s : State) (n : MacId) (x : Nat × Nat × Nat), s.dev.hubUp = true → (s.dev.mac n).ptpLatch = some x → Runs (.macPtpTxIdRead n) s (fun d =>
    d.rdata = BitVec.ofNat 32 (s.dev.get (R.MAC_PTP_TX_ID n) F.MAC_PTP_TX_ID_valid * 2 ^ 31 + x.2.1 * 65536 + x.2.2) ∧
    (d.mac n).ptpLatch = none)) ∧
  (∀ (s : State) (n : MacId) (pcs fec : Bool) (t : Nat), s.dev.hubUp = true → Runs (.pcsLockChange n pcs fec t) s (fun d =>
    (d.mac n).lock = (pcs && (fec || !s.dev.fecOn n)) ∧ d.get (R.MAC_STATUS n) F.MAC_STATUS_pcs_lock = bitOf pcs ∧
    d.get (R.MAC_STATUS n) F.MAC_STATUS_fec_lock = bitOf (fec || !s.dev.fecOn n) ∧ d.macLink n = s.dev.macLink n)) ∧
  (∀ (s : State) (n : MacId) (an : Option (Bool × Bool)) (t : Nat), s.dev.serOn n = true → s.dev.macOn n = true → s.dev.macLink n = false →
    (s.dev.mac n).lock = true → (s.dev.mac n).lockAt + max 1 (s.dev.get (R.MAC_LINK n) F.MAC_LINK_up_hold) * 1000000 ≤ xoOf s t →
    (s.dev.macAn n = true → an ≠ none) → Runs (.linkUp n an t) s (fun d => d.macLink n = true ∧ d.evtStatus 53 = true)) ∧
  (∀ (s : State) (n : MacId) (t : Nat), s.dev.hubUp = true → s.dev.macLink n = true → (s.dev.mac n).lock = false →
    (s.dev.mac n).lockAt + max 1 (s.dev.get (R.MAC_LINK n) F.MAC_LINK_down_hold) * 1000 ≤ xoOf s t → Runs (.linkDown n t) s (fun d =>
      d.macLink n = false ∧ d.evtStatus 53 = true ∧ d.peActive n = false ∧ (d.port n).now = none ∧ (d.port n).held = none)) ∧
  (∀ (s : State) (n : MacId) (t : Nat), s.dev.portUp n = true → (s.dev.mac n).verifies ≠ 0 → (s.dev.mac n).verifies < 3 →
    (s.dev.mac n).verifyAt + min 128 (max 1 (s.dev.get (R.MAC_PE_CTRL n) F.MAC_PE_CTRL_verify_time)) * 1000000 ≤ xoOf s t →
    Runs (.verifyTimer n t) s (fun d => (d.mac n).verifies = (s.dev.mac n).verifies + 1 ∧ (d.mac n).verifyAt = xoOf s t ∧
      d.macCnt n 42 = (s.dev.macCnt n 42 + 1) % 2 ^ 48)) ∧
  (∀ (s : State) (n : MacId) (t : Nat), s.dev.portUp n = true → (s.dev.mac n).verifies = 3 →
    (s.dev.mac n).verifyAt + min 128 (max 1 (s.dev.get (R.MAC_PE_CTRL n) F.MAC_PE_CTRL_verify_time)) * 1000000 ≤ xoOf s t →
    Runs (.verifyTimer n t) s (fun d => (d.mac n).verifies = 0 ∧ d.get (R.MAC_STATUS n) F.MAC_STATUS_pe_verify_failed = 1))

/-- The classifier takes frames, lets fragments go and mends its tables, and a policer's words take what is written to them (R308, R321, R322, R328, R330,
R347). -/
def Obligations.ClassifierRuns : Prop :=
  (∀ (s : State) (n : MacId) (t : Nat) (f : RxFrame) (rest : List RxFrame) (a : ClsAct), s.dev.hubUp = true →
    smFind s.dev.cls.passes n.val = none → (s.dev.mac n).rx = f :: rest →
    (∀ b, b < 8 → (s.dev.parseAs b 192 f.data).frag = 0 ∧
      s.dev.decide_ s.dev.activeGen ((s.dev.parseAs b 192 f.data).key f.port 0) f.port = a) → Runs (.classifyFrame n [] t) s (fun d =>
      (d.mac n).rx = rest ∧ (a.ty ≠ 2 → smFind d.cls.passes n.val = none) ∧
      (a.ty = 0 → d.get R.CLS_DROP F.CLS_DROP_action_drop =
        min (s.dev.get R.CLS_DROP F.CLS_DROP_action_drop + 1) F.CLS_DROP_action_drop.top) ∧
      (a.ty = 1 → a.eport < 8 → a.policer = none → a.w0 / 64 % 16 = 0 → let g := 8 * a.eport + a.queue
        (s.dev.queue g).isolated = false → (s.dev.at_ t).placeFrame g (max 64 (f.data.length + 4)) = some false →
        (s.dev.queue g).depth + max 64 (f.data.length + 4) ≤ min 8192 (max 1 (s.dev.get (R.SHP_Q_CFG g) F.SHP_Q_CFG_q_max)) * 65536 →
        ∃ x : QFrame, (d.queue g).frames = (s.dev.queue g).frames ++ [x] ∧ x.data = f.data ∧ x.len = max 64 (f.data.length + 4)))) ∧
  (∀ (s : State) (n : MacId) (t : Nat) (x : SecondPass) (a : ClsAct), s.dev.hubUp = true → smFind s.dev.cls.passes n.val = some x →
    (∀ b, b < 8 → s.dev.decide_ x.gen ((s.dev.parseAs b x.lim x.data).key n.val 1) n.val = a) → Runs (.classifyFrame n [] t) s (fun d =>
      smFind d.cls.passes n.val = none ∧ (d.mac n).rx = (s.dev.mac n).rx ∧
      (a.ty = 2 → d.get R.CLS_DROP_X F.CLS_DROP_X_pass_limit =
        min (s.dev.get R.CLS_DROP_X F.CLS_DROP_X_pass_limit + 1) F.CLS_DROP_X_pass_limit.top))) ∧
  (∀ (s : State) (t : Nat), s.dev.hubUp = true → Runs (.fragmentWaitExpire t) s (fun d =>
    d.cls.pending = s.dev.cls.pending.filter (fun x => decide (xoOf s t < x.2.2 + 50000000)) ∧ d.cls.frags = s.dev.cls.frags ∧
    d.get R.CLS_FRAG_DROP F.CLS_FRAG_DROP_expired = min (s.dev.get R.CLS_FRAG_DROP F.CLS_FRAG_DROP_expired +
      (s.dev.cls.pending.filter (fun x => decide (x.2.2 + 50000000 ≤ xoOf s t))).length) F.CLS_FRAG_DROP_expired.top)) ∧
  (∀ (s : State) (t : Nat), s.dev.hubUp = true → Runs (.fragmentEntryExpire t) s (fun d =>
    d.cls.frags = s.dev.cls.frags.filter (fun e => decide (xoOf s t < e.at_ + 2000000000)) ∧ d.cls.pending = s.dev.cls.pending)) ∧
  (∀ (s : State) (e : Fin 8192), s.dev.hubUp = true → Runs (.tcamScrub [⟨e, true⟩]) s (fun d =>
    (d.word (R.CLS_TCAM (32 * e.val + 31))).getLsbD 31 = false ∧ d.evtStatus 63 = true ∧
    d.get R.CLS_SCRUB F.CLS_SCRUB_restored = s.dev.get R.CLS_SCRUB F.CLS_SCRUB_restored)) ∧
  (∀ (s : State) (errs : List TcamErr), s.dev.hubUp = true → errs ≠ [] → (∀ e ∈ errs, e.lost = false) → Runs (.tcamScrub errs) s (fun d =>
    d.get R.CLS_SCRUB F.CLS_SCRUB_restored = min (s.dev.get R.CLS_SCRUB F.CLS_SCRUB_restored + errs.length) F.CLS_SCRUB_restored.top ∧
    d.evtStatus 62 = true ∧ d.get R.EVT_RECOVERY F.EVT_RECOVERY_last_kind = 4)) ∧
  (∀ (s : State) (p : Fin 1024) (k : Fin 4) (w : Word), s.dev.hubUp = true → Runs (.policerWrite p k w) s (fun d =>
    d.word (R.SHP_POL_RATE p) = (if k.val = 0 then w else s.dev.word (R.SHP_POL_RATE p)) ∧
    d.get (R.SHP_POL_CBS p) ⟨23, 0⟩ = (if k.val = 1 then w.toNat % 2 ^ 24 else s.dev.get (R.SHP_POL_CBS p) ⟨23, 0⟩) ∧
    (d.flag (R.SHP_POL_CBS p) ⟨31, 31⟩ = true ↔ s.dev.flag (R.SHP_POL_CBS p) ⟨31, 31⟩ = true ∨ k.val = 1 ∧ w.getLsbD 31 = true) ∧
    d.word (R.SHP_POL_TOKENS p) = (if k.val = 1 then BitVec.ofNat 32 (w.toNat % 2 ^ 24) else s.dev.word (R.SHP_POL_TOKENS p)) ∧
    d.word (R.SHP_POL_DROPS p) = (if k.val = 3 then w else s.dev.word (R.SHP_POL_DROPS p))))

/-- A port starts the one frame that waits, and ends it; its gates follow their list; and its virtual time is read (R332, R333, R336, R348). -/
def Obligations.PortsSend : Prop :=
  (∀ (s : State) (n : MacId) (q : Fin 8) (t : Nat) (h : QFrame), s.dev.portUp n = true → s.dev.gatesRun n = false → (s.dev.port n).now = none →
    (s.dev.port n).held = none → (s.dev.mac n).pauseOut = [] → (s.dev.at_ t).paused n = false → (s.dev.queue (8 * n.val + q.val)).frames = [h] →
    (s.dev.queue (8 * n.val + q.val)).busy = false → h.len ≤ s.dev.macMax n → (∀ j : Fin 8, j ≠ q → (s.dev.queue (8 * n.val + j.val)).frames = []) →
    Runs (.egressFrameStart n .none t) s (fun d => (d.queue (8 * n.val + q.val)).busy = true ∧ (d.queue (8 * n.val + q.val)).frames = [h] ∧
      ∃ x, (d.port n).now = some x ∧ x.queue = q.val ∧ x.frame.len = h.len ∧ x.start = xoOf s t ∧
        x.stop = xoOf s t + s.dev.wireNs n (h.len + 20))) ∧
  (∀ (s : State) (n : MacId) (t : Nat) (x : TxNow), s.dev.hubUp = true → (s.dev.port n).now = some x → x.stop ≤ xoOf s t → x.sent = 0 →
    x.upTo = x.frame.len → x.ctrl = false → x.bad = false → (s.dev.mac n).pauseOut = [] → Runs (.egressFrameEnd n t) s (fun d =>
      (d.port n).now = none ∧ (d.mac n).wire = x.frame.data ∧ d.macCnt n 32 = (s.dev.macCnt n 32 + 1) % 2 ^ 48 ∧
      d.macCnt n 33 = (s.dev.macCnt n 33 + x.frame.len) % 2 ^ 48 ∧
      ((s.dev.queue (8 * n.val + x.queue)).busy = true →
        (d.queue (8 * n.val + x.queue)).frames = (s.dev.queue (8 * n.val + x.queue)).frames.tail))) ∧
  (∀ (s : State) (n : MacId) (t : Nat), s.dev.hubUp = true → Runs (.gateStateChange n t) s (fun d =>
    (d.port n).gates = ((s.dev.at_ t).gateNow n).2 ∧ d.get (R.SHP_PORT_GSTAT n) F.SHP_PORT_GSTAT_states = ((s.dev.at_ t).gateNow n).2 % 256)) ∧
  (∀ (s : State) (n : MacId), s.dev.hubUp = true → Runs (.shpVtHiRead n) s (fun d =>
    d.rdata = BitVec.ofNat 32 ((s.dev.port n).v / 2 ^ 32) ∧ (d.port n).vLatch = some ((s.dev.port n).v % 2 ^ 32)))

/-- Key slots are loaded, cleared, limited and inspected, and the root key is blown (R365 to R368, R371, R475). -/
def Obligations.KeysAreKept : Prop :=
  (∀ (s : State) (slot : Nat) (cls : Fin 4) (big : Bool) (key : Bytes), s.dev.hubUp = true → slot ≤ 255 →
    s.dev.unwrap (((List.range 10).flatMap (fun w => toLE 4 (s.dev.word (R.CIP_KEY_BUF w)).toNat)).take (if big then 40 else 24)) = some key →
    Runs (.keyLoad slot cls big) s (fun d => d.get R.CIP_KEY_CMD F.CIP_KEY_CMD_result = 1 ∧
      ∃ k, d.keySlot slot = some k ∧ k.key = key ∧ k.big = big ∧ k.cls = cls.val ∧ k.uses = 0 ∧ k.locked = false)) ∧
  (∀ (s : State) (slot : Nat) (cls : Fin 4) (big : Bool), s.dev.hubUp = true →
    (255 < slot ∨ s.dev.unwrap (((List.range 10).flatMap (fun w => toLE 4 (s.dev.word (R.CIP_KEY_BUF w)).toNat)).take (if big then 40 else 24)) = none) →
    Runs (.keyLoad slot cls big) s (fun d => d.get R.CIP_KEY_CMD F.CIP_KEY_CMD_result = (if 255 < slot then 4 else 3) ∧ d.cip = s.dev.cip)) ∧
  (∀ (s : State) (slot : Nat), s.dev.hubUp = true → Runs (.keyClear slot) s (fun d =>
    (slot ≤ 255 → d.keySlot slot = none ∧ d.get R.CIP_KEY_CMD F.CIP_KEY_CMD_result = 1) ∧
    (255 < slot → d.cip = s.dev.cip ∧ d.get R.CIP_KEY_CMD F.CIP_KEY_CMD_result = 4) ∧
    (∀ j, j ≠ slot → d.keySlot j = s.dev.keySlot j))) ∧
  (∀ s : State, s.dev.hubUp = true → s.dev.rootBlow = none → Runs .rootKeyBlow s (fun d =>
    (s.dev.rootProgrammed = true → d.rootBlow = none ∧ d.get R.CIP_ROOT_CTRL F.CIP_ROOT_CTRL_result = 2) ∧
    (s.dev.rootProgrammed = false →
      d.rootBlow = some (ofLE ((List.range 8).flatMap (fun w => toLE 4 (s.dev.word (R.CIP_ROOT_KEY w)).toNat)))))) ∧
  (∀ (s : State) (failed key : Nat), s.dev.hubUp = true → s.dev.rootBlow = some key → Runs (.rootKeyBlowDone failed) s (fun d =>
    d.rootBlow = none ∧ (∀ i, s.dev.rootKey.testBit i = true → d.rootKey.testBit i = true) ∧
    (d.rootKey = key → d.rootProgrammed = true ∧ d.get R.CIP_ROOT_CTRL F.CIP_ROOT_CTRL_result = 1) ∧
    (d.rootKey ≠ key → d.rootProgrammed = s.dev.rootProgrammed ∧ d.get R.CIP_ROOT_CTRL F.CIP_ROOT_CTRL_result = 3))) ∧
  (∀ (s : State) (c : Fin 4) (w : Word), s.dev.hubUp = true → Runs (.classLimitWrite c w) s (fun d =>
    d.get (R.CIP_CLASS c) F.CIP_CLASS_limit = w.toNat % 2 ^ 24)) ∧
  (∀ (s : State) (n : Nat) (k : KeySlot), s.dev.hubUp = true → n < 4096 → s.dev.keySlot n = some k → k.uses < 2 ^ 25 →
    Runs (.cipSlotIdxWrite n) s (fun d => d.get R.CIP_SLOT_INFO F.CIP_SLOT_INFO_valid = 1 ∧
      d.get R.CIP_SLOT_INFO F.CIP_SLOT_INFO_locked = bitOf k.locked ∧ d.get R.CIP_SLOT_INFO F.CIP_SLOT_INFO_uses = k.uses ∧
      d.word R.CIP_SLOT_OWNER = BitVec.ofNat 32 k.owner ∧ d.cip = s.dev.cip))

/-- Native jobs of a core are accepted, run in order and answered (R371, R375, R376). The stream interface is claimed, started, fed, read, ended and
aborted by the one requester it lets (R379). -/
def Obligations.CipherJobsAndStreamRun : Prop :=
  (∀ (s : State) (c : CoreId) (k : KeySlot), s.dev.hubUp = true → s.dev.jobsOf c < 4 → s.dev.jobOk (s.dev.stagedJob c) = true →
    jobNode (s.dev.stagedJob c) = false → jobKey (s.dev.stagedJob c) ≤ 255 → s.dev.keySlot (jobKey (s.dev.stagedJob c)) = some k →
    k.locked = false → (∀ j ∈ s.dev.cip.jobs, j.who = c.val → j.early = none) → Runs (.cjSubmit c []) s (fun d =>
      d.cip.jobs = s.dev.cip.jobs ++ [⟨c.val, s.dev.stagedJob c, jobKey (s.dev.stagedJob c), k.key, none, false⟩] ∧
      ∃ k', d.keySlot (jobKey (s.dev.stagedJob c)) = some k' ∧ k'.uses = k.uses + 1 ∧
        k'.locked = decide (s.dev.classLimit k.cls ≤ k.uses + 1))) ∧
  (∀ (s : State) (i : Nat) (j : CipJob), s.dev.hubUp = true → (s.dev.cip.jobs.filter (·.started)).length < 16 →
    s.dev.cip.jobs.findIdx? (fun j => !j.started && j.early.isNone) = some i → s.dev.cip.jobs[i]? = some j →
    Runs .cipherJobStart s (fun d => d.cip.jobs[i]? = some { j with started := true })) ∧
  (∀ (s : State) (c : CoreId) (j : CipJob), s.dev.hubUp = true → s.dev.cip.jobs = [j] → j.who = c.val → j.started = true →
    smGet (fun _ => []) s.dev.cip.results c = [] → Runs (.cipherJobComplete c) s (fun d => d.cip.jobs = [] ∧
      ∃ r n, smGet (fun _ => []) d.cip.results c = [r * 2 ^ 28 + 2 ^ 27 + n] ∧
        (d.word (R.CORE_IRQ_PEND c)).getLsbD (if r = 0 then 2 else 3) = true)) ∧
  (∀ (s : State) (c : CoreId) (j : CipJob), s.dev.hubUp = true → s.dev.cip.jobs = [j] → j.who = c.val → j.started = true →
    s.dev.jobOk j.desc = true → jobDram j.desc 0 = false → jobDram j.desc 1 = false → jobDram j.desc 2 = false →
    smGet (fun _ => []) s.dev.cip.results c = [] → let x := jobSpec j.desc
    let len := jobLen j.desc
    let k := s.dev.mcore c
    let o := x.run j.key (jobIv j.desc) (k.bytesAt (j.desc.getD 4 0) (jobAadLen j.desc)) (k.bytesAt (j.desc.getD 2 0) len)
    let tag := k.bytesAt (j.desc.getD 2 0 + len) x.tag
    Runs (.cipherJobComplete c) s (fun d =>
      (x.dec = false → o.2.2 = true → smGet (fun _ => []) d.cip.results c = [2 ^ 27 + o.1.length] ∧
        (d.mcore c).bytesAt (j.desc.getD 3 0) (o.1 ++ o.2.1).length = o.1 ++ o.2.1) ∧
      (x.dec = true → x.tagged = true → o.2.2 = true → o.2.1 = tag → smGet (fun _ => []) d.cip.results c = [2 ^ 27 + o.1.length] ∧
        (d.mcore c).bytesAt (j.desc.getD 3 0) o.1.length = o.1) ∧
      (x.dec = true → x.tagged = true → o.2.2 = true → o.2.1 ≠ tag → smGet (fun _ => []) d.cip.results c = [2 ^ 28 + 2 ^ 27 + o.1.length] ∧
        (d.mcore c).bytesAt (j.desc.getD 3 0) o.1.length = List.replicate o.1.length 0))) ∧
  (∀ (s : State) (c : CoreId) (e : Nat) (rest : List Nat), s.dev.hubUp = true → smGet (fun _ => []) s.dev.cip.results c = e :: rest →
    Runs (.cjResultRead c) s (fun d => d.rdata = BitVec.ofNat 32 e ∧ smGet (fun _ => []) d.cip.results c = rest)) ∧
  (∀ (s : State) (c : CoreId), s.dev.hubUp = true → smGet (fun _ => []) s.dev.cip.results c = [] → Runs (.cjResultRead c) s (fun d =>
    d.rdata = 0 ∧ d.cip = s.dev.cip)) ∧
  (∀ (s : State) (who : Fin 65), s.dev.hubUp = true → s.dev.get R.STR_OWNER F.STR_OWNER_owner = 0 → Runs (.strOwnerWrite who 1) s (fun d =>
    d.get R.STR_OWNER F.STR_OWNER_owner = strCode who)) ∧
  (∀ (s : State) (who : Fin 65), s.dev.hubUp = true → s.dev.get R.STR_OWNER F.STR_OWNER_owner = strCode who →
    Runs (.strOwnerWrite who 0) s (fun d => d.get R.STR_OWNER F.STR_OWNER_owner = 0)) ∧
  (∀ (s : State) (who : Fin 65) (v : Word), s.dev.hubUp = true → s.dev.strMay who = false → Runs (.strOwnerWrite who v) s (fun d =>
    d.get R.STR_OWNER F.STR_OWNER_owner = s.dev.get R.STR_OWNER F.STR_OWNER_owner)) ∧
  (∀ (s : State) (who : Fin 65) (w : Word) (k : KeySlot), s.dev.hubUp = true → s.dev.strMay who = true →
    s.dev.flag R.STR_STATUS F.STR_STATUS_busy = false →
    (⟨F.STR_CTRL_mode.of w, F.STR_CTRL_dir.of w == 1, F.STR_CTRL_tag_len.of w + 1, F.STR_CTRL_n_len.of w⟩ : CipSpec).ok
      (s.dev.get R.STR_LEN F.STR_LEN_len) (s.dev.get R.STR_LEN F.STR_LEN_aad_len) = true →
    s.dev.keySlot (F.STR_CTRL_slot.of w) = some k → k.locked = false → Runs (.strStart who w) s (fun d =>
      d.flag R.STR_STATUS F.STR_STATUS_busy = true ∧ ∃ j, d.cip.stream = some j ∧ j.key = k.key ∧ j.mode = F.STR_CTRL_mode.of w ∧ j.input = [])) ∧
  (∀ (s : State) (who : Fin 65) (w : Word) (j : StreamJob), s.dev.hubUp = true → s.dev.strMay who = true → s.dev.cip.stream = some j →
    s.dev.flag R.STR_STATUS F.STR_STATUS_busy = true → j.all = false → s.dev.strFree ≠ 0 → Runs (.strDinWrite who w) s (fun d =>
      d.cip.stream = some { j with input := j.input ++ toLE 4 w.toNat })) ∧
  (∀ (s : State) (who : Fin 65) (j : StreamJob), s.dev.hubUp = true → s.dev.strMay who = true → s.dev.cip.stream = some j →
    s.dev.strOut ≠ [] → Runs (.strDoutRead who) s (fun d => d.rdata = BitVec.ofNat 32 (leAt s.dev.strOut 0 4) ∧
      d.cip.stream = some { j with outGiven := j.outGiven + 4 })) ∧
  (∀ (s : State) (j : StreamJob), s.dev.hubUp = true → s.dev.cip.stream = some j → s.dev.flag R.STR_STATUS F.STR_STATUS_busy = true →
    j.all = true → Runs .streamJobEnd s (fun d => d.flag R.STR_STATUS F.STR_STATUS_busy = false ∧
      d.get R.STR_STATUS F.STR_STATUS_result =
        (if (j.spec.run j.key j.iv j.aad j.data).2.2 = false then 2
         else if j.spec.tagged = true ∧ j.dec = true ∧ (j.spec.run j.key j.iv j.aad j.data).2.1 ≠ j.tag then 1 else 0))) ∧
  (∀ (s : State) (who : Fin 65), s.dev.hubUp = true → s.dev.strMay who = true → s.dev.flag R.STR_STATUS F.STR_STATUS_busy = true →
    Runs (.strAbort who) s (fun d => d.flag R.STR_STATUS F.STR_STATUS_busy = false ∧ d.get R.STR_STATUS F.STR_STATUS_result = 7))

/-- A request of one burst that waits alone at its channel is served: its bytes reach DRAM and come back, and every other byte stays (R381, R382, R386,
R389, R396). Refreshes are owed and made up, the multiplier follows the devices, and the patrol scrub moves on (R390 to R394, R397, R398). -/
def Obligations.DramServesRefreshesAndScrubs : Prop :=
  (∀ (s : State) (port : Fin 8) (write : Bool) (burst : Fin 67108864) (mask : BitVec 64) (data : Bytes) (t : Nat), s.dev.drcServes = true →
    64 * burst.val < 0xE0000000 → s.dev.drc.ports = [] → (s.dev.chan (dramChan (64 * burst.val))).length < 128 →
    Runs (.dramRequestArrive port write burst mask data t) s (fun d => d.drc.ports = [] ∧ d.dram = s.dev.dram ∧
      ∃ r, (d.chan (dramChan (64 * burst.val))).getLast? = some r ∧ r.port = port.val ∧ r.write = write ∧ r.addr = 64 * burst.val ∧
        r.mask = mask.toNat ∧ r.data = padTo 64 data ∧ r.at_ = xoOf s t)) ∧
  (∀ (s : State) (port : Fin 8) (write : Bool) (burst : Fin 67108864) (mask : BitVec 64) (data : Bytes) (t : Nat), s.dev.hubUp = true →
    (s.dev.memUp = false ∨ 0xE0000000 ≤ 64 * burst.val) → Runs (.dramRequestArrive port write burst mask data t) s (fun d =>
      d.drc.last = some ⟨port.val, 64 * burst.val, [], 1⟩ ∧ d.dram = s.dev.dram)) ∧
  (∀ (s : State) (ch : ChanId) (t : Nat) (r : DramReq), s.dev.drcServes = true → s.dev.chan ch = [r] → s.dev.drc.ports = [] → r.write = true →
    r.mask = 2 ^ 64 - 1 → r.addr % 64 = 0 → r.addr < 0xE0000000 → r.data.length = 64 → Runs (.dramRequestIssue ch [] t) s (fun d =>
      d.chan ch = [] ∧ d.dramRead r.addr 64 = r.data ∧ d.drc.last = some ⟨r.port, r.addr, [], 0⟩ ∧
      ∀ a, a < r.addr ∨ r.addr + 64 ≤ a → d.dramByte a = s.dev.dramByte a)) ∧
  (∀ (s : State) (ch : ChanId) (t : Nat) (r : DramReq), s.dev.drcServes = true → s.dev.chan ch = [r] → s.dev.drc.ports = [] → r.write = false →
    s.dev.drc.poison = [] → Runs (.dramRequestIssue ch [] t) s (fun d =>
      d.chan ch = [] ∧ d.drc.last = some ⟨r.port, r.addr, s.dev.dramRead r.addr 64, 0⟩ ∧ d.dram = s.dev.dram)) ∧
  (∀ (s : State) (ch : ChanId) (b : BankId) (t : Nat), s.dev.memUp = true → s.dev.refMult = 1 → s.dev.owed ch b < 8 →
    Runs (.refreshDue ch b t) s (fun d => d.owed ch b = s.dev.owed ch b + (if s.dev.bankIdle ch b then 0 else 1) ∧
      d.word R.DRC_REF_STAT = s.dev.word R.DRC_REF_STAT)) ∧
  (∀ (s : State) (ch : ChanId) (b : BankId) (t : Nat), s.dev.memUp = true → s.dev.refMult = 1 → 8 ≤ s.dev.owed ch b →
    Runs (.refreshDue ch b t) s (fun d => d.owed ch b = s.dev.owed ch b ∧ d.get R.DRC_REF_STAT F.DRC_REF_STAT_cap_forced =
      min (s.dev.get R.DRC_REF_STAT F.DRC_REF_STAT_cap_forced + 1) F.DRC_REF_STAT_cap_forced.top)) ∧
  (∀ (s : State) (ch : ChanId) (b : BankId) (t : Nat), s.dev.memUp = true → s.dev.bankIdle ch b = true → Runs (.idleRefresh ch b t) s (fun d =>
    d.owed ch b = s.dev.owed ch b - 1 ∧ ∀ c' b' : Nat, b' < 16 → (c', b') ≠ (ch.val, b.val) → d.owed c' b' = s.dev.owed c' b')) ∧
  (∀ (s : State) (r0 r1 : Fin 3) (t : Nat), s.dev.memUp = true → (s.dev.link 5).up = true → s.dev.derateHeld = false →
    1 ≤ s.dev.refMult → Runs (.mr4Read r0 r1 t) s (fun d => d.refMult = max (2 ^ r0.val) (2 ^ r1.val) ∧
      (s.dev.refMult < max (2 ^ r0.val) (2 ^ r1.val) → d.flag R.DRC_STATUS F.DRC_STATUS_window = true))) ∧
  (∀ (s : State) (t w : Nat), s.dev.hubUp = true → s.dev.drc.window = some w → w ≤ xoOf s t → Runs (.derateWindowClose t) s (fun d =>
    d.drc.window = none ∧ (∀ c b, d.owed c b = 0) ∧ d.flag R.DRC_STATUS F.DRC_STATUS_window = false ∧
    (s.dev.present 6 = true → s.dev.dieIsolated 6 = false → d.evtStatus 58 = true))) ∧
  (∀ (s : State) (t : Nat), s.dev.drcServes = true → s.dev.flag R.DRC_SCRUB F.DRC_SCRUB_en = true → Runs (.patrolScrubRead [] t) s (fun d =>
    d.get R.DRC_SCRUB_POS F.DRC_SCRUB_POS_pos = (s.dev.get R.DRC_SCRUB_POS F.DRC_SCRUB_POS_pos + 1) % (0xE0000000 / 64) ∧ d.dram = s.dev.dram))

/-- DRAM keeps its canonical form through a write of one burst, and a byte that the mask leaves out keeps its value (R385). -/
def Obligations.DramKeepsItsForm : Prop :=
  (Memory.wf 0 State.reset.dev.dram ∧ Memory.wf 0xFF State.reset.dev.flash) ∧
  (∀ (s : State) (ch : ChanId) (errs : List DramErr) (t : Nat), Memory.wf 0 s.dev.dram →
    Runs (.dramRequestIssue ch errs t) s (fun d => Memory.wf 0 d.dram)) ∧
  (∀ (s : State) (ch : ChanId) (t : Nat) (r : DramReq) (i : Nat), s.dev.drcServes = true → s.dev.chan ch = [r] → s.dev.drc.ports = [] →
    r.write = true → r.addr % 64 = 0 → r.addr < 0xE0000000 → r.data.length = 64 → s.dev.drc.poison = [] → i < 64 → Runs (.dramRequestIssue ch [] t) s (fun d =>
      d.dramByte (r.addr + i) = if r.mask.testBit i then r.data.getD i 0 else s.dev.dramByte (r.addr + i)))

/-- A calibration run starts on command, moves its code or tap, and ends or is stopped (R399 to R407, R411 to R413). What a calibration run does at each
measurement, once a second, and to CAL_DRAM_IDX (R400, R401, R405 to R407, R411, R412). -/
def Obligations.CalibrationRunsAndMeasures : Prop :=
  (∀ (s : State) (u : CalUnit), s.dev.hubUp = true → calValid u.val = true → calVco u.val = true → s.dev.calServes u.val = true →
    Runs (.calRun u) s (fun d => d.vcoDue (calRadio u.val) = true ∧ d.get R.CAL_CMD F.CAL_CMD_result = 1)) ∧
  (∀ (s : State) (u : CalUnit), s.dev.hubUp = true → calValid u.val = true → calVco u.val = false → s.dev.calEnabled u.val = true →
    s.dev.calServes u.val = true → s.dev.calRun u.val = none → u.val ∉ s.dev.cal.waiting → (∀ v ∈ calGroup u.val, s.dev.calRun v = none) →
    Runs (.calRun u) s (fun d => d.calRun u.val = some ⟨0, 0, none, (0, 0), 0, s.dev.calTemp u.val⟩ ∧
      d.get R.CAL_CMD F.CAL_CMD_result = 1)) ∧
  (∀ (s : State) (u : CalUnit), s.dev.hubUp = true → calValid u.val = true → calVco u.val = false → s.dev.calEnabled u.val = true →
    s.dev.calServes u.val = true → (s.dev.calRun u.val).isSome = true →
    Runs (.calRun u) s (fun d => d.cal = s.dev.cal ∧ d.get R.CAL_CMD F.CAL_CMD_result = 2)) ∧
  (∀ (s : State) (u : CalUnit), s.dev.hubUp = true → calValid u.val = false →
    Runs (.calRun u) s (fun d => d.cal = s.dev.cal ∧ d.get R.CAL_CMD F.CAL_CMD_result = 5) ∧
    Runs (.calStop u) s (fun d => d.cal = s.dev.cal ∧ d.get R.CAL_CMD F.CAL_CMD_result = 5)) ∧
  (∀ (s : State) (u : CalUnit) (x : CalRun), s.dev.hubUp = true → calValid u.val = true → calVco u.val = false →
    s.dev.calEnabled u.val = true → s.dev.calServes u.val = true → s.dev.calRun u.val = some x → Runs (.calStop u) s (fun d =>
      d.get R.CAL_CMD F.CAL_CMD_result = 1 ∧ d.get R.CAL_LAST F.CAL_LAST_outcome = 3 ∧ d.get R.CAL_LAST F.CAL_LAST_unit = u.val ∧
      d.evtStatus 59 = true ∧ d.get R.CAL_STAT F.CAL_STAT_runs = min (s.dev.get R.CAL_STAT F.CAL_STAT_runs + 1) F.CAL_STAT_runs.top ∧
      (s.dev.calMoved x.start (s.dev.calTemp u.val) = false → u.val ∉ s.dev.cal.waiting → d.calRun u.val = none))) ∧
  (∀ (s : State) (u : CalUnit) (t t0 : Nat), s.dev.hubUp = true → smFind s.dev.cal.retryAt u.val = some t0 → t0 ≤ xoOf s t →
    s.dev.calEnabled u.val = true → s.dev.calServes u.val = true → s.dev.calRun u.val = none → u.val ∉ s.dev.cal.waiting →
    (∀ v ∈ calGroup u.val, s.dev.calRun v = none) → Runs (.calRetryExpire u t) s (fun d =>
      (d.calRun u.val).isSome = true ∧ smFind d.cal.retryAt u.val = none)) ∧
  (∀ (s : State) (u : CalUnit) (x : CalRun) (fig : Int) (t : Nat), s.dev.hubUp = true → calFam u.val = 0 → calKind u.val ≤ 2 →
    s.dev.calRun u.val = some x → x.dir = 0 → x.steps < 64 → codeIn u.val (s.dev.codeOf u.val x.item + 1) = true →
    Runs (.calLiveStep u fig t) s (fun d => d.calRun u.val = some { x with fig := some fig, dir := 1, steps := x.steps + 1 } ∧
      d.codeOf u.val x.item = s.dev.codeOf u.val x.item + 1)) ∧
  (∀ (s : State) (u : CalUnit) (x : CalRun) (f fig : Int) (t : Nat), s.dev.hubUp = true → calFam u.val = 0 → calKind u.val ≤ 2 →
    s.dev.calRun u.val = some x → x.dir = 1 → x.fig = some f → calBetter u.val fig f = false →
    codeIn u.val (s.dev.codeOf u.val x.item - 1) = true → codeIn u.val (s.dev.codeOf u.val x.item - 2) = true → x.steps < 64 →
    Runs (.calLiveStep u fig t) s (fun d => d.calRun u.val = some { x with dir := 2, steps := x.steps + 1 } ∧
      d.codeOf u.val x.item = s.dev.codeOf u.val x.item - 2 ∧ d.get R.CAL_STAT F.CAL_STAT_reverted =
        min (s.dev.get R.CAL_STAT F.CAL_STAT_reverted + 1) F.CAL_STAT_reverted.top)) ∧
  (∀ (s : State) (u : CalUnit) (x : CalRun) (lo hi v : Int) (w h w' h' t : Nat), s.dev.hubUp = true → calFam u.val = 1 →
    s.dev.calRun u.val = some x → x.item < 5 → towardCentre lo hi (s.dev.dfe (u.val % 8) x.item) = some v → w ≤ w' → h ≤ h' →
    -32 ≤ v → v ≤ 31 → Runs (.calShadowStep u (.serdes lo hi w h w' h') t) s (fun d => d.dfe (u.val % 8) x.item = v ∧
      (d.calRun u.val).map (·.eye) = some (w', h'))) ∧
  (∀ (s : State) (u : CalUnit) (x : CalRun) (lo hi : Fin 256) (t : Nat) (v : Int), s.dev.hubUp = true → calFam u.val = 2 → u.val / 2 % 2 = 0 →
    s.dev.calRun u.val = some x → towardCentre lo.val hi.val ((s.dev.dqBit (32 * (u.val % 2) + x.item)).1 : Int) = some v →
    Runs (.calShadowStep u (.dram lo hi) t) s (fun d =>
      d.dqBit (32 * (u.val % 2) + x.item) = (v.toNat, spanPs lo.val hi.val, (s.dev.dqBit (32 * (u.val % 2) + x.item)).2.2))) ∧
  (∀ (s : State) (u t : Nat), s.dev.hubUp = true → u ∈ calUnits → s.dev.calEnabled u = true → s.dev.calServes u = true →
    s.dev.calTemp u = (none, none) → u ∉ s.dev.cal.blind → Runs (.calTick t) s (fun d => d.evtStatus 60 = true ∧ u ∈ d.cal.blind)) ∧
  (∀ (s : State) (u t : Nat) (old : CalTemps), s.dev.hubUp = true → u ∈ calUnits → s.dev.calEnabled u = true → s.dev.calServes u = true →
    smFind s.dev.cal.temps u = some old → s.dev.calMoved old (s.dev.calTemp u) = true → Runs (.calTick t) s (fun d =>
      (d.calRun u).isSome = true ∨ u ∈ d.cal.waiting)) ∧
  (∀ (s : State) (ch : ChanId) (b : Fin 32) (rt rw wt ww : Nat), s.dev.hubUp = true → s.dev.dqBit (32 * ch.val + b.val) = (rt, rw, wt, ww) →
    Runs (.calDramIdxWrite ch b) s (fun d => d.word R.CAL_DRAM_BIT = BitVec.ofNat 32 (ww * 2 ^ 24 + wt * 2 ^ 16 + rw * 2 ^ 8 + rt) ∧
      d.get R.CAL_DRAM_IDX F.CAL_DRAM_IDX_ch = ch.val ∧ d.get R.CAL_DRAM_IDX F.CAL_DRAM_IDX_bit = b.val ∧ d.cal = s.dev.cal))

/-- A command of the I2C transport has completed with a status, detail and data: its record waits to be read, and event 12 or 13 shows it. -/
def Sys2Proof.Answers (c : Cmd) (status detail : Nat) (data : Bytes) (d : Dev) : Prop :=
  (c.mgmt = false → ∃ r ∈ d.cmd.i2c, r.notif = false ∧ r.op = c.op ∧ r.tag = c.tag ∧ r.status = status ∧ r.detail = detail ∧ r.data = data) ∧
  d.evtStatus (if status = 0 then 12 else 13) = true

/-- The bytes that reads of the addresses give in order, where each read is made and none is refused or waits. -/
def Sys2Proof.readRun (d : Dev) : List Nat → Option (Dev × Bytes)
  | [] => some (d, [])
  | a :: as =>
    if d.accessStatus [a] ≠ 0 ∨ d.readWaits a = true then none
    else match d.busRead a with
      | (e, some w) => (readRun e as).map (fun p => (p.1, toLE 4 w.toNat ++ p.2))
      | (_, none) => none

/-- The device after writes made in order, where each is made and none is refused or waits. -/
def Sys2Proof.writeRun (d : Dev) : List (Nat × Word) → Option Dev
  | [] => some d
  | p :: ps =>
    if d.accessStatus [p.1] ≠ 0 ∨ d.writeWaits p.1 = true then none
    else match d.busWrite p.1 p.2 with
      | (e, true) => writeRun e ps
      | (_, false) => none

/-- The registers that completing a command touches. -/
def Sys2Proof.completionRegs : List Nat := [R.CMD_STAT, R.CFG_NVM] ++ evtCounts ++ evtStatuses

/-- READ, WRITE, TABLE_WRITE and WRITE_MASKED reach the registers they cover, and are refused whole where an address is (R423 to R425, R509). -/
def Obligations.RegistersAreReachedByCommand : Prop :=
  (∀ (s : State) (c : Cmd) (n : Nat) (e : Dev) (bs : Bytes), s.dev.hubUp = true → s.dev.cmd.busy = none → s.dev.headCmd = some c → c.op = 1 →
    s.dev.accessStatus c.covers = 0 → c.arg ≤ n → readRun s.dev c.covers = some (e, bs) →
    e.pwr.hubOn = true → Runs (.read n) s (Answers c 0 c.arg bs)) ∧
  (∀ (s : State) (c : Cmd) (n : Nat), s.dev.hubUp = true → s.dev.cmd.busy = none → s.dev.headCmd = some c → c.op = 1 → n ≠ 0 →
    s.dev.accessStatus c.covers = 2 → Runs (.read n) s (Answers c 2 0 (List.replicate (4 * c.arg) 0))) ∧
  (∀ (s : State) (c : Cmd) (n : Nat) (e : Dev), s.dev.hubUp = true → s.dev.cmd.busy = none → s.dev.headCmd = some c → c.op = 2 →
    s.dev.accessStatus c.covers = 0 → c.arg ≤ n → writeRun s.dev (c.covers.zip (wordsOf c.data)) = some e → e.pwr.hubOn = true →
    e.cmd.queue = [c] → Runs (.write n) s (fun d => Answers c 0 c.arg [] d ∧ ∀ a, c.mgmt = false → a ∉ completionRegs → d.word a = e.word a)) ∧
  (∀ (s : State) (c : Cmd) (n : Nat) (e : Dev), s.dev.hubUp = true → s.dev.cmd.busy = none → s.dev.headCmd = some c → c.op = 4 →
    s.dev.accessStatus c.covers = 0 → c.count ≤ n → writeRun s.dev (c.covers.zip (wordsOf c.data)) = some e → e.pwr.hubOn = true →
    e.cmd.queue = [c] → Runs (.tableWrite n) s (fun d => Answers c 0 c.n [] d ∧ ∀ a, c.mgmt = false → a ∉ completionRegs → d.word a = e.word a)) ∧
  (∀ (s : State) (c : Cmd) (n : Nat), s.dev.hubUp = true → s.dev.cmd.busy = none → s.dev.headCmd = some c → n ≠ 0 →
    s.dev.accessStatus c.covers ≠ 0 → (c.op = 2 → Runs (.write n) s (Answers c (s.dev.accessStatus c.covers) 0 [])) ∧
      (c.op = 4 → Runs (.tableWrite n) s (Answers c (s.dev.accessStatus c.covers) 0 []))) ∧
  (∀ (s : State) (c : Cmd) (e g : Dev) (old : Word), s.dev.hubUp = true → s.dev.cmd.busy = none → s.dev.headCmd = some c → c.op = 3 →
    s.dev.accessStatus [c.addr] = 0 → s.dev.readWaits c.addr = false → s.dev.writeWaits c.addr = false → s.dev.busRead c.addr = (e, some old) →
    e.busWrite c.addr ((old &&& ~~~(BitVec.ofNat 32 c.arg) &&& ~~~(actingBits c.addr)) ||| (BitVec.ofNat 32 (leAt c.data 0 4) &&&
      BitVec.ofNat 32 c.arg)) = (g, true) → g.pwr.hubOn = true → g.cmd.queue = [c] → Runs .writeMasked s (fun d => Answers c 0 0 [] d ∧
      ∀ a, c.mgmt = false → a ∉ completionRegs → d.word a = g.word a)) ∧
  (∀ (s : State) (c : Cmd), s.dev.hubUp = true → s.dev.cmd.busy = none → s.dev.headCmd = some c → c.op = 3 → s.dev.accessStatus [c.addr] ≠ 0 →
    Runs .writeMasked s (Answers c (s.dev.accessStatus [c.addr]) 0 []))

/-- R425: WRITE_MASKED reads the register and writes (old & ~mask) | (value & mask) in one command; in fields of access W1C, W1S, RWSC and WO old counts
as 0. -/
def Obligations.MaskedWritesMerge : Prop :=
  ∀ (s : State) (c : Cmd) (e g : Dev) (old mask value acting : Word), s.dev.hubUp = true → s.dev.cmd.busy = none → s.dev.headCmd = some c →
    c.op = 3 → s.dev.accessStatus [c.addr] = 0 → s.dev.readWaits c.addr = false → s.dev.writeWaits c.addr = false →
    s.dev.busRead c.addr = (e, some old) → mask = BitVec.ofNat 32 c.arg → value = BitVec.ofNat 32 (leAt c.data 0 4) →
    acting = accMask (fun x => x = .w1c || x = .w1s || x = .rwsc || x = .wo) c.addr →
    e.busWrite c.addr (((old &&& ~~~acting) &&& ~~~mask) ||| (value &&& mask)) = (g, true) → g.pwr.hubOn = true → g.cmd.queue = [c] →
    Runs .writeMasked s (fun d => Answers c 0 0 [] d ∧ ∀ a, c.mgmt = false → a ∉ completionRegs → d.word a = g.word a)

/-- STAGE fills a stage, ARM arms an action, STATUS answers, an ABORT stops what it targets, and a frame's completions leave together (R426, R428, R433,
R435). -/
def Obligations.CommandsStageArmAndAbort : Prop :=
  (∀ (s : State) (c : Cmd), s.dev.hubUp = true → s.dev.cmd.busy = none → s.dev.headCmd = some c → c.op = 5 →
    (∀ p ∈ c.pairs, s.dev.accessRefused p.1 = false) → (s.dev.stage c.addr).armed = false →
    (if c.arg.testBit 31 then [] else (s.dev.stage c.addr).pairs).length + c.pairs.length ≤ 256 → Runs .stage s (fun d =>
      Answers c 0 0 [] d ∧ (d.stage c.addr).pairs = (if c.arg.testBit 31 then [] else (s.dev.stage c.addr).pairs) ++ c.pairs)) ∧
  (∀ (s : State) (c : Cmd), s.dev.hubUp = true → s.dev.cmd.busy = none → s.dev.headCmd = some c → c.op = 5 →
    (∀ p ∈ c.pairs, s.dev.accessRefused p.1 = false) → (s.dev.stage c.addr).armed = true →
    Runs .stage s (fun d => Answers c 4 0 [] d ∧ d.stage c.addr = s.dev.stage c.addr)) ∧
  (∀ (s : State) (c : Cmd) (e : Dev), s.dev.hubUp = true → s.dev.cmd.busy = none → s.dev.headCmd = some c → c.op = 6 →
    e = ((((s.dev.rawWrite R.CLK_ACT_TIME_HI (BitVec.ofNat 32 (leAt c.data 0 4))).rawWrite R.CLK_ACT_TIME_LO
      (BitVec.ofNat 32 (leAt c.data 4 4))).rawWrite R.CLK_ACT_TIME_NS (BitVec.ofNat 32 (leAt c.data 8 4))).rawWrite R.CLK_ACT_SPEC
      (BitVec.ofNat 32 (leAt c.data 12 4))).actionArm → Runs .arm s (fun d => d.acts = e.acts ∧
      Answers c (if e.get R.CLK_ACT_RESULT F.CLK_ACT_RESULT_outcome = 5 then 4
        else if e.get R.CLK_ACT_RESULT F.CLK_ACT_RESULT_outcome = 6 then 3 else 0) (e.word R.CLK_ACT_RESULT).toNat [] d)) ∧
  (∀ (s : State) (c : Cmd), s.dev.hubUp = true → s.dev.cmd.busy = none → s.dev.headCmd = some c → c.op = 10 → Runs .status s
    (Answers c 0 s.dev.cmdStatus ([R.CFG_BOOT, R.CFG_SEQ_A, R.CFG_SEQ_B, R.CFG_STAGE_STAT].flatMap (fun a => toLE 4 (s.dev.hubView a))))) ∧
  (∀ (s : State) (c : Cmd), s.dev.hubUp = true → s.dev.cmd.busy = none → s.dev.headCmd = some c → c.op = 9 →
    Runs .abort s (Answers c c.outcome 0 [])) ∧
  (∀ (s : State) (bs : Bytes) (c x : Cmd), s.dev.portAnswers = true → bs ≠ [] → c = parseCmd false 0 bs → c.op = 9 → s.dev.cmdGate c = none →
    c.malformed = false → s.dev.cmd.queue = [x] → s.dev.cmd.busy = none → s.dev.heldRecs false < 32 → x.mgmt = false → x.op ≠ 9 →
    x.tag = c.addr → x.targeted = false → x.lost = false → Runs (.i2cWriteTransaction bs []) s (fun d =>
      d.cmd.queue = [{ c with outcome := 0 }] ∧ ∃ r ∈ d.cmd.i2c, r.op = x.op ∧ r.tag = x.tag ∧ r.status = 1 ∧ r.abortLate = false)) ∧
  (∀ (s : State) (c : Cmd) (r : MgmtReply), s.dev.hubUp = true → s.dev.cmd.busy = none → s.dev.headCmd = some c → c.op = 10 → c.mgmt = true →
    s.dev.cmd.queue = [c] → s.dev.cmd.replies = [r] → r.frame = c.frame → r.left = 1 → Runs .status s (fun d =>
      d.cmd.replies = [] ∧ d.cmd.own = s.dev.cmd.own + 1 ∧ d.cmd.queue = []))

/-- Commands and completions cross the I2C transport, one at a time, up to 32 (R426, R427, R429, R430, R477). -/
def Obligations.I2cCarriesCommands : Prop :=
  (∀ (s : State) (bs : Bytes) (c : Cmd), s.dev.portAnswers = true → bs ≠ [] → c = parseCmd false 0 bs → c.op ≠ 9 → s.dev.cmd.queue = [] →
    s.dev.preStatus c = none → Runs (.i2cWriteTransaction bs []) s (fun d => d.cmd.queue = [c])) ∧
  (∀ (s : State) (bs : Bytes) (c : Cmd) (st : Nat), s.dev.portAnswers = true → bs ≠ [] → c = parseCmd false 0 bs → c.op ≠ 9 →
    s.dev.cmd.queue = [] → s.dev.cmd.busy = none → s.dev.heldRecs false < 32 → s.dev.preStatus c = some st →
    Runs (.i2cWriteTransaction bs []) s (fun d => d.cmd.queue = [] ∧ ∃ r ∈ d.cmd.i2c, r.op = c.op ∧ r.tag = c.tag ∧ r.status = st)) ∧
  (∀ (s : State) (bs : Bytes), s.dev.portAnswers = true → 32 ≤ s.dev.cmd.queue.length →
    Runs (.i2cWriteTransaction bs []) s (fun d => d.cmd.queue = s.dev.cmd.queue)) ∧
  (∀ (s : State) (n : Nat) (r : CmdRec) (rest : List CmdRec), s.dev.portAnswers = true → s.dev.cmd.i2c = r :: rest → s.dev.cmd.queue = [] →
    s.dev.evt.pend = [] → Runs (.i2cReadTransaction n) s (fun d => d.cmd.i2cOut = padTo n r.bytes ∧
      d.cmd.i2c = if r.bytes.length ≤ n then rest else r :: rest)) ∧
  (∀ (s : State) (n : Nat), s.dev.portAnswers = true → s.dev.cmd.i2c = [] →
    Runs (.i2cReadTransaction n) s (fun d => d.cmd.i2cOut = List.replicate n 0)) ∧
  (∀ s : State, s.dev.portAnswers = true → Runs .i2cTimeout s (fun d => d.evtStatus 13 = true ∧ d.cmd.queue = s.dev.cmd.queue))

/-- Management frames are authenticated, their counter moves on and is logged; notifications leave in frames of their own (R431, R432, R474, R483). -/
def Obligations.ManagementFramesAreJudged : Prop :=
  (∀ (s : State) (f : MgmtFrame) (rest : List MgmtFrame), s.dev.hubUp = true → s.dev.mgmtIn = f :: rest →
    (f.body.length < 20 ∨ leAt f.body 0 4 ≠ 1) → Runs .mgmtFrameAuth s (fun d => d.mgmtIn = rest ∧ d.cmd.queue = s.dev.cmd.queue ∧
      d.cmd.replay = s.dev.cmd.replay ∧ d.evtStatus 14 = true ∧
      d.get R.CMD_AUTH F.CMD_AUTH_tag_fail = min (s.dev.get R.CMD_AUTH F.CMD_AUTH_tag_fail + 1) F.CMD_AUTH_tag_fail.top)) ∧
  (∀ (s : State) (f : MgmtFrame) (rest : List MgmtFrame), s.dev.hubUp = true → s.dev.mgmtIn = f :: rest → 20 ≤ f.body.length →
    leAt f.body 0 4 = 1 → (({ s.dev with mgmtIn := rest }).cmacOf (s.dev.get R.CMD_MGMT F.CMD_MGMT_key_slot)
      (f.body.take (f.body.length - 8))).2 = some (f.body.drop (f.body.length - 8)) → s.dev.cmd.logging = none →
    (s.dev.cmd.replay < leAt f.body 4 8 → Runs .mgmtFrameAuth s (fun d => d.mgmtIn = rest ∧ d.cmd.replay = leAt f.body 4 8 ∧
      d.cmd.nextFrame = s.dev.cmd.nextFrame + 1)) ∧
    (leAt f.body 4 8 ≤ s.dev.cmd.replay → Runs .mgmtFrameAuth s (fun d => d.mgmtIn = rest ∧ d.cmd.replay = s.dev.cmd.replay ∧
      d.evtStatus 14 = true ∧ d.cmd.queue = s.dev.cmd.queue))) ∧
  (∀ (s : State) (v : Nat), s.dev.hubUp = true → s.dev.cmd.logging = some v → Runs .replayLogDone s (fun d =>
    d.cmd.logNo = s.dev.cmd.logNo + 1 ∧ d.flashBytes (logSlot (s.dev.cmd.logNo + 1)) 16 = logBytes v (s.dev.cmd.logNo + 1))) ∧
  (∀ s : State, s.dev.hubUp = true → s.dev.evt.pend = [] → s.dev.flag R.CMD_MGMT F.CMD_MGMT_mgmt_en = false → Runs .notifyFrameSend s (fun d =>
    d.evt.mgmtOut = [] ∧ d.queues = s.dev.queues ∧ d.get R.EVT_NOTIFY F.EVT_NOTIFY_mgmt_dropped =
      min (s.dev.get R.EVT_NOTIFY F.EVT_NOTIFY_mgmt_dropped + s.dev.evt.mgmtOut.length) F.EVT_NOTIFY_mgmt_dropped.top)) ∧
  (∀ (s : State) (e : Dev) (body : Bytes), s.dev.hubUp = true → s.dev.flag R.CMD_MGMT F.CMD_MGMT_mgmt_en = true → s.dev.evt.mgmtOut ≠ [] →
    s.dev.evt.mgmtOut.length ≤ 32 → (s.dev.template (s.dev.get R.EVT_NOTIFY F.EVT_NOTIFY_tmpl)).getD 0 0 / 2 ^ 28 < 8 →
    ({ s.dev with evt := { s.dev.evt with mgmtOut := [] } }).ownFrame (s.dev.evt.mgmtOut.flatMap (fun (p : Nat × LogRec) =>
      CmdRec.bytes ⟨true, 64, 0, p.1, false, false, p.2.seq, p.2.bytes⟩)) = (e, some body) → Runs .notifyFrameSend s (fun d =>
      d.queues = (e.sendWords (s.dev.template (s.dev.get R.EVT_NOTIFY F.EVT_NOTIFY_tmpl)) none body).queues ∧
      d.cmd.own = s.dev.cmd.own + 1))

/-- The phases of NVM_WRITE: the copy not in force is erased, programmed, checked and closed (R434). -/
def Obligations.NvmWriteHasPhases : Prop :=
  (∀ (s : State) (c : Cmd), s.dev.hubUp = true → s.dev.cmd.busy = none → s.dev.headCmd = some c → c.op = 7 → c.arg = 0 →
    Runs .nvmWriteOpen s (fun d => d.cmd.busy = some .nvmOpen ∧ d.nvmCopy = (if s.dev.boot.inForce = some 0 then 1 else 0) ∧
      (∀ i, i < copySize → smGet (fun _ => 0xFF) d.flash (copyBase d.nvmCopy + i) = 0xFF) ∧
      ∀ a, (a < copyBase d.nvmCopy ∨ copyBase d.nvmCopy + copySize ≤ a) →
        smGet (fun _ => (0xFF : Byte)) d.flash a = smGet (fun _ => 0xFF) s.dev.flash a)) ∧
  (∀ (s : State) (c : Cmd), s.dev.hubUp = true → s.dev.cmd.busy = none → s.dev.headCmd = some c → c.op = 7 → c.arg = 1 →
    (s.dev.nvmOpenNow = true → Runs .nvmWriteData s (fun d => d.cmd.busy = some .nvmData ∧ d.flash = s.dev.flash)) ∧
    (s.dev.nvmOpenNow = false → Runs .nvmWriteData s (fun d => Answers c 4 0 [] d ∧ d.flash = s.dev.flash))) ∧
  (∀ (s : State) (c : Cmd), s.dev.hubUp = true → s.dev.cmd.busy = none → s.dev.headCmd = some c → c.op = 7 → c.arg = 2 → s.dev.nvmOpenNow = true →
    s.dev.boot.phase = .run → s.dev.boot.inForce = some (1 - s.dev.nvmCopy) →
    (newer c.addr (headSeq (s.dev.header (1 - s.dev.nvmCopy))) = false → Runs .nvmWriteClose s (Answers c 3 0 [])) ∧
    (newer c.addr (headSeq (s.dev.header (1 - s.dev.nvmCopy))) = true →
      headFixed (s.dev.header s.dev.nvmCopy) = true → headLen (s.dev.header s.dev.nvmCopy) = true → s.dev.bodyCause s.dev.nvmCopy = 0 →
      Runs .nvmWriteClose s (fun d => d.cmd.busy = some .nvmClose ∧ d.flash = s.dev.flash)) ∧
    (newer c.addr (headSeq (s.dev.header (1 - s.dev.nvmCopy))) = true → s.dev.crcOk s.dev.nvmCopy = false →
      Runs .nvmWriteClose s (fun d => Answers c 6 0 [] d ∧ d.nvmOpenNow = false))) ∧
  (∀ (s : State) (c : Cmd), s.dev.hubUp = true → s.dev.cmd.queue = [c] → c.op = 7 → c.lost = false →
    (s.dev.cmd.busy = some .nvmOpen → Runs (.nvmPhaseDone true) s (fun d => Answers c 0 0 [] d ∧ d.nvmOpenNow = true)) ∧
    (s.dev.cmd.busy = some .nvmData → Runs (.nvmPhaseDone true) s (fun d => Answers c 0 0 [] d ∧
      d.flashBytes (copyBase s.dev.nvmCopy + c.addr) c.data.length = c.data)) ∧
    (s.dev.cmd.busy = some .nvmClose → Runs (.nvmPhaseDone true) s (fun d => Answers c 0 0 [] d ∧ d.evtStatus 15 = true ∧
      d.get R.CFG_NVM F.CFG_NVM_phase = 2 ∧ d.word (if s.dev.nvmCopy = 0 then R.CFG_SEQ_A else R.CFG_SEQ_B) = BitVec.ofNat 32 c.addr ∧
      d.flashBytes (copyBase s.dev.nvmCopy + 4) 4 = toLE 4 c.addr)) ∧
    ((s.dev.cmd.busy = some .nvmOpen ∨ s.dev.cmd.busy = some .nvmData ∨ s.dev.cmd.busy = some .nvmClose) →
      Runs (.nvmPhaseDone false) s (fun d => Answers c 6 0 [] d ∧ d.get R.CFG_NVM F.CFG_NVM_phase = 0 ∧ d.flash = s.dev.flash)))

/-- R418: which of two copies is newer, and that copy A counts as newer where neither is. -/
def Obligations.TheNewerCopyComesFirst : Prop :=
  (∀ x y : BitVec 32, newer x.toNat y.toNat = true ↔ 1 ≤ (x - y).toNat ∧ (x - y).toNat ≤ 2 ^ 31 - 1) ∧
  (∀ d : Dev, headCause (d.header 0) = 0 → headCause (d.header 1) = 0 →
    d.goodHeads = if newer (headSeq (d.header 1)) (headSeq (d.header 0)) then [1, 0] else [0, 1]) ∧
  newer 0x00000001 0xFFFFFFFE = true

/-- Boot applies the newer valid copy, waits at a POLL, and ends in RUN or in BOOT_FAIL (R417 to R422). -/
def Obligations.BootEndsInRunOrBootFail : Prop :=
  (∀ (s : State) (x : Nat) (rest : List Nat), s.dev.hubUp = true → s.dev.boot.phase = .idle → s.dev.goodHeads = x :: rest → s.dev.bodyCause x = 0 →
    (takeRec (wordsOf (s.dev.copyBody x))).map (·.1) = some .finish → s.dev.cmd.queue = [] → Runs (.bootStart []) s (fun d =>
      d.boot.phase = .run ∧ d.boot.inForce = some x ∧ d.get R.CFG_BOOT F.CFG_BOOT_copy = x ∧ d.pwr.mode = .run ∧ d.pwr.jack = false ∧
      d.evtStatus 8 = true ∧ d.evtStatus 4 = true ∧ d.get R.EVT_RST_CAUSE F.EVT_RST_CAUSE_cause = s.dev.pwr.cause % 16)) ∧
  (∀ s : State, s.dev.hubUp = true → s.dev.boot.phase = .idle → s.dev.goodHeads = [] → Runs (.bootStart []) s (fun d =>
    d.boot.phase = .fail ∧ d.boot.inForce = none ∧ d.get R.CFG_BOOT F.CFG_BOOT_copy = 3 ∧ d.evtStatus 63 = true ∧ d.evtStatus 9 = true ∧
    d.pins.alarm = true)) ∧
  (∀ (s : State) (e : Dev) (t a m v : Nat), s.dev.hubUp = true → s.dev.boot.phase = .applying → s.dev.boot.poll = some (a, m, v) →
    (s.dev.at_ t).pollMet a m v = (e, true) → e.boot = s.dev.boot → e.pwr = s.dev.pwr →
    (takeRec s.dev.boot.rest).map (·.1) = some .finish → Runs (.bootPollMet t) s (fun d =>
      d.boot.phase = .run ∧ d.boot.inForce = some s.dev.boot.cur ∧ d.boot.poll = none ∧ d.evtStatus 8 = true)) ∧
  (∀ (s : State) (t a m v : Nat) (e : Dev), s.dev.hubUp = true → s.dev.boot.phase = .applying → s.dev.boot.poll = some (a, m, v) →
    (s.dev.at_ t).pollMet a m v = (e, false) → Runs (.bootPollMet t) s (fun d => d.boot = s.dev.boot)) ∧
  (∀ (s : State) (t : Nat) (p : Nat × Nat × Nat), s.dev.hubUp = true → s.dev.boot.phase = .applying → s.dev.boot.poll = some p →
    s.dev.boot.others = [] → s.dev.boot.pollBy ≤ xoOf s t → Runs (.bootPollTimeout t) s (fun d =>
      d.boot.phase = .fail ∧ d.get R.CFG_BOOT F.CFG_BOOT_copy = 3 ∧ d.get R.CFG_BOOT (causeFld s.dev.boot.cur) = 9 ∧
      d.flag R.CFG_BOOT F.CFG_BOOT_fallback = true ∧ d.evtStatus 9 = true ∧ d.evtStatus 63 = true)) ∧
  (∀ (s : State) (t : Nat) (p : Nat × Nat × Nat), s.dev.hubUp = true → s.dev.boot.phase = .applying → s.dev.boot.poll = some p →
    xoOf s t < s.dev.boot.pollBy → Runs (.bootPollTimeout t) s (fun d => d.boot = s.dev.boot))

/-- POWER puts the device into VIGIL or DORMANT and one domain off or on (R438 to R444). -/
def Obligations.PowerStatesAreEntered : Prop :=
  (∀ (s : State) (c : Cmd) (t : Nat), s.dev.hubUp = true → s.dev.cmd.busy = none → s.dev.headCmd = some c → c.op = 8 → c.addr = 0 → c.arg = 1 →
    s.dev.basebandsOn ≠ [] → Runs (.powerEnterVigil t) s (fun d => d.pwr.entry = some ⟨false, true⟩ ∧ d.pwr.jack = true ∧ d.cmd.queue = [] ∧
      (∀ b ∈ s.dev.basebandsOn, d.dom b = 2) ∧ d.evtStatus 12 = true)) ∧
  (∀ (s : State) (c : Cmd) (t : Nat), s.dev.hubUp = true → s.dev.cmd.busy = none → s.dev.headCmd = some c → c.op = 8 → c.addr = 0 → c.arg = 1 →
    (∀ k, 2 ≤ k → k ≤ 6 → s.dev.dom k = 0) → Runs (.powerEnterVigil t) s (fun d => d.pwr.mode = .vigil ∧ d.pwr.entry = none ∧ d.pwr.jack = true ∧
      d.dom 7 = 0 ∧ d.dom 8 = 0 ∧ d.evtStatus 0 = true ∧ d.pwr.mgmtMac = s.dev.get R.PWR_CTRL F.PWR_CTRL_mgmt_mac)) ∧
  (∀ (s : State) (c : Cmd) (t : Nat), s.dev.hubUp = true → s.dev.cmd.busy = none → s.dev.headCmd = some c → c.op = 8 → c.addr = 0 → c.arg = 2 →
    (s.dev.fullRun = true → s.dev.basebandsOn ≠ [] → Runs (.powerEnterDormant t) s (fun d => d.pwr.entry = some ⟨true, true⟩ ∧ d.pwr.jack = true ∧
      d.cmd.queue = [] ∧ ∀ b ∈ s.dev.basebandsOn, d.dom b = 2)) ∧
    (s.dev.pwr.mode = .vigil → s.dev.pwr.entry = none → s.dev.pwr.wake = none → Runs (.powerEnterDormant t) s (fun d =>
      d.pwr.entry = some ⟨true, false⟩ ∧ d.pwr.jack = true ∧ d.dom 8 = 2 ∧ d.cmd.queue = []))) ∧
  (∀ (s : State) (c : Cmd) (t : Nat), s.dev.hubUp = true → s.dev.cmd.busy = none → s.dev.headCmd = some c → c.op = 8 → c.addr = 1 →
    c.arg.testBit 8 = false →
    (s.dev.present (dieOfDom (c.arg % 16)) = true → s.dev.dom (c.arg % 16) ≠ 0 → s.dev.basebandsOn ≠ [c.arg % 16] →
      Runs (.powerDomainOff t) s (fun d => d.dom (c.arg % 16) = 2 ∧ d.cmd.busy = some (.domain (c.arg % 16) false))) ∧
    (s.dev.present (dieOfDom (c.arg % 16)) = false → Runs (.powerDomainOff t) s (Answers c 2 0 [])) ∧
    (s.dev.present (dieOfDom (c.arg % 16)) = true → s.dev.dom (c.arg % 16) ≠ 0 → s.dev.basebandsOn = [c.arg % 16] →
      Runs (.powerDomainOff t) s (fun d => Answers c 4 0 [] d ∧ d.dom (c.arg % 16) = s.dev.dom (c.arg % 16)))) ∧
  (∀ (s : State) (c : Cmd) (t : Nat), s.dev.hubUp = true → s.dev.cmd.busy = none → s.dev.headCmd = some c → c.op = 8 → c.addr = 1 →
    c.arg.testBit 8 = true → s.dev.present (dieOfDom (c.arg % 16)) = true →
    (s.dev.dom (c.arg % 16) = 0 → Runs (.powerDomainOn t) s (fun d => d.dom (c.arg % 16) = 3 ∧
      d.cmd.busy = some (.domain (c.arg % 16) true))) ∧
    (s.dev.dom (c.arg % 16) ≠ 0 → Runs (.powerDomainOn t) s (fun d => Answers c 0 0 [] d ∧ d.dom (c.arg % 16) = s.dev.dom (c.arg % 16)))) ∧
  (∀ (s : State) (k : Fin 9) (u : Bool) (t : Nat) (c : Cmd) (q : List Cmd), s.dev.hubUp = true → 2 ≤ k.val → k.val ≤ 6 → s.dev.dom k.val = 2 →
    s.dev.cmd.queue = c :: q → s.dev.cmd.busy = some (.domain k.val false) → c.lost = false → Runs (.drainEnd k u t) s (fun d =>
      d.dom k.val = 0 ∧ Answers c 0 0 [] d ∧ (u = true → d.evtStatus 3 = true ∧ d.get R.PWR_STAT F.PWR_STAT_drain_timeouts =
        min (s.dev.get R.PWR_STAT F.PWR_STAT_drain_timeouts + 1) F.PWR_STAT_drain_timeouts.top))) ∧
  (∀ (s : State) (u : Bool) (t : Nat), s.dev.hubUp = true → s.dev.dom 8 = 2 → Runs (.drainEnd 8 u t) s (fun d =>
    d.pwr.mode = .dormant ∧ d.pwr.entry = none ∧ d.pwr.hubOn = false ∧ d.pwr.jack = true ∧ d.rtc.now = s.dev.rtc.now)) ∧
  (∀ (s : State) (k : Fin 9) (t cause : Nat) (c : Cmd) (q : List Cmd) (e : Dev), s.dev.hubUp = true → 2 ≤ k.val → k.val ≤ 6 →
    s.dev.dom k.val = 3 → s.dev.cmd.queue = c :: q → s.dev.cmd.busy = some (.domain k.val true) → c.lost = false →
    ((s.dev.at_ t).dieReset (dieOfDom k.val)).reapply (dieOfDom k.val) = (e, cause) → e.cmd = s.dev.cmd → e.pwr = s.dev.pwr →
    Runs (.domainPowerUpDone k t) s (fun d => (cause = 0 → d.dom k.val = 1 ∧ Answers c 0 0 [] d) ∧
      (cause ≠ 0 → d.dom k.val = 0 ∧ Answers c 6 0 [] d ∧ d.evtStatus 9 = true)))

/-- R446: a wake that arrives during an entry leaves the entry as it is; the entry's end starts the wake at once; a wake during a wake does nothing. -/
def Obligations.AWakeWaitsForAnEntry : Prop :=
  (∀ (s : State) (e : PwrEntry), s.dev.jackAnswers = true → s.dev.pwr.entry = some e → s.dev.evt.pend = [] → Runs .jackWriteMatch s (fun d =>
    d.pwr = { s.dev.pwr with wakePending := true } ∧ d.regs = s.dev.regs)) ∧
  (∀ (s : State) (e : PwrEntry) (k : Fin 9) (u : Bool) (t : Nat), s.dev.hubUp = true → s.dev.pwr.entry = some e → s.dev.pwr.wakePending = true →
    (k = 8 → e.dormant = true) → Runs (.drainEnd k u t) s (fun d => d.pwr.entry = none →
      d.pwr.mode = (if e.dormant then .dormant else .vigil) ∧ d.pwr.wake = some ⟨if e.dormant then 1 else 4, 0, if e.dormant then 2 else 1⟩)) ∧
  (∀ (s : State) (w : Wake), s.dev.jackAnswers = true → s.dev.pwr.wake = some w → s.dev.pwr.wakePending = true → s.dev.evt.pend = [] →
    Runs .jackWriteMatch s (fun d => d.pwr = s.dev.pwr ∧ d.regs = s.dev.regs ∧ d.cmd = s.dev.cmd))

/-- Jack wakes the device, the stages of a wake run in order with their retries, and its status byte says so (R445 to R449). -/
def Obligations.WakesRunInStages : Prop :=
  (∀ s : State, s.dev.jackAnswers = true → s.dev.pwr.entry = none → s.dev.pwr.wake = none → Runs .jackWriteMatch s (fun d =>
    d.pwr.wakePending = true ∧ d.pwr.wake = some ⟨if s.dev.pwr.mode = .vigil then 4 else 1, 0, match s.dev.pwr.mode with
      | .vigil => 1 | .dormant => 2 | _ => 3⟩)) ∧
  (∀ s : State, s.dev.jackAnswers = true → Runs .jackRead s (fun d => ∃ b : Nat, d.rdata = BitVec.ofNat 32 b ∧ b < 256 ∧ b % 2 = 1 ∧
    b / 64 = (match s.dev.pwr.mode with | .run => 0 | .vigil => 1 | .dormant => 2 | .wakeFail => 3) ∧
    b / 32 % 2 = bitOf s.dev.pwr.entry.isSome ∧ b / 16 % 2 = bitOf s.dev.pwr.wake.isSome ∧ b / 4 % 4 = s.dev.pwr.failStage % 4 ∧
    b / 2 % 2 = bitOf s.dev.pwr.wakePending)) ∧
  (∀ (s : State) (w : Wake) (t : Nat), s.dev.pwr.aoOn = true → s.dev.pwr.wake = some w → w.stage < 4 → Runs (.wakeStageReady t) s (fun d =>
    d.pwr.wake = some ⟨w.stage + 1, 0, w.from_⟩ ∧ d.pwr.hubOn = s.dev.pwr.hubOn)) ∧
  (∀ (s : State) (w : Wake) (t : Nat), s.dev.pwr.aoOn = true → s.dev.pwr.wake = some w → w.stage = 4 → w.from_ ≠ 1 →
    Runs (.wakeStageReady t) s (fun d => d.pwr.hubOn = true ∧ d.pwr.cause = 4 ∧ d.boot = Boot.reset ∧ d.pwr.wake = some ⟨5, 0, w.from_⟩)) ∧
  (∀ (s : State) (w : Wake) (t : Nat), s.dev.pwr.aoOn = true → s.dev.pwr.wake = some w → w.stage = 4 → w.from_ = 1 →
    (s.dev.pwr.vigilOff = [] → s.dev.pwr.hubOn = true → Runs (.wakeStageReady t) s (fun d => d.pwr.mode = .run ∧ d.pwr.wake = none ∧
      d.pwr.jack = false ∧ d.dom 7 = 1 ∧ d.dom 8 = 1 ∧ d.evtStatus 1 = true)) ∧
    (s.dev.pwr.vigilOff ≠ [] → Runs (.wakeStageReady t) s (fun d => (∀ k ∈ s.dev.pwr.vigilOff, d.dom k = 3) ∧
      d.pwr.wake = some ⟨5, 0, 1⟩))) ∧
  (∀ (s : State) (w : Wake) (t : Nat), s.dev.pwr.aoOn = true → s.dev.pwr.wake = some w → w.stage < 5 → w.timeouts < 3 →
    Runs (.wakeStageTimeout t) s (fun d => d.pwr.wake = some ⟨w.stage, w.timeouts + 1, w.from_⟩ ∧
      d.get R.PWR_STAT F.PWR_STAT_retries = min (s.dev.get R.PWR_STAT F.PWR_STAT_retries + 1) F.PWR_STAT_retries.top)) ∧
  (∀ (s : State) (w : Wake) (t : Nat), s.dev.pwr.aoOn = true → s.dev.pwr.wake = some w → w.stage < 5 → 3 ≤ w.timeouts →
    Runs (.wakeStageTimeout t) s (fun d => d.pwr.mode = .wakeFail ∧ d.pwr.wake = none ∧ d.pwr.hubOn = false ∧ d.pwr.failStage = w.stage % 4 ∧
      d.pins.alarm = true ∧ d.rtc.now = s.dev.rtc.now)) ∧
  (∀ s : State, s.dev.hubUp = true → Runs .aoFailClear s (fun d => d.pwr.failStage = 0 ∧
    d.flag R.PWR_AO_STATUS F.PWR_AO_STATUS_fail_seen = false))

/-- The registry's operations and their outcomes (R205, R206, R220, R370). -/
def Obligations.RegistryCommands : Prop :=
  (∀ (s : State) (addr : Nat), s.dev.hubUp = true → leAt s.dev.regBuf 0 4 = addr → s.dev.regEntry addr = none →
    (s.dev.sched.registry.length < 2097152 → s.dev.memUp = true → addr ≠ 0 → addr ≠ 0xFFFFFFFF → byteAt s.dev.regBuf 168 ≤ 1 →
      Runs .provision s (fun d => d.get R.SCH_REG_CMD F.SCH_REG_CMD_result = 1 ∧ d.flag R.SCH_REG_CMD F.SCH_REG_CMD_go = false ∧
        ∃ e, d.regEntry addr = some e ∧ e.size = byteAt s.dev.regBuf 168 ∧
          e.key = sliceB s.dev.regBuf 128 (if byteAt s.dev.regBuf 168 = 1 then 40 else 24) ∧ e.joinCount = 0)) ∧
    (2097152 ≤ s.dev.sched.registry.length ∨ s.dev.memUp = false → Runs .provision s (fun d =>
      d.get R.SCH_REG_CMD F.SCH_REG_CMD_result = 2 ∧ d.sched = s.dev.sched)) ∧
    (Runs .registryRead s (fun d => d.get R.SCH_REG_CMD F.SCH_REG_CMD_result = 4 ∧ d.sched = s.dev.sched)) ∧
    (Runs .delete s (fun d => d.get R.SCH_REG_CMD F.SCH_REG_CMD_result = 4 ∧ d.sched = s.dev.sched))) ∧
  (∀ (s : State) (addr : Nat) (e : RegEntry), s.dev.memUp = true → leAt s.dev.regBuf 0 4 = addr → s.dev.regEntry addr = some e →
    (s.dev.sched.registry.length < 2097152 → Runs .provision s (fun d =>
      d.get R.SCH_REG_CMD F.SCH_REG_CMD_result = 3 ∧ d.sched = s.dev.sched)) ∧
    (s.dev.ctxOf addr = none → e.image = [] → Runs .registryRead s (fun d =>
      d.get R.SCH_REG_CMD F.SCH_REG_CMD_result = 1 ∧ d.word (R.SCH_REG_BUF 0) = BitVec.ofNat 32 addr ∧
      ∀ k, k < 10 → d.word (R.SCH_REG_BUF (32 + k)) = BitVec.ofNat 32 (leAt (padTo 40 e.key) (4 * k) 4))) ∧
    (s.dev.ctxOf addr = none → Runs .delete s (fun d => d.get R.SCH_REG_CMD F.SCH_REG_CMD_result = 1 ∧ d.regEntry addr = none ∧
      ∀ p ∈ d.cip.slots, 256 ≤ p.1 → p.2.owner ≠ addr))) ∧
  (∀ (s : State) (addr i : Nat) (e : RegEntry) (x : Ctx), s.dev.memUp = true → leAt s.dev.regBuf 0 4 = addr → s.dev.regEntry addr = some e →
    s.dev.ctxOf addr = some (i, x) →
    ((s.dev.flow i).inService = false → Runs .delete s (fun d => d.get R.SCH_REG_CMD F.SCH_REG_CMD_result = 1 ∧ d.regEntry addr = none ∧
      d.ctx i = none ∧ ∀ p ∈ d.cip.slots, 256 ≤ p.1 → p.2.owner ≠ addr)) ∧
    ((s.dev.flow i).inService = true → Runs .delete s (fun d => d.get R.SCH_REG_CMD F.SCH_REG_CMD_result = 5 ∧ d.sched = s.dev.sched)) ∧
    Runs .registryRead s (fun d => d.get R.SCH_REG_CMD F.SCH_REG_CMD_result = 1 ∧ d.sched = s.dev.sched ∧
      ∀ k, 4 * k + 4 ≤ (s.dev.ctxBytes i x).length → k < 64 →
        d.word (R.SCH_REG_BUF k) = BitVec.ofNat 32 (leAt (s.dev.ctxBytes i x) (4 * k) 4)))

/-- The node commands and their outcomes (R229, R230). -/
def Obligations.NodeCommands : Prop :=
  (∀ (s : State) (b : Bool) (m : Fin 8) (p : Fin 16), s.dev.hubUp = true → s.dev.ctxOf (s.dev.word R.SCH_NODE_ADDR).toNat = none →
    ∀ c ∈ [Instr.release, .pilotHold b, .revoke, .replace m p], Runs c s (fun d =>
      d.get R.SCH_NODE_CMD F.SCH_NODE_CMD_result = 2 ∧ d.flag R.SCH_NODE_CMD F.SCH_NODE_CMD_go = false ∧ d.sched = s.dev.sched)) ∧
  (∀ (s : State) (i : Nat) (x : Ctx), s.dev.hubUp = true → s.dev.ctxOf (s.dev.word R.SCH_NODE_ADDR).toNat = some (i, x) → s.dev.ctx i = some x →
    ((s.dev.flow i).inService = false → Runs .release s (fun d => d.get R.SCH_NODE_CMD F.SCH_NODE_CMD_result = 1 ∧ d.ctx i = none ∧
      ∀ e, s.dev.regEntry x.address = some e → ∃ e', d.regEntry x.address = some e' ∧ e'.key = e.key ∧
        e'.image = x.bytes (s.dev.flow i) false)) ∧
    ((s.dev.flow i).inService = true → ∀ (m : Fin 8) (p : Fin 16), ∀ c ∈ [Instr.release, .replace m p], Runs c s (fun d =>
      d.get R.SCH_NODE_CMD F.SCH_NODE_CMD_result = 4 ∧ d.sched = s.dev.sched)) ∧
    (∀ hold : Bool, Runs (.pilotHold hold) s (fun d => d.get R.SCH_NODE_CMD F.SCH_NODE_CMD_result = 1 ∧
      ∃ y, d.ctx i = some y ∧ y.pilotHold = hold ∧ y.address = x.address ∧ (hold = false ∨ x.pilot = true → y.ctl = x.ctl))) ∧
    (x.ctl.length ≤ 23 → Runs .revoke s (fun d => d.get R.SCH_NODE_CMD F.SCH_NODE_CMD_result = 1 ∧ ∃ y, d.ctx i = some y ∧
      ∀ dl, x.latest dl ≠ [] → ∃ e ∈ y.ctl, e.grant = revokeEntry dl)) ∧
    (∀ (m : Fin 8) (p : Fin 16) (a g : Grant), (s.dev.flow i).inService = false → x.ctl.length ≤ 20 →
      s.dev.findUplink (s.dev.reservations x.address) x m.val (s.dev.periodOf (2 ^ p.val)) (superOf s.dev.nt + 1) (m.val == 0 || x.pilot) =
        some (a, Grant.none) →
      s.dev.findDownlink (s.dev.reservations x.address ++ ([a, Grant.none].filter (fun g => g.radio != 3)).map (fun g =>
        s.dev.ulResv x g (superOf s.dev.nt + 1) g.period)) x m.val (superOf s.dev.nt + 1) = some g →
      a.radio ≠ 3 → a.dl = false → g.dl = true → Runs (.replace m p) s (fun d => d.get R.SCH_NODE_CMD F.SCH_NODE_CMD_result = 1 ∧
        ∃ y, d.ctx i = some y ∧ (∃ e ∈ y.ctl, e.grant = a) ∧ ∃ e ∈ y.ctl, e.grant = g)) ∧
    (∀ (m : Fin 8) (p : Fin 16), (s.dev.flow i).inService = false → s.dev.findUplink (s.dev.reservations x.address) x m.val
      (s.dev.periodOf (2 ^ p.val)) (superOf s.dev.nt + 1) (m.val == 0 || x.pilot) = none → Runs (.replace m p) s (fun d =>
        d.get R.SCH_NODE_CMD F.SCH_NODE_CMD_result = 3 ∧ d.sched = s.dev.sched)))

/-- Whatever state a command reaches, it leaves all but what the lists name. -/
def Sys2Proof.Leaves (c : Instr) (parts : List Part) (regs events : List Nat) : Prop :=
  ∀ s t : State, exec c s = .next t → Frame parts regs events s.dev t.dev

/-- Reads of single registers change the word they return and the latch they set or end, and nothing else (R40, R52, R364, R452, R487, R493). -/
def Obligations.ReadsLeaveTheRest : Prop :=
  ∀ (n : MacId) (k : Fin 64) (m : Fin 32) (t : Nat),
    Leaves .clkNtSecHiRead [.rdata, .clk] [] [] ∧ Leaves .clkSlotRead [.rdata, .clk] [] [] ∧
    Leaves (.clkSnapshotTimeout t) [.nt, .xo, .clk] [] [] ∧
    Leaves (.evtLogRec0Read []) [.rdata, .evtSelf] [] [] ∧ Leaves .evtLogRec3Read [.rdata, .evtSelf] [] [] ∧
    Leaves (.monStatusRead m) [.rdata, .mons] [] [] ∧ Leaves (.monHist31Read m) [.rdata, .mons] [] [] ∧
    Leaves (.monLatchTimeout m t) [.nt, .xo, .mons] [] [] ∧
    Leaves (.macCntHiRead n k) [.rdata, .macs] [] [] ∧ Leaves (.macCntLoRead n k) [.rdata, .macs] [] [] ∧
    Leaves (.macPtpTxSecHiRead n) [.rdata, .macs] [] [] ∧ Leaves (.macPtpTxIdRead n) [.rdata, .macs] [] [] ∧
    Leaves (.shpVtHiRead n) [.rdata, .ports] [] [] ∧ Leaves .rtcSecRead [.rdata, .rtc] [] [] ∧ Leaves .rtcYearRead [.rdata, .rtc] [] [] ∧
    Leaves (.rtcSnapshotTimeout t) [.nt, .xo, .rtc] [] [] ∧ Leaves .jackRead [.rdata] [] []

/-- What flits, retraining, pads, monitors' settings, the RTC's and the power block's registers leave (R13 to R24, R447, R452, R455, R460, R490, R505). -/
def Obligations.PlatformFrames : Prop :=
  ∀ (n : LinkId) (k : Dir) (ty : Fin 16) (bs : Bytes) (lane : Option Lane) (p : Fin 24) (v : Option Bool) (f : RtcField) (x t : Nat) (w : Word)
    (a : Fin 2) (g : AlarmReg) (m : Fin 32) (win : Bool),
    Leaves (.flitSend n k ty bs) [.links] [] [] ∧ Leaves (.flitReceive n k bs lane) [.links] [R.LNK_ERRORS n.val] [] ∧
    Leaves (.linkRetrain n) [.links] [] [] ∧ Leaves (.gpioInputChange p v) [.pads] [] [] ∧
    Leaves (.monCfgWrite m win w) [.mons] [if win then R.MON_WIN m.val else R.MON_CFG m.val] [] ∧
    Leaves (.rtcFieldStage f x) [.rtc] [] [] ∧ Leaves .rtcNtSet [] [R.RTC_CTRL] [] ∧ Leaves (.rtcLeapWrite w) [] [R.RTC_LEAP] [] ∧
    Leaves (.rtcAlarmWrite a g w) [] [match g with | .time => R.RTC_ALM_TIME a.val | .date => R.RTC_ALM_DATE a.val | .ctrl => R.RTC_ALM_CTRL a.val] [] ∧
    Leaves .clkTodLoad [] [R.CLK_TOD_CTRL] [] ∧ Leaves (.ppsOutRise t) [.nt, .xo, .clk] [] [] ∧ Leaves .aoFailClear [.pwr] [R.PWR_AO_STATUS] [] ∧
    Leaves .jackWriteMatch [.pwr] [] [] ∧ Leaves .i2cTimeout [] [] [13] ∧ Leaves (.brownOutEnd) [.nt, .pwr] [R.EVT_RST_CAUSE] []

/-- What the commands on a radio leave: the other blocks, and the registers of the other radios (R109, R111, R118, R129, R133, R140, R149, R151, R157,
R158, R165). -/
def Obligations.RadioFrames : Prop :=
  ∀ (r : RadioId) (fc w : Word) (t last ms : Nat) (x0 x1 : List IQ) (c0 c1 : Nat) (h : Fin 1024),
    Leaves (.radFcWrite r fc) [] [R.RAD_FC r.val, R.RAD_CTRL r.val] [] ∧ Leaves (.vcoCalRequest r) [] [R.RAD_CTRL r.val] [] ∧
    Leaves (.xampStep r t) [.nt, .xo, .radios] [] [] ∧ Leaves (.xampHoldExpire r ⟨last, t⟩) [.nt, .xo, .radios] [] [] ∧
    Leaves (.dutyMeterTick r t) [.nt, .xo, .radios] [] [30] ∧ Leaves (.radRpProgGo r) [.radios] [R.RAD_RP_PROG r.val] [] ∧
    Leaves (.rpFuseBlowDone r w) [.fuses, .radios] [R.RAD_RP_PROG r.val] [] ∧
    Leaves (.diversityBlock r ms x0 x1 t) [.nt, .xo, .kals] [] [] ∧ Leaves (.overloadInterval r c0 c1 t) [.nt, .xo, .kals] [R.KAL_OVL r.val] [38] ∧
    Leaves (.txBufferFetch r h t) [.nt, .xo, .kals] [] [] ∧
    ∀ s u : State, s.dev.radioUp r = true → ∀ c ∈ [Instr.diversityBlock r ms x0 x1 t, .overloadInterval r c0 c1 t, .txBufferFetch r h t],
      exec c s = .next u → ∀ r', r' ≠ r.val → u.dev.kal r' = s.dev.kal r'

/-- What the commands on the Ethernet ports, the policers, the classifier's fragments and the traffic manager leave (R321, R331, R336, R351, R354, R364). -/
def Obligations.EthernetFrames : Prop :=
  ∀ (n : MacId) (p : Fin 1024) (k : Fin 4) (w : Word) (t : Nat),
    Leaves (.pauseTimerExpire n t) [.nt, .xo, .macs, .ports] [R.MAC_STATUS n.val] [] ∧
    Leaves (.pauseRefresh n t) [.nt, .xo, .macs, .ports] [] [] ∧
    Leaves (.verifyTimer n t) [.nt, .xo, .macs] [R.MAC_STATUS n.val, R.MAC_CNT_HALF_LO n.val, R.MAC_CNT_HALF_HI n.val] [52] ∧
    Leaves (.macCntClr n) [.macs] [R.MAC_CNT_HALF_LO n.val, R.MAC_CNT_HALF_HI n.val] [] ∧
    Leaves (.policerWrite p k w) [] [R.SHP_POL_RATE p.val, R.SHP_POL_CBS p.val, R.SHP_POL_TOKENS p.val, R.SHP_POL_DROPS p.val] [] ∧
    Leaves (.gateStateChange n t) [.nt, .xo, .mons, .macs, .queues, .ports]
      ([R.SHP_PORT_GSTAT n.val, R.MAC_CNT_HALF_LO n.val, R.MAC_CNT_HALF_HI n.val] ++
        (List.range 8).flatMap (fun q => [R.SHP_Q_DEPTH (8 * n.val + q), R.SHP_Q_DROP (8 * n.val + q)])) [52] ∧
    Leaves (.fragmentWaitExpire t) [.nt, .xo, .cls] [R.CLS_FRAG_DROP] [] ∧ Leaves (.fragmentEntryExpire t) [.nt, .xo, .cls] [] [] ∧
    ∀ s u : State, ∀ c ∈ [Instr.pauseTimerExpire n t, .pauseRefresh n t, .verifyTimer n t, .macCntClr n], exec c s = .next u →
      ∀ n', n' ≠ n.val → u.dev.mac n' = s.dev.mac n' ∧ u.dev.port n' = s.dev.port n'

/-- What the commands on the key cache and the stream interface leave (R366 to R368, R373, R379). -/
def Obligations.CipherFrames : Prop :=
  ∀ (slot n : Nat) (c : Fin 4) (big : Bool) (who : Fin 65) (w : Word) (k : CoreId),
    Leaves (.keyLoad slot c big) [.cip] [R.CIP_KEY_CMD] [] ∧ Leaves (.keyClear slot) [.cip] [R.CIP_KEY_CMD] [] ∧
    Leaves .rootKeyBlow [.rootKey] [R.CIP_ROOT_CTRL] [] ∧ Leaves (.classLimitWrite c w) [.cip] [R.CIP_CLASS c.val, R.CIP_LOCKED] [55] ∧
    Leaves (.cipSlotIdxWrite n) [] [R.CIP_SLOT_IDX, R.CIP_SLOT_INFO, R.CIP_SLOT_OWNER] [] ∧ Leaves (.cjResultRead k) [.rdata, .cip] [] [] ∧
    Leaves (.strOwnerWrite who w) [] [R.STR_OWNER] [] ∧ Leaves (.strDinWrite who w) [.cip] [] [] ∧
    Leaves (.strDoutRead who) [.rdata, .cip] [] [] ∧
    Leaves (.strAbort who) [] [R.STR_CTRL, R.STR_STATUS, R.STR_OUTLEN, R.CIP_ERRS] [] ∧
    Leaves .streamJobEnd [] ([R.STR_CTRL, R.STR_STATUS, R.STR_OUTLEN, R.CIP_ERRS] ++ (List.range 4).map R.STR_TAG) [] ∧
    ∀ s u : State, exec .rootKeyBlow s = .next u → u.dev.rootKey = s.dev.rootKey ∧ u.dev.rootProgrammed = s.dev.rootProgrammed

/-- What DRAM's refreshes and scrub, and the calibration controller, leave: every byte of DRAM among the rest (R390 to R393, R398, R401 to R403, R412). -/
def Obligations.DramAndCalibrationFrames : Prop :=
  ∀ (ch : ChanId) (b : BankId) (r0 r1 : Fin 3) (errs : List DramErr) (u : CalUnit) (bit : Fin 32) (t : Nat),
    Leaves (.refreshDue ch b t) [.nt, .xo, .drc] [R.DRC_REF_STAT] [] ∧ Leaves (.idleRefresh ch b t) [.nt, .xo, .drc] [] [] ∧
    Leaves (.mr4Read r0 r1 t) [.nt, .xo, .drc] [R.DRC_STATUS] [] ∧
    Leaves (.derateWindowClose t) [.nt, .xo, .drc] [R.DRC_REF_STAT, R.DRC_STATUS] [58] ∧
    Leaves (.patrolScrubRead errs t) [.nt, .xo, .drc] [R.DRC_ECC_ADDR, R.DRC_ECC_CORR, R.DRC_ECC_UNCORR, R.DRC_SCRUB_POS] [56, 57] ∧
    Leaves (.calTick t) [.nt, .xo, .cal] [R.CAL_STATUS] [60] ∧ Leaves (.calRetryExpire u t) [.nt, .xo, .cal] [R.CAL_STATUS] [] ∧
    Leaves (.calRun u) [.cal] [R.CAL_CMD, R.CAL_STATUS, R.RAD_CTRL (calRadio u.val)] [] ∧
    Leaves (.calDramIdxWrite ch bit) [] [R.CAL_DRAM_IDX, R.CAL_DRAM_BIT] []

/-- The registers that the end of a bundle touches. -/
def Sys2Proof.bundleRegs (c : Nat) : List Nat := [R.CORE_CYCLES c, R.CORE_TIMER c, R.CORE_IRQ_PEND c, R.MAR_TRAP (coreDie c) (c % 32)]

/-- The operations of slot C that do not trap, and the moves of slots X and Y. -/
def Sys2Proof.slotCOps : List ((CoreId → Instr) × Nat) :=
  [(.nop, 0x00), (.add2, 0x01), (.sub2, 0x02), (.addw, 0x03), (.subw, 0x04), (.and, 0x05), (.or, 0x06), (.xor, 0x07), (.shift, 0x08), (.cmp, 0x09),
   (.ldi, 0x0A), (.ldip, 0x0B), (.mac, 0x10), (.mac2, 0x11), (.cmac, 0x12), (.cmul, 0x13), (.accop, 0x14), (.norm, 0x15), (.exp, 0x16), (.acs, 0x17),
   (.br, 0x20), (.call, 0x21), (.jr, 0x22), (.reti, 0x23), (.rep, 0x24)]
def Sys2Proof.moveOps : List ((CoreId → Instr) × Nat) := [(.mov, 0x7), (.mva, 0x8), (.mta, 0x9), (.modp, 0xA), (.ldim, 0xB)]

/-- What an instruction leaves of its core, seen by the next bundle: every register it does not write, and every memory. -/
def Sys2Proof.KeepsCore (k j : Core) (writes : List Nat) : Prop :=
  (∀ key, key < 44 → key ∉ writes → seenAt j (k.count + 1) (k.bank key) = seenAt k (k.count + 1) (k.bank key)) ∧
  j.imem = k.imem ∧ j.dmem = k.dmem ∧ j.outbuf = k.outbuf ∧ j.mailbox = k.mailbox ∧ j.tru = k.tru ∧ j.shadow = k.shadow

/-- What the instructions of a core leave: the other cores, every other block, the registers they do not name, and memory but for a store's bytes (R255,
R257 to R261, R282 to R284, R288 to R302). -/
def Obligations.CoreFrames : Prop :=
  (∀ p ∈ slotCOps, ∀ (s : State) (c : CoreId), Ready s.dev c true p.2 → Runs (p.1 c) s (fun d =>
    Frame [.cores] [] [] s.dev d ∧ (∀ c', c' ≠ c.val → d.mcore c' = s.dev.mcore c') ∧
    KeepsCore (s.dev.mcore c).enter (d.mcore c) (cWrites (s.dev.mcore c).loops.length (s.dev.mcore c).cWord))) ∧
  (∀ p ∈ moveOps, ∀ (s : State) (c : CoreId), Ready s.dev c false p.2 → (s.dev.mcore c).slot = 1 → Runs (p.1 c) s (fun d =>
    Frame [.cores] [] [] s.dev d ∧ (∀ c', c' ≠ c.val → d.mcore c' = s.dev.mcore c') ∧
    (xLegal (s.dev.mcore c).shadow (s.dev.mcore c).slotWord = true →
      KeepsCore (s.dev.mcore c) (d.mcore c) (keySR :: xWrites (s.dev.mcore c).slotWord)))) ∧
  (∀ p ∈ moveOps, ∀ (s : State) (c : CoreId), Ready s.dev c false p.2 → Runs (p.1 c) s (fun d =>
    Frame [.cores, .pup] (bundleRegs c) [37] s.dev d ∧ ∀ c', c' ≠ c.val → d.mcore c' = s.dev.mcore c')) ∧
  (∀ p ∈ [(Instr.ldw, 0x1), (.ldh, 0x2), (.ldp, 0x5)], ∀ (s : State) (c : CoreId) (e : LoadEcc),
    Ready s.dev c false p.2 → inLocal ((s.dev.mcore c).ptr (xP (s.dev.mcore c).slotWord)) = true → Runs (p.1 ⟨c, e⟩) s (fun d =>
      Frame [.cores, .pup] (R.MAR_ECC (coreDie c) (c.val % 32) :: bundleRegs c) [37] s.dev d ∧ ∀ c', c' ≠ c.val → d.mcore c' = s.dev.mcore c')) ∧
  (∀ p ∈ [(Instr.stw, 0x3), (.sth, 0x4), (.stp, 0x6)], ∀ (s : State) (c : CoreId),
    Ready s.dev c false p.2 → inLocal ((s.dev.mcore c).ptr (xP (s.dev.mcore c).slotWord)) = true → Runs (p.1 c) s (fun d =>
      Frame [.cores, .pup] (bundleRegs c) [37] s.dev d ∧ ∀ c', c' ≠ c.val → d.mcore c' = s.dev.mcore c')) ∧
  (∀ (c : CoreId) (t32 : Fin 32) (w : Word), Leaves (.interruptTake c) [.cores] [R.CORE_CYCLES c.val, R.CORE_TIMER c.val, R.CORE_IRQ_PEND c.val] [] ∧ Leaves (.coreTruCtrlWrite c w) [.cores] [] [] ∧
    Leaves (.coreDoorbellWrite c t32) [] [R.CORE_IRQ_PEND (c.val / 32 * 32 + t32.val)] [] ∧
    Leaves (.budgetWarn c) [] [R.CORE_CYCLES c.val, R.CORE_IRQ_PEND c.val] [] ∧
    Leaves (.coreTimerZero c) [] [R.CORE_CYCLES c.val, R.CORE_TIMER c.val, R.CORE_IRQ_PEND c.val] [])

/-- What the registry's and the nodes' commands leave (R205, R230, R370). -/
def Obligations.RegistryFrames : Prop :=
  ∀ (b : Bool) (m : Fin 8) (p : Fin 16),
    Leaves .provision [.sched, .dram, .drc] [R.SCH_REG_CMD] [] ∧ Leaves .registryRead [] (R.SCH_REG_CMD :: (List.range 64).map R.SCH_REG_BUF) [] ∧
    Leaves .delete [.sched, .pup, .cip, .dram, .drc] [R.SCH_REG_CMD] [] ∧ Leaves .release [.sched, .pup, .dram, .drc] [R.SCH_NODE_CMD] [] ∧
    Leaves (.pilotHold b) [.sched] [R.SCH_NODE_CMD] [] ∧ Leaves .revoke [.sched] [R.SCH_NODE_CMD] [] ∧
    Leaves (.replace m p) [.sched] [R.SCH_NODE_CMD] []

end
end

