-- ==== Sys2Proof/Laws/SMap.lean ====
section
/-! SUPPORT. What reading a sparse table gives after each of its operations, and that each keeps the canonical form. -/

namespace Sys2Proof.Machine

variable {α : Type}

@[simp] theorem smGet_nil (dflt : Nat → α) (k : Nat) : smGet dflt [] k = dflt k := rfl

theorem smGet_insert (dflt : Nat → α) (m : SMap α) (k j : Nat) (v : α) :
    smGet dflt (smInsert k v m) j = if j = k then v else smGet dflt m j := by
  induction m with
  | nil => rfl
  | cons p rest ih =>
    obtain ⟨k', v'⟩ := p
    simp only [smInsert]
    split
    · rfl
    · split
      · subst ‹k = k'›; simp only [smGet]; split <;> rfl
      · simp only [smGet, ih]
        split
        · subst ‹j = k'›; rw [if_neg]; omega
        · rfl

theorem smGet_erase (dflt : Nat → α) (m : SMap α) (k j : Nat) :
    smGet dflt (smErase m k) j = if j = k then dflt j else smGet dflt m j := by
  induction m with
  | nil => simp [smErase]
  | cons p rest ih =>
    obtain ⟨k', v'⟩ := p
    simp only [smErase]
    split
    · subst ‹k' = k›; simp only [smGet, ih]; split <;> rfl
    · simp only [smGet, ih]
      split
      · subst ‹j = k'›; rw [if_neg ‹_›]
      · rfl

/-- A key reads as it was last set; every other key reads as before. -/
theorem smGet_set [DecidableEq α] (dflt : Nat → α) (m : SMap α) (k j : Nat) (v : α) :
    smGet dflt (smSet dflt m k v) j = if j = k then v else smGet dflt m j := by
  simp only [smSet]
  split
  · rw [smGet_erase]; split
    · subst ‹j = k›; exact ‹v = dflt j›.symm
    · rfl
  · exact smGet_insert ..

@[simp] theorem smGet_set_same [DecidableEq α] (dflt : Nat → α) (m : SMap α) (k : Nat) (v : α) :
    smGet dflt (smSet dflt m k v) k = v := by rw [smGet_set, if_pos rfl]

theorem smGet_set_ne [DecidableEq α] (dflt : Nat → α) (m : SMap α) {k j : Nat} (h : j ≠ k) (v : α) :
    smGet dflt (smSet dflt m k v) j = smGet dflt m j := by rw [smGet_set, if_neg h]

theorem smFind_cons (m : SMap α) (k j : Nat) (v : α) :
    smFind ((k, v) :: m) j = if k = j then some v else smFind m j := by
  by_cases h : k = j
  · subst h; simp [smFind]
  · have : (k == j) = false := by simpa using h
    rw [if_neg h]; simp only [smFind, List.find?, this]

theorem smFind_insert (m : SMap α) (k j : Nat) (v : α) :
    smFind (smInsert k v m) j = if j = k then some v else smFind m j := by
  induction m with
  | nil =>
    simp only [smInsert, smFind_cons]
    by_cases h : k = j
    · simp [h]
    · rw [if_neg h, if_neg (fun e => h e.symm)]
  | cons p rest ih =>
    obtain ⟨k', v'⟩ := p
    simp only [smInsert]
    split
    · simp only [smFind_cons]
      by_cases h : k = j
      · simp [h]
      · rw [if_neg h, if_neg (fun e : j = k => h e.symm)]
    · split
      · subst ‹k = k'›; simp only [smFind_cons]
        by_cases h : k = j
        · simp [h]
        · rw [if_neg h, if_neg (fun e => h e.symm), if_neg h]
      · simp only [smFind_cons, ih]
        split
        · rw [if_neg]; omega
        · rfl

theorem smFind_erase (m : SMap α) (k j : Nat) :
    smFind (smErase m k) j = if j = k then none else smFind m j := by
  induction m with
  | nil => simp [smErase, smFind]
  | cons p rest ih =>
    obtain ⟨k', v'⟩ := p
    simp only [smErase]
    split
    · subst ‹k' = k›
      rw [ih, smFind_cons]
      by_cases h : j = k'
      · simp [h]
      · rw [if_neg h, if_neg h, if_neg (fun e => h e.symm)]
    · simp only [smFind_cons, ih]
      split
      · rw [if_neg]; omega
      · rfl

/-! ## The canonical form -/

theorem smSorted_cons {k : Nat} {v : α} {rest : SMap α} :
    smSorted ((k, v) :: rest) = true ↔ (∀ p ∈ rest.head?, k < p.1) ∧ smSorted rest = true := by
  cases rest with
  | nil => simp [smSorted]
  | cons p r => simp [smSorted]

theorem smSorted_tail {p : Nat × α} {rest : SMap α} (h : smSorted (p :: rest) = true) : smSorted rest = true :=
  (smSorted_cons.1 h).2

theorem smSorted_lt {k : Nat} {v : α} {rest : SMap α} (h : smSorted ((k, v) :: rest) = true) : ∀ p ∈ rest, k < p.1 := by
  induction rest generalizing k v with
  | nil => simp
  | cons q r ih =>
    obtain ⟨h1, h2⟩ := smSorted_cons.1 h
    intro p hp
    cases hp with
    | head => exact h1 q rfl
    | tail _ hp => exact Nat.lt_trans (h1 q rfl) (ih (k := q.1) (v := q.2) h2 p hp)

theorem smSorted_of {k : Nat} {v : α} {rest : SMap α} (hr : smSorted rest = true) (h : ∀ p ∈ rest, k < p.1) :
    smSorted ((k, v) :: rest) = true := by
  refine smSorted_cons.2 ⟨fun p hp => h p ?_, hr⟩
  cases rest with
  | nil => cases hp
  | cons q r => cases hp; exact List.mem_cons_self

theorem mem_smErase {m : SMap α} {k : Nat} {p : Nat × α} (h : p ∈ smErase m k) : p ∈ m := by
  induction m with
  | nil => cases h
  | cons q r ih =>
    simp only [smErase] at h
    split at h
    · exact List.mem_cons_of_mem _ (ih h)
    · cases h with
      | head => exact List.mem_cons_self
      | tail _ h => exact List.mem_cons_of_mem _ (ih h)

theorem mem_smInsert {m : SMap α} {k : Nat} {v : α} {p : Nat × α} (h : p ∈ smInsert k v m) : p = (k, v) ∨ p ∈ m := by
  induction m with
  | nil => simp [smInsert] at h; exact .inl h
  | cons q r ih =>
    simp only [smInsert] at h
    split at h
    · simpa using h
    · split at h
      · rcases List.mem_cons.1 h with h | h
        · exact .inl h
        · exact .inr (List.mem_cons_of_mem _ h)
      · rcases List.mem_cons.1 h with h | h
        · exact .inr (by rw [h]; exact List.mem_cons_self)
        · rcases ih h with h | h
          · exact .inl h
          · exact .inr (List.mem_cons_of_mem _ h)

theorem smSorted_erase {m : SMap α} (k : Nat) (h : smSorted m = true) : smSorted (smErase m k) = true := by
  induction m with
  | nil => rfl
  | cons q r ih =>
    simp only [smErase]
    split
    · exact ih (smSorted_tail h)
    · exact smSorted_of (ih (smSorted_tail h)) (fun p hp => smSorted_lt h p (mem_smErase hp))

theorem smSorted_insert {m : SMap α} (k : Nat) (v : α) (h : smSorted m = true) : smSorted (smInsert k v m) = true := by
  induction m with
  | nil => rfl
  | cons q r ih =>
    obtain ⟨k', v'⟩ := q
    simp only [smInsert]
    split
    · exact smSorted_of h (fun p hp => by
        rcases List.mem_cons.1 hp with hp | hp
        · subst hp; assumption
        · exact Nat.lt_trans ‹_› (smSorted_lt h p hp))
    · split
      · subst ‹k = k'›
        exact smSorted_of (smSorted_tail h) (smSorted_lt h)
      · refine smSorted_of (ih (smSorted_tail h)) (fun p hp => ?_)
        rcases mem_smInsert hp with hp | hp
        · subst hp; show k' < k; omega
        · exact smSorted_lt h p hp

/-- Setting a key keeps the canonical form. -/
theorem smWf_set [DecidableEq α] {dflt : Nat → α} {m : SMap α} (k : Nat) (v : α) (h : smWf dflt m = true) :
    smWf dflt (smSet dflt m k v) = true := by
  simp only [smWf, Bool.and_eq_true, List.all_eq_true, decide_eq_true_eq] at h ⊢
  simp only [smSet]
  split
  · exact ⟨smSorted_erase k h.1, fun p hp => h.2 p (mem_smErase hp)⟩
  · refine ⟨smSorted_insert k v h.1, fun p hp => ?_⟩
    rcases mem_smInsert hp with hp | hp
    · subst hp; assumption
    · exact h.2 p hp

/-- Dropping entries keeps the canonical form. -/
theorem smSorted_filter {m : SMap α} (f : Nat × α → Bool) (h : smSorted m = true) : smSorted (m.filter f) = true := by
  induction m with
  | nil => rfl
  | cons q r ih =>
    rw [List.filter_cons]
    split
    · exact smSorted_of (ih (smSorted_tail h)) (fun p hp => smSorted_lt h p (List.mem_filter.1 hp).1)
    · exact ih (smSorted_tail h)

theorem smWf_clear [DecidableEq α] {dflt : Nat → α} {m : SMap α} (lo hi : Nat) (h : smWf dflt m = true) :
    smWf dflt (smClear m lo hi) = true := by
  simp only [smWf, Bool.and_eq_true, List.all_eq_true, decide_eq_true_eq] at h ⊢
  exact ⟨smSorted_filter _ h.1, fun p hp => h.2 p (List.mem_filter.1 hp).1⟩

/-! ### Writing a run of keys -/

theorem smGet_append_left (dflt : Nat → α) (l m : SMap α) (k : Nat) (h : ∀ p ∈ l, p.1 ≠ k) : smGet dflt (l ++ m) k = smGet dflt m k := by
  induction l with
  | nil => rfl
  | cons q r ih =>
    rw [List.cons_append, smGet, if_neg (fun e => h q List.mem_cons_self e.symm)]
    exact ih (fun p hp => h p (List.mem_cons_of_mem _ hp))

theorem smGet_append_right (dflt : Nat → α) (l m : SMap α) (k : Nat) (h : ∀ p ∈ m, p.1 ≠ k) : smGet dflt (l ++ m) k = smGet dflt l k := by
  induction l with
  | nil =>
    have := smGet_append_left dflt m [] k h
    simpa using this
  | cons q r ih => simp only [List.cons_append, smGet, ih]

theorem smGet_filter (dflt : Nat → α) (m : SMap α) (f : Nat → Bool) (k : Nat) (h : f k = true) :
    smGet dflt (m.filter (fun p => f p.1)) k = smGet dflt m k := by
  induction m with
  | nil => rfl
  | cons q r ih =>
    rw [List.filter_cons]
    split
    · simp only [smGet, ih]
    · rw [ih, smGet, if_neg]
      intro e; subst e; simp_all

theorem smGet_run [DecidableEq α] (dflt : Nat → α) (vs : List α) (a k : Nat) :
    smGet dflt (((vs.zipIdx a).filter (fun p => decide (p.1 ≠ dflt p.2))).map (fun p => (p.2, p.1))) k =
      if a ≤ k then vs.getD (k - a) (dflt k) else dflt k := by
  induction vs generalizing a with
  | nil => simp
  | cons v vs ih =>
    rw [List.zipIdx_cons, List.filter_cons]
    by_cases hk : k = a
    · subst hk
      split
      · simp [smGet]
      · rename_i hv
        have e : v = dflt k := by simpa using hv
        rw [ih, if_neg (by omega), if_pos (Nat.le_refl k)]
        simp [e]
    · have step : (if a + 1 ≤ k then vs.getD (k - (a + 1)) (dflt k) else dflt k) = if a ≤ k then (v :: vs).getD (k - a) (dflt k) else dflt k := by
        by_cases h : a + 1 ≤ k
        · rw [if_pos h, if_pos (by omega), show k - a = (k - (a + 1)) + 1 by omega]; rfl
        · rw [if_neg h, if_neg (by omega)]
      split
      · rw [List.map_cons, smGet, if_neg hk, ih, step]
      · rw [ih, step]

/-- What a key reads as after a run of keys was written. -/
theorem smGet_write [DecidableEq α] (dflt : Nat → α) (m : SMap α) (a : Nat) (vs : List α) (k : Nat) :
    smGet dflt (smWrite dflt m a vs) k = if a ≤ k ∧ k < a + vs.length then vs.getD (k - a) (dflt k) else smGet dflt m k := by
  have hl : ∀ p ∈ m.filter (fun p => decide (p.1 < a)), p.1 < a := fun p hp => by simpa using (List.mem_filter.1 hp).2
  have hr : ∀ p ∈ m.filter (fun p => decide (a + vs.length ≤ p.1)), a + vs.length ≤ p.1 := fun p hp => by simpa using (List.mem_filter.1 hp).2
  have hm : ∀ p ∈ ((vs.zipIdx a).filter (fun p => decide (p.1 ≠ dflt p.2))).map (fun p => (p.2, p.1)), a ≤ p.1 ∧ p.1 < a + vs.length := by
    intro p hp
    obtain ⟨q, hq, rfl⟩ := List.mem_map.1 hp
    have := List.mem_zipIdx (List.mem_filter.1 hq).1
    exact ⟨this.1, by have := this.2.1; omega⟩
  unfold smWrite
  by_cases h1 : k < a
  · rw [smGet_append_right _ _ _ _ (fun p hp e => by have := hr p hp; omega), smGet_append_right _ _ _ _ (fun p hp e => by have := hm p hp; omega),
      smGet_filter dflt m (fun n => decide (n < a)) k (by simpa using h1), if_neg (by omega)]
  · by_cases h2 : k < a + vs.length
    · rw [smGet_append_right _ _ _ _ (fun p hp e => by have := hr p hp; omega), smGet_append_left _ _ _ _ (fun p hp e => by have := hl p hp; omega),
        smGet_run, if_pos (by omega), if_pos (by omega)]
    · rw [List.append_assoc, smGet_append_left _ _ _ _ (fun p hp e => by have := hl p hp; omega),
        smGet_append_left _ _ _ _ (fun p hp e => by have := hm p hp; omega),
        smGet_filter dflt m (fun n => decide (a + vs.length ≤ n)) k (by simpa using h2), if_neg (by omega)]

theorem smSorted_append {l m : SMap α} (hl : smSorted l = true) (hm : smSorted m = true) (h : ∀ p ∈ l, ∀ q ∈ m, p.1 < q.1) :
    smSorted (l ++ m) = true := by
  induction l with
  | nil => exact hm
  | cons q r ih =>
    refine smSorted_of (ih (smSorted_tail hl) (fun p hp => h p (List.mem_cons_of_mem _ hp))) (fun p hp => ?_)
    rcases List.mem_append.1 hp with hp | hp
    · exact smSorted_lt hl p hp
    · exact h q List.mem_cons_self p hp

theorem smSorted_run (f : α × Nat → Bool) (vs : List α) (a : Nat) : smSorted (((vs.zipIdx a).filter f).map (fun p => (p.2, p.1))) = true := by
  induction vs generalizing a with
  | nil => rfl
  | cons v vs ih =>
    rw [List.zipIdx_cons, List.filter_cons]
    split
    · refine smSorted_of (ih (a + 1)) (fun p hp => ?_)
      obtain ⟨q, hq, rfl⟩ := List.mem_map.1 hp
      have := (List.mem_zipIdx (List.mem_filter.1 hq).1).1
      exact this
    · exact ih (a + 1)

/-- Writing a run of keys keeps the canonical form. -/
theorem smWf_write [DecidableEq α] {dflt : Nat → α} {m : SMap α} (a : Nat) (vs : List α) (h : smWf dflt m = true) :
    smWf dflt (smWrite dflt m a vs) = true := by
  simp only [smWf, Bool.and_eq_true, List.all_eq_true, decide_eq_true_eq] at h ⊢
  unfold smWrite
  refine ⟨smSorted_append (smSorted_append (smSorted_filter _ h.1) (smSorted_run _ _ _) ?_) (smSorted_filter _ h.1) ?_, ?_⟩
  · intro p hp q hq
    obtain ⟨x, hx, rfl⟩ := List.mem_map.1 hq
    have h1 : p.1 < a := by simpa using (List.mem_filter.1 hp).2
    have h2 := (List.mem_zipIdx (List.mem_filter.1 hx).1).1
    exact Nat.lt_of_lt_of_le h1 h2
  · intro p hp q hq
    have h2 : a + vs.length ≤ q.1 := by simpa using (List.mem_filter.1 hq).2
    rcases List.mem_append.1 hp with hp | hp
    · have h1 : p.1 < a := by simpa using (List.mem_filter.1 hp).2
      omega
    · obtain ⟨x, hx, rfl⟩ := List.mem_map.1 hp
      have := (List.mem_zipIdx (List.mem_filter.1 hx).1).2.1
      show x.2 < q.1
      omega
  · intro p hp
    rcases List.mem_append.1 hp with hp | hp
    · rcases List.mem_append.1 hp with hp | hp
      · exact h.2 p (List.mem_filter.1 hp).1
      · obtain ⟨x, hx, rfl⟩ := List.mem_map.1 hp
        simpa using (List.mem_filter.1 hx).2
    · exact h.2 p (List.mem_filter.1 hp).1

theorem smWf_nil [DecidableEq α] (dflt : Nat → α) : smWf dflt [] = true := rfl

end Sys2Proof.Machine
end

