-- ==== Sys2Proof/Laws/State.lean ====
section
/-! SUPPORT. What each named update of the state leaves as it was: one lemma per field per update, so that no proof unfolds a record update. -/

namespace Sys2Proof.Machine

open Sys2Proof

@[simp] theorem State.withQueue_dev (s : State) (q : List Instr) : (s.withQueue q).dev = s.dev := rfl
@[simp] theorem State.withQueue_pending (s : State) (q : List Instr) : (s.withQueue q).pending = q := rfl
@[simp] theorem State.withQueue_withQueue (s : State) (q q' : List Instr) : (s.withQueue q).withQueue q' = s.withQueue q' := rfl
@[simp] theorem State.withQueue_self (s : State) : s.withQueue s.pending = s := rfl

/-! ## setWord -/

@[simp] theorem Dev.setWord_nt (d : Dev) (a : Nat) (w : Word) : (d.setWord a w).nt = d.nt := rfl
@[simp] theorem Dev.setWord_xo (d : Dev) (a : Nat) (w : Word) : (d.setWord a w).xo = d.xo := rfl
@[simp] theorem Dev.setWord_member (d : Dev) (a : Nat) (w : Word) : (d.setWord a w).member = d.member := rfl
@[simp] theorem Dev.setWord_rdata (d : Dev) (a : Nat) (w : Word) : (d.setWord a w).rdata = d.rdata := rfl
@[simp] theorem Dev.setWord_free (d : Dev) (a : Nat) (w : Word) : (d.setWord a w).free = d.free := rfl
@[simp] theorem Dev.setWord_evt (d : Dev) (a : Nat) (w : Word) : (d.setWord a w).evt = d.evt := rfl
@[simp] theorem Dev.setWord_links (d : Dev) (a : Nat) (w : Word) : (d.setWord a w).links = d.links := rfl
@[simp] theorem Dev.setWord_clkOff (d : Dev) (a : Nat) (w : Word) : (d.setWord a w).clkOff = d.clkOff := rfl
@[simp] theorem Dev.setWord_mons (d : Dev) (a : Nat) (w : Word) : (d.setWord a w).mons = d.mons := rfl
@[simp] theorem Dev.setWord_pwr (d : Dev) (a : Nat) (w : Word) : (d.setWord a w).pwr = d.pwr := rfl
@[simp] theorem Dev.setWord_boot (d : Dev) (a : Nat) (w : Word) : (d.setWord a w).boot = d.boot := rfl
@[simp] theorem Dev.setWord_cmd (d : Dev) (a : Nat) (w : Word) : (d.setWord a w).cmd = d.cmd := rfl
@[simp] theorem Dev.setWord_stages (d : Dev) (a : Nat) (w : Word) : (d.setWord a w).stages = d.stages := rfl
@[simp] theorem Dev.setWord_stagesFired (d : Dev) (a : Nat) (w : Word) : (d.setWord a w).stagesFired = d.stagesFired := rfl
@[simp] theorem Dev.setWord_nvmCopy (d : Dev) (a : Nat) (w : Word) : (d.setWord a w).nvmCopy = d.nvmCopy := rfl
@[simp] theorem Dev.setWord_flash (d : Dev) (a : Nat) (w : Word) : (d.setWord a w).flash = d.flash := rfl
@[simp] theorem Dev.setWord_fuses (d : Dev) (a : Nat) (w : Word) : (d.setWord a w).fuses = d.fuses := rfl
@[simp] theorem Dev.setWord_rootKey (d : Dev) (a : Nat) (w : Word) : (d.setWord a w).rootKey = d.rootKey := rfl
@[simp] theorem Dev.setWord_rootProgrammed (d : Dev) (a : Nat) (w : Word) : (d.setWord a w).rootProgrammed = d.rootProgrammed := rfl
@[simp] theorem Dev.setWord_rootBlow (d : Dev) (a : Nat) (w : Word) : (d.setWord a w).rootBlow = d.rootBlow := rfl
@[simp] theorem Dev.setWord_pubDigest (d : Dev) (a : Nat) (w : Word) : (d.setWord a w).pubDigest = d.pubDigest := rfl
@[simp] theorem Dev.setWord_pads (d : Dev) (a : Nat) (w : Word) : (d.setWord a w).pads = d.pads := rfl
@[simp] theorem Dev.setWord_cagesFolded (d : Dev) (a : Nat) (w : Word) : (d.setWord a w).cagesFolded = d.cagesFolded := rfl
@[simp] theorem Dev.setWord_pins (d : Dev) (a : Nat) (w : Word) : (d.setWord a w).pins = d.pins := rfl
@[simp] theorem Dev.setWord_clk (d : Dev) (a : Nat) (w : Word) : (d.setWord a w).clk = d.clk := rfl
@[simp] theorem Dev.setWord_acts (d : Dev) (a : Nat) (w : Word) : (d.setWord a w).acts = d.acts := rfl
@[simp] theorem Dev.setWord_actsFired (d : Dev) (a : Nat) (w : Word) : (d.setWord a w).actsFired = d.actsFired := rfl
@[simp] theorem Dev.setWord_radios (d : Dev) (a : Nat) (w : Word) : (d.setWord a w).radios = d.radios := rfl
@[simp] theorem Dev.setWord_kals (d : Dev) (a : Nat) (w : Word) : (d.setWord a w).kals = d.kals := rfl
@[simp] theorem Dev.setWord_dram (d : Dev) (a : Nat) (w : Word) : (d.setWord a w).dram = d.dram := rfl
@[simp] theorem Dev.setWord_temps (d : Dev) (a : Nat) (w : Word) : (d.setWord a w).temps = d.temps := rfl
@[simp] theorem Dev.setWord_sched (d : Dev) (a : Nat) (w : Word) : (d.setWord a w).sched = d.sched := rfl
@[simp] theorem Dev.setWord_pup (d : Dev) (a : Nat) (w : Word) : (d.setWord a w).pup = d.pup := rfl
@[simp] theorem Dev.setWord_cores (d : Dev) (a : Nat) (w : Word) : (d.setWord a w).cores = d.cores := rfl
@[simp] theorem Dev.setWord_macs (d : Dev) (a : Nat) (w : Word) : (d.setWord a w).macs = d.macs := rfl
@[simp] theorem Dev.setWord_cls (d : Dev) (a : Nat) (w : Word) : (d.setWord a w).cls = d.cls := rfl
@[simp] theorem Dev.setWord_mgmtIn (d : Dev) (a : Nat) (w : Word) : (d.setWord a w).mgmtIn = d.mgmtIn := rfl
@[simp] theorem Dev.setWord_queues (d : Dev) (a : Nat) (w : Word) : (d.setWord a w).queues = d.queues := rfl
@[simp] theorem Dev.setWord_ports (d : Dev) (a : Nat) (w : Word) : (d.setWord a w).ports = d.ports := rfl
@[simp] theorem Dev.setWord_policers (d : Dev) (a : Nat) (w : Word) : (d.setWord a w).policers = d.policers := rfl
@[simp] theorem Dev.setWord_cip (d : Dev) (a : Nat) (w : Word) : (d.setWord a w).cip = d.cip := rfl
@[simp] theorem Dev.setWord_drc (d : Dev) (a : Nat) (w : Word) : (d.setWord a w).drc = d.drc := rfl
@[simp] theorem Dev.setWord_cal (d : Dev) (a : Nat) (w : Word) : (d.setWord a w).cal = d.cal := rfl
@[simp] theorem Dev.setWord_rtc (d : Dev) (a : Nat) (w : Word) : (d.setWord a w).rtc = d.rtc := rfl

/-! ## put -/

@[simp] theorem Dev.put_nt (d : Dev) (a : Nat) (f : Fld) (v : Nat) : (d.put a f v).nt = d.nt := rfl
@[simp] theorem Dev.put_xo (d : Dev) (a : Nat) (f : Fld) (v : Nat) : (d.put a f v).xo = d.xo := rfl
@[simp] theorem Dev.put_member (d : Dev) (a : Nat) (f : Fld) (v : Nat) : (d.put a f v).member = d.member := rfl
@[simp] theorem Dev.put_rdata (d : Dev) (a : Nat) (f : Fld) (v : Nat) : (d.put a f v).rdata = d.rdata := rfl
@[simp] theorem Dev.put_free (d : Dev) (a : Nat) (f : Fld) (v : Nat) : (d.put a f v).free = d.free := rfl
@[simp] theorem Dev.put_evt (d : Dev) (a : Nat) (f : Fld) (v : Nat) : (d.put a f v).evt = d.evt := rfl
@[simp] theorem Dev.put_links (d : Dev) (a : Nat) (f : Fld) (v : Nat) : (d.put a f v).links = d.links := rfl
@[simp] theorem Dev.put_clkOff (d : Dev) (a : Nat) (f : Fld) (v : Nat) : (d.put a f v).clkOff = d.clkOff := rfl
@[simp] theorem Dev.put_mons (d : Dev) (a : Nat) (f : Fld) (v : Nat) : (d.put a f v).mons = d.mons := rfl
@[simp] theorem Dev.put_pwr (d : Dev) (a : Nat) (f : Fld) (v : Nat) : (d.put a f v).pwr = d.pwr := rfl
@[simp] theorem Dev.put_boot (d : Dev) (a : Nat) (f : Fld) (v : Nat) : (d.put a f v).boot = d.boot := rfl
@[simp] theorem Dev.put_cmd (d : Dev) (a : Nat) (f : Fld) (v : Nat) : (d.put a f v).cmd = d.cmd := rfl
@[simp] theorem Dev.put_stages (d : Dev) (a : Nat) (f : Fld) (v : Nat) : (d.put a f v).stages = d.stages := rfl
@[simp] theorem Dev.put_stagesFired (d : Dev) (a : Nat) (f : Fld) (v : Nat) : (d.put a f v).stagesFired = d.stagesFired := rfl
@[simp] theorem Dev.put_nvmCopy (d : Dev) (a : Nat) (f : Fld) (v : Nat) : (d.put a f v).nvmCopy = d.nvmCopy := rfl
@[simp] theorem Dev.put_flash (d : Dev) (a : Nat) (f : Fld) (v : Nat) : (d.put a f v).flash = d.flash := rfl
@[simp] theorem Dev.put_fuses (d : Dev) (a : Nat) (f : Fld) (v : Nat) : (d.put a f v).fuses = d.fuses := rfl
@[simp] theorem Dev.put_rootKey (d : Dev) (a : Nat) (f : Fld) (v : Nat) : (d.put a f v).rootKey = d.rootKey := rfl
@[simp] theorem Dev.put_rootProgrammed (d : Dev) (a : Nat) (f : Fld) (v : Nat) : (d.put a f v).rootProgrammed = d.rootProgrammed := rfl
@[simp] theorem Dev.put_rootBlow (d : Dev) (a : Nat) (f : Fld) (v : Nat) : (d.put a f v).rootBlow = d.rootBlow := rfl
@[simp] theorem Dev.put_pubDigest (d : Dev) (a : Nat) (f : Fld) (v : Nat) : (d.put a f v).pubDigest = d.pubDigest := rfl
@[simp] theorem Dev.put_pads (d : Dev) (a : Nat) (f : Fld) (v : Nat) : (d.put a f v).pads = d.pads := rfl
@[simp] theorem Dev.put_cagesFolded (d : Dev) (a : Nat) (f : Fld) (v : Nat) : (d.put a f v).cagesFolded = d.cagesFolded := rfl
@[simp] theorem Dev.put_pins (d : Dev) (a : Nat) (f : Fld) (v : Nat) : (d.put a f v).pins = d.pins := rfl
@[simp] theorem Dev.put_clk (d : Dev) (a : Nat) (f : Fld) (v : Nat) : (d.put a f v).clk = d.clk := rfl
@[simp] theorem Dev.put_acts (d : Dev) (a : Nat) (f : Fld) (v : Nat) : (d.put a f v).acts = d.acts := rfl
@[simp] theorem Dev.put_actsFired (d : Dev) (a : Nat) (f : Fld) (v : Nat) : (d.put a f v).actsFired = d.actsFired := rfl
@[simp] theorem Dev.put_radios (d : Dev) (a : Nat) (f : Fld) (v : Nat) : (d.put a f v).radios = d.radios := rfl
@[simp] theorem Dev.put_kals (d : Dev) (a : Nat) (f : Fld) (v : Nat) : (d.put a f v).kals = d.kals := rfl
@[simp] theorem Dev.put_dram (d : Dev) (a : Nat) (f : Fld) (v : Nat) : (d.put a f v).dram = d.dram := rfl
@[simp] theorem Dev.put_temps (d : Dev) (a : Nat) (f : Fld) (v : Nat) : (d.put a f v).temps = d.temps := rfl
@[simp] theorem Dev.put_sched (d : Dev) (a : Nat) (f : Fld) (v : Nat) : (d.put a f v).sched = d.sched := rfl
@[simp] theorem Dev.put_pup (d : Dev) (a : Nat) (f : Fld) (v : Nat) : (d.put a f v).pup = d.pup := rfl
@[simp] theorem Dev.put_cores (d : Dev) (a : Nat) (f : Fld) (v : Nat) : (d.put a f v).cores = d.cores := rfl
@[simp] theorem Dev.put_macs (d : Dev) (a : Nat) (f : Fld) (v : Nat) : (d.put a f v).macs = d.macs := rfl
@[simp] theorem Dev.put_cls (d : Dev) (a : Nat) (f : Fld) (v : Nat) : (d.put a f v).cls = d.cls := rfl
@[simp] theorem Dev.put_mgmtIn (d : Dev) (a : Nat) (f : Fld) (v : Nat) : (d.put a f v).mgmtIn = d.mgmtIn := rfl
@[simp] theorem Dev.put_queues (d : Dev) (a : Nat) (f : Fld) (v : Nat) : (d.put a f v).queues = d.queues := rfl
@[simp] theorem Dev.put_ports (d : Dev) (a : Nat) (f : Fld) (v : Nat) : (d.put a f v).ports = d.ports := rfl
@[simp] theorem Dev.put_policers (d : Dev) (a : Nat) (f : Fld) (v : Nat) : (d.put a f v).policers = d.policers := rfl
@[simp] theorem Dev.put_cip (d : Dev) (a : Nat) (f : Fld) (v : Nat) : (d.put a f v).cip = d.cip := rfl
@[simp] theorem Dev.put_drc (d : Dev) (a : Nat) (f : Fld) (v : Nat) : (d.put a f v).drc = d.drc := rfl
@[simp] theorem Dev.put_cal (d : Dev) (a : Nat) (f : Fld) (v : Nat) : (d.put a f v).cal = d.cal := rfl
@[simp] theorem Dev.put_rtc (d : Dev) (a : Nat) (f : Fld) (v : Nat) : (d.put a f v).rtc = d.rtc := rfl

/-! ## bumpBy -/

@[simp] theorem Dev.bumpBy_nt (d : Dev) (a : Nat) (f : Fld) (n : Nat) : (d.bumpBy a f n).nt = d.nt := rfl
@[simp] theorem Dev.bumpBy_xo (d : Dev) (a : Nat) (f : Fld) (n : Nat) : (d.bumpBy a f n).xo = d.xo := rfl
@[simp] theorem Dev.bumpBy_member (d : Dev) (a : Nat) (f : Fld) (n : Nat) : (d.bumpBy a f n).member = d.member := rfl
@[simp] theorem Dev.bumpBy_rdata (d : Dev) (a : Nat) (f : Fld) (n : Nat) : (d.bumpBy a f n).rdata = d.rdata := rfl
@[simp] theorem Dev.bumpBy_free (d : Dev) (a : Nat) (f : Fld) (n : Nat) : (d.bumpBy a f n).free = d.free := rfl
@[simp] theorem Dev.bumpBy_evt (d : Dev) (a : Nat) (f : Fld) (n : Nat) : (d.bumpBy a f n).evt = d.evt := rfl
@[simp] theorem Dev.bumpBy_links (d : Dev) (a : Nat) (f : Fld) (n : Nat) : (d.bumpBy a f n).links = d.links := rfl
@[simp] theorem Dev.bumpBy_clkOff (d : Dev) (a : Nat) (f : Fld) (n : Nat) : (d.bumpBy a f n).clkOff = d.clkOff := rfl
@[simp] theorem Dev.bumpBy_mons (d : Dev) (a : Nat) (f : Fld) (n : Nat) : (d.bumpBy a f n).mons = d.mons := rfl
@[simp] theorem Dev.bumpBy_pwr (d : Dev) (a : Nat) (f : Fld) (n : Nat) : (d.bumpBy a f n).pwr = d.pwr := rfl
@[simp] theorem Dev.bumpBy_boot (d : Dev) (a : Nat) (f : Fld) (n : Nat) : (d.bumpBy a f n).boot = d.boot := rfl
@[simp] theorem Dev.bumpBy_cmd (d : Dev) (a : Nat) (f : Fld) (n : Nat) : (d.bumpBy a f n).cmd = d.cmd := rfl
@[simp] theorem Dev.bumpBy_stages (d : Dev) (a : Nat) (f : Fld) (n : Nat) : (d.bumpBy a f n).stages = d.stages := rfl
@[simp] theorem Dev.bumpBy_stagesFired (d : Dev) (a : Nat) (f : Fld) (n : Nat) : (d.bumpBy a f n).stagesFired = d.stagesFired := rfl
@[simp] theorem Dev.bumpBy_nvmCopy (d : Dev) (a : Nat) (f : Fld) (n : Nat) : (d.bumpBy a f n).nvmCopy = d.nvmCopy := rfl
@[simp] theorem Dev.bumpBy_flash (d : Dev) (a : Nat) (f : Fld) (n : Nat) : (d.bumpBy a f n).flash = d.flash := rfl
@[simp] theorem Dev.bumpBy_fuses (d : Dev) (a : Nat) (f : Fld) (n : Nat) : (d.bumpBy a f n).fuses = d.fuses := rfl
@[simp] theorem Dev.bumpBy_rootKey (d : Dev) (a : Nat) (f : Fld) (n : Nat) : (d.bumpBy a f n).rootKey = d.rootKey := rfl
@[simp] theorem Dev.bumpBy_rootProgrammed (d : Dev) (a : Nat) (f : Fld) (n : Nat) : (d.bumpBy a f n).rootProgrammed = d.rootProgrammed := rfl
@[simp] theorem Dev.bumpBy_rootBlow (d : Dev) (a : Nat) (f : Fld) (n : Nat) : (d.bumpBy a f n).rootBlow = d.rootBlow := rfl
@[simp] theorem Dev.bumpBy_pubDigest (d : Dev) (a : Nat) (f : Fld) (n : Nat) : (d.bumpBy a f n).pubDigest = d.pubDigest := rfl
@[simp] theorem Dev.bumpBy_pads (d : Dev) (a : Nat) (f : Fld) (n : Nat) : (d.bumpBy a f n).pads = d.pads := rfl
@[simp] theorem Dev.bumpBy_cagesFolded (d : Dev) (a : Nat) (f : Fld) (n : Nat) : (d.bumpBy a f n).cagesFolded = d.cagesFolded := rfl
@[simp] theorem Dev.bumpBy_pins (d : Dev) (a : Nat) (f : Fld) (n : Nat) : (d.bumpBy a f n).pins = d.pins := rfl
@[simp] theorem Dev.bumpBy_clk (d : Dev) (a : Nat) (f : Fld) (n : Nat) : (d.bumpBy a f n).clk = d.clk := rfl
@[simp] theorem Dev.bumpBy_acts (d : Dev) (a : Nat) (f : Fld) (n : Nat) : (d.bumpBy a f n).acts = d.acts := rfl
@[simp] theorem Dev.bumpBy_actsFired (d : Dev) (a : Nat) (f : Fld) (n : Nat) : (d.bumpBy a f n).actsFired = d.actsFired := rfl
@[simp] theorem Dev.bumpBy_radios (d : Dev) (a : Nat) (f : Fld) (n : Nat) : (d.bumpBy a f n).radios = d.radios := rfl
@[simp] theorem Dev.bumpBy_kals (d : Dev) (a : Nat) (f : Fld) (n : Nat) : (d.bumpBy a f n).kals = d.kals := rfl
@[simp] theorem Dev.bumpBy_dram (d : Dev) (a : Nat) (f : Fld) (n : Nat) : (d.bumpBy a f n).dram = d.dram := rfl
@[simp] theorem Dev.bumpBy_temps (d : Dev) (a : Nat) (f : Fld) (n : Nat) : (d.bumpBy a f n).temps = d.temps := rfl
@[simp] theorem Dev.bumpBy_sched (d : Dev) (a : Nat) (f : Fld) (n : Nat) : (d.bumpBy a f n).sched = d.sched := rfl
@[simp] theorem Dev.bumpBy_pup (d : Dev) (a : Nat) (f : Fld) (n : Nat) : (d.bumpBy a f n).pup = d.pup := rfl
@[simp] theorem Dev.bumpBy_cores (d : Dev) (a : Nat) (f : Fld) (n : Nat) : (d.bumpBy a f n).cores = d.cores := rfl
@[simp] theorem Dev.bumpBy_macs (d : Dev) (a : Nat) (f : Fld) (n : Nat) : (d.bumpBy a f n).macs = d.macs := rfl
@[simp] theorem Dev.bumpBy_cls (d : Dev) (a : Nat) (f : Fld) (n : Nat) : (d.bumpBy a f n).cls = d.cls := rfl
@[simp] theorem Dev.bumpBy_mgmtIn (d : Dev) (a : Nat) (f : Fld) (n : Nat) : (d.bumpBy a f n).mgmtIn = d.mgmtIn := rfl
@[simp] theorem Dev.bumpBy_queues (d : Dev) (a : Nat) (f : Fld) (n : Nat) : (d.bumpBy a f n).queues = d.queues := rfl
@[simp] theorem Dev.bumpBy_ports (d : Dev) (a : Nat) (f : Fld) (n : Nat) : (d.bumpBy a f n).ports = d.ports := rfl
@[simp] theorem Dev.bumpBy_policers (d : Dev) (a : Nat) (f : Fld) (n : Nat) : (d.bumpBy a f n).policers = d.policers := rfl
@[simp] theorem Dev.bumpBy_cip (d : Dev) (a : Nat) (f : Fld) (n : Nat) : (d.bumpBy a f n).cip = d.cip := rfl
@[simp] theorem Dev.bumpBy_drc (d : Dev) (a : Nat) (f : Fld) (n : Nat) : (d.bumpBy a f n).drc = d.drc := rfl
@[simp] theorem Dev.bumpBy_cal (d : Dev) (a : Nat) (f : Fld) (n : Nat) : (d.bumpBy a f n).cal = d.cal := rfl
@[simp] theorem Dev.bumpBy_rtc (d : Dev) (a : Nat) (f : Fld) (n : Nat) : (d.bumpBy a f n).rtc = d.rtc := rfl

/-! ## bump -/

@[simp] theorem Dev.bump_nt (d : Dev) (a : Nat) (f : Fld) : (d.bump a f).nt = d.nt := rfl
@[simp] theorem Dev.bump_xo (d : Dev) (a : Nat) (f : Fld) : (d.bump a f).xo = d.xo := rfl
@[simp] theorem Dev.bump_member (d : Dev) (a : Nat) (f : Fld) : (d.bump a f).member = d.member := rfl
@[simp] theorem Dev.bump_rdata (d : Dev) (a : Nat) (f : Fld) : (d.bump a f).rdata = d.rdata := rfl
@[simp] theorem Dev.bump_free (d : Dev) (a : Nat) (f : Fld) : (d.bump a f).free = d.free := rfl
@[simp] theorem Dev.bump_evt (d : Dev) (a : Nat) (f : Fld) : (d.bump a f).evt = d.evt := rfl
@[simp] theorem Dev.bump_links (d : Dev) (a : Nat) (f : Fld) : (d.bump a f).links = d.links := rfl
@[simp] theorem Dev.bump_clkOff (d : Dev) (a : Nat) (f : Fld) : (d.bump a f).clkOff = d.clkOff := rfl
@[simp] theorem Dev.bump_mons (d : Dev) (a : Nat) (f : Fld) : (d.bump a f).mons = d.mons := rfl
@[simp] theorem Dev.bump_pwr (d : Dev) (a : Nat) (f : Fld) : (d.bump a f).pwr = d.pwr := rfl
@[simp] theorem Dev.bump_boot (d : Dev) (a : Nat) (f : Fld) : (d.bump a f).boot = d.boot := rfl
@[simp] theorem Dev.bump_cmd (d : Dev) (a : Nat) (f : Fld) : (d.bump a f).cmd = d.cmd := rfl
@[simp] theorem Dev.bump_stages (d : Dev) (a : Nat) (f : Fld) : (d.bump a f).stages = d.stages := rfl
@[simp] theorem Dev.bump_stagesFired (d : Dev) (a : Nat) (f : Fld) : (d.bump a f).stagesFired = d.stagesFired := rfl
@[simp] theorem Dev.bump_nvmCopy (d : Dev) (a : Nat) (f : Fld) : (d.bump a f).nvmCopy = d.nvmCopy := rfl
@[simp] theorem Dev.bump_flash (d : Dev) (a : Nat) (f : Fld) : (d.bump a f).flash = d.flash := rfl
@[simp] theorem Dev.bump_fuses (d : Dev) (a : Nat) (f : Fld) : (d.bump a f).fuses = d.fuses := rfl
@[simp] theorem Dev.bump_rootKey (d : Dev) (a : Nat) (f : Fld) : (d.bump a f).rootKey = d.rootKey := rfl
@[simp] theorem Dev.bump_rootProgrammed (d : Dev) (a : Nat) (f : Fld) : (d.bump a f).rootProgrammed = d.rootProgrammed := rfl
@[simp] theorem Dev.bump_rootBlow (d : Dev) (a : Nat) (f : Fld) : (d.bump a f).rootBlow = d.rootBlow := rfl
@[simp] theorem Dev.bump_pubDigest (d : Dev) (a : Nat) (f : Fld) : (d.bump a f).pubDigest = d.pubDigest := rfl
@[simp] theorem Dev.bump_pads (d : Dev) (a : Nat) (f : Fld) : (d.bump a f).pads = d.pads := rfl
@[simp] theorem Dev.bump_cagesFolded (d : Dev) (a : Nat) (f : Fld) : (d.bump a f).cagesFolded = d.cagesFolded := rfl
@[simp] theorem Dev.bump_pins (d : Dev) (a : Nat) (f : Fld) : (d.bump a f).pins = d.pins := rfl
@[simp] theorem Dev.bump_clk (d : Dev) (a : Nat) (f : Fld) : (d.bump a f).clk = d.clk := rfl
@[simp] theorem Dev.bump_acts (d : Dev) (a : Nat) (f : Fld) : (d.bump a f).acts = d.acts := rfl
@[simp] theorem Dev.bump_actsFired (d : Dev) (a : Nat) (f : Fld) : (d.bump a f).actsFired = d.actsFired := rfl
@[simp] theorem Dev.bump_radios (d : Dev) (a : Nat) (f : Fld) : (d.bump a f).radios = d.radios := rfl
@[simp] theorem Dev.bump_kals (d : Dev) (a : Nat) (f : Fld) : (d.bump a f).kals = d.kals := rfl
@[simp] theorem Dev.bump_dram (d : Dev) (a : Nat) (f : Fld) : (d.bump a f).dram = d.dram := rfl
@[simp] theorem Dev.bump_temps (d : Dev) (a : Nat) (f : Fld) : (d.bump a f).temps = d.temps := rfl
@[simp] theorem Dev.bump_sched (d : Dev) (a : Nat) (f : Fld) : (d.bump a f).sched = d.sched := rfl
@[simp] theorem Dev.bump_pup (d : Dev) (a : Nat) (f : Fld) : (d.bump a f).pup = d.pup := rfl
@[simp] theorem Dev.bump_cores (d : Dev) (a : Nat) (f : Fld) : (d.bump a f).cores = d.cores := rfl
@[simp] theorem Dev.bump_macs (d : Dev) (a : Nat) (f : Fld) : (d.bump a f).macs = d.macs := rfl
@[simp] theorem Dev.bump_cls (d : Dev) (a : Nat) (f : Fld) : (d.bump a f).cls = d.cls := rfl
@[simp] theorem Dev.bump_mgmtIn (d : Dev) (a : Nat) (f : Fld) : (d.bump a f).mgmtIn = d.mgmtIn := rfl
@[simp] theorem Dev.bump_queues (d : Dev) (a : Nat) (f : Fld) : (d.bump a f).queues = d.queues := rfl
@[simp] theorem Dev.bump_ports (d : Dev) (a : Nat) (f : Fld) : (d.bump a f).ports = d.ports := rfl
@[simp] theorem Dev.bump_policers (d : Dev) (a : Nat) (f : Fld) : (d.bump a f).policers = d.policers := rfl
@[simp] theorem Dev.bump_cip (d : Dev) (a : Nat) (f : Fld) : (d.bump a f).cip = d.cip := rfl
@[simp] theorem Dev.bump_drc (d : Dev) (a : Nat) (f : Fld) : (d.bump a f).drc = d.drc := rfl
@[simp] theorem Dev.bump_cal (d : Dev) (a : Nat) (f : Fld) : (d.bump a f).cal = d.cal := rfl
@[simp] theorem Dev.bump_rtc (d : Dev) (a : Nat) (f : Fld) : (d.bump a f).rtc = d.rtc := rfl

/-! ## answer -/

@[simp] theorem Dev.answer_nt (d : Dev) (w : Word) : (d.answer w).nt = d.nt := rfl
@[simp] theorem Dev.answer_xo (d : Dev) (w : Word) : (d.answer w).xo = d.xo := rfl
@[simp] theorem Dev.answer_member (d : Dev) (w : Word) : (d.answer w).member = d.member := rfl
@[simp] theorem Dev.answer_regs (d : Dev) (w : Word) : (d.answer w).regs = d.regs := rfl
@[simp] theorem Dev.answer_free (d : Dev) (w : Word) : (d.answer w).free = d.free := rfl
@[simp] theorem Dev.answer_evt (d : Dev) (w : Word) : (d.answer w).evt = d.evt := rfl
@[simp] theorem Dev.answer_links (d : Dev) (w : Word) : (d.answer w).links = d.links := rfl
@[simp] theorem Dev.answer_clkOff (d : Dev) (w : Word) : (d.answer w).clkOff = d.clkOff := rfl
@[simp] theorem Dev.answer_mons (d : Dev) (w : Word) : (d.answer w).mons = d.mons := rfl
@[simp] theorem Dev.answer_pwr (d : Dev) (w : Word) : (d.answer w).pwr = d.pwr := rfl
@[simp] theorem Dev.answer_boot (d : Dev) (w : Word) : (d.answer w).boot = d.boot := rfl
@[simp] theorem Dev.answer_cmd (d : Dev) (w : Word) : (d.answer w).cmd = d.cmd := rfl
@[simp] theorem Dev.answer_stages (d : Dev) (w : Word) : (d.answer w).stages = d.stages := rfl
@[simp] theorem Dev.answer_stagesFired (d : Dev) (w : Word) : (d.answer w).stagesFired = d.stagesFired := rfl
@[simp] theorem Dev.answer_nvmCopy (d : Dev) (w : Word) : (d.answer w).nvmCopy = d.nvmCopy := rfl
@[simp] theorem Dev.answer_flash (d : Dev) (w : Word) : (d.answer w).flash = d.flash := rfl
@[simp] theorem Dev.answer_fuses (d : Dev) (w : Word) : (d.answer w).fuses = d.fuses := rfl
@[simp] theorem Dev.answer_rootKey (d : Dev) (w : Word) : (d.answer w).rootKey = d.rootKey := rfl
@[simp] theorem Dev.answer_rootProgrammed (d : Dev) (w : Word) : (d.answer w).rootProgrammed = d.rootProgrammed := rfl
@[simp] theorem Dev.answer_rootBlow (d : Dev) (w : Word) : (d.answer w).rootBlow = d.rootBlow := rfl
@[simp] theorem Dev.answer_pubDigest (d : Dev) (w : Word) : (d.answer w).pubDigest = d.pubDigest := rfl
@[simp] theorem Dev.answer_pads (d : Dev) (w : Word) : (d.answer w).pads = d.pads := rfl
@[simp] theorem Dev.answer_cagesFolded (d : Dev) (w : Word) : (d.answer w).cagesFolded = d.cagesFolded := rfl
@[simp] theorem Dev.answer_pins (d : Dev) (w : Word) : (d.answer w).pins = d.pins := rfl
@[simp] theorem Dev.answer_clk (d : Dev) (w : Word) : (d.answer w).clk = d.clk := rfl
@[simp] theorem Dev.answer_acts (d : Dev) (w : Word) : (d.answer w).acts = d.acts := rfl
@[simp] theorem Dev.answer_actsFired (d : Dev) (w : Word) : (d.answer w).actsFired = d.actsFired := rfl
@[simp] theorem Dev.answer_radios (d : Dev) (w : Word) : (d.answer w).radios = d.radios := rfl
@[simp] theorem Dev.answer_kals (d : Dev) (w : Word) : (d.answer w).kals = d.kals := rfl
@[simp] theorem Dev.answer_dram (d : Dev) (w : Word) : (d.answer w).dram = d.dram := rfl
@[simp] theorem Dev.answer_temps (d : Dev) (w : Word) : (d.answer w).temps = d.temps := rfl
@[simp] theorem Dev.answer_sched (d : Dev) (w : Word) : (d.answer w).sched = d.sched := rfl
@[simp] theorem Dev.answer_pup (d : Dev) (w : Word) : (d.answer w).pup = d.pup := rfl
@[simp] theorem Dev.answer_cores (d : Dev) (w : Word) : (d.answer w).cores = d.cores := rfl
@[simp] theorem Dev.answer_macs (d : Dev) (w : Word) : (d.answer w).macs = d.macs := rfl
@[simp] theorem Dev.answer_cls (d : Dev) (w : Word) : (d.answer w).cls = d.cls := rfl
@[simp] theorem Dev.answer_mgmtIn (d : Dev) (w : Word) : (d.answer w).mgmtIn = d.mgmtIn := rfl
@[simp] theorem Dev.answer_queues (d : Dev) (w : Word) : (d.answer w).queues = d.queues := rfl
@[simp] theorem Dev.answer_ports (d : Dev) (w : Word) : (d.answer w).ports = d.ports := rfl
@[simp] theorem Dev.answer_policers (d : Dev) (w : Word) : (d.answer w).policers = d.policers := rfl
@[simp] theorem Dev.answer_cip (d : Dev) (w : Word) : (d.answer w).cip = d.cip := rfl
@[simp] theorem Dev.answer_drc (d : Dev) (w : Word) : (d.answer w).drc = d.drc := rfl
@[simp] theorem Dev.answer_cal (d : Dev) (w : Word) : (d.answer w).cal = d.cal := rfl
@[simp] theorem Dev.answer_rtc (d : Dev) (w : Word) : (d.answer w).rtc = d.rtc := rfl

/-! ## at_ -/

@[simp] theorem Dev.at_member (d : Dev) (t : Nat) : (d.at_ t).member = d.member := rfl
@[simp] theorem Dev.at_regs (d : Dev) (t : Nat) : (d.at_ t).regs = d.regs := rfl
@[simp] theorem Dev.at_rdata (d : Dev) (t : Nat) : (d.at_ t).rdata = d.rdata := rfl
@[simp] theorem Dev.at_free (d : Dev) (t : Nat) : (d.at_ t).free = d.free := rfl
@[simp] theorem Dev.at_evt (d : Dev) (t : Nat) : (d.at_ t).evt = d.evt := rfl
@[simp] theorem Dev.at_links (d : Dev) (t : Nat) : (d.at_ t).links = d.links := rfl
@[simp] theorem Dev.at_clkOff (d : Dev) (t : Nat) : (d.at_ t).clkOff = d.clkOff := rfl
@[simp] theorem Dev.at_mons (d : Dev) (t : Nat) : (d.at_ t).mons = d.mons := rfl
@[simp] theorem Dev.at_pwr (d : Dev) (t : Nat) : (d.at_ t).pwr = d.pwr := rfl
@[simp] theorem Dev.at_boot (d : Dev) (t : Nat) : (d.at_ t).boot = d.boot := rfl
@[simp] theorem Dev.at_cmd (d : Dev) (t : Nat) : (d.at_ t).cmd = d.cmd := rfl
@[simp] theorem Dev.at_stages (d : Dev) (t : Nat) : (d.at_ t).stages = d.stages := rfl
@[simp] theorem Dev.at_stagesFired (d : Dev) (t : Nat) : (d.at_ t).stagesFired = d.stagesFired := rfl
@[simp] theorem Dev.at_nvmCopy (d : Dev) (t : Nat) : (d.at_ t).nvmCopy = d.nvmCopy := rfl
@[simp] theorem Dev.at_flash (d : Dev) (t : Nat) : (d.at_ t).flash = d.flash := rfl
@[simp] theorem Dev.at_fuses (d : Dev) (t : Nat) : (d.at_ t).fuses = d.fuses := rfl
@[simp] theorem Dev.at_rootKey (d : Dev) (t : Nat) : (d.at_ t).rootKey = d.rootKey := rfl
@[simp] theorem Dev.at_rootProgrammed (d : Dev) (t : Nat) : (d.at_ t).rootProgrammed = d.rootProgrammed := rfl
@[simp] theorem Dev.at_rootBlow (d : Dev) (t : Nat) : (d.at_ t).rootBlow = d.rootBlow := rfl
@[simp] theorem Dev.at_pubDigest (d : Dev) (t : Nat) : (d.at_ t).pubDigest = d.pubDigest := rfl
@[simp] theorem Dev.at_pads (d : Dev) (t : Nat) : (d.at_ t).pads = d.pads := rfl
@[simp] theorem Dev.at_cagesFolded (d : Dev) (t : Nat) : (d.at_ t).cagesFolded = d.cagesFolded := rfl
@[simp] theorem Dev.at_pins (d : Dev) (t : Nat) : (d.at_ t).pins = d.pins := rfl
@[simp] theorem Dev.at_clk (d : Dev) (t : Nat) : (d.at_ t).clk = d.clk := rfl
@[simp] theorem Dev.at_acts (d : Dev) (t : Nat) : (d.at_ t).acts = d.acts := rfl
@[simp] theorem Dev.at_actsFired (d : Dev) (t : Nat) : (d.at_ t).actsFired = d.actsFired := rfl
@[simp] theorem Dev.at_radios (d : Dev) (t : Nat) : (d.at_ t).radios = d.radios := rfl
@[simp] theorem Dev.at_kals (d : Dev) (t : Nat) : (d.at_ t).kals = d.kals := rfl
@[simp] theorem Dev.at_dram (d : Dev) (t : Nat) : (d.at_ t).dram = d.dram := rfl
@[simp] theorem Dev.at_temps (d : Dev) (t : Nat) : (d.at_ t).temps = d.temps := rfl
@[simp] theorem Dev.at_sched (d : Dev) (t : Nat) : (d.at_ t).sched = d.sched := rfl
@[simp] theorem Dev.at_pup (d : Dev) (t : Nat) : (d.at_ t).pup = d.pup := rfl
@[simp] theorem Dev.at_cores (d : Dev) (t : Nat) : (d.at_ t).cores = d.cores := rfl
@[simp] theorem Dev.at_macs (d : Dev) (t : Nat) : (d.at_ t).macs = d.macs := rfl
@[simp] theorem Dev.at_cls (d : Dev) (t : Nat) : (d.at_ t).cls = d.cls := rfl
@[simp] theorem Dev.at_mgmtIn (d : Dev) (t : Nat) : (d.at_ t).mgmtIn = d.mgmtIn := rfl
@[simp] theorem Dev.at_queues (d : Dev) (t : Nat) : (d.at_ t).queues = d.queues := rfl
@[simp] theorem Dev.at_ports (d : Dev) (t : Nat) : (d.at_ t).ports = d.ports := rfl
@[simp] theorem Dev.at_policers (d : Dev) (t : Nat) : (d.at_ t).policers = d.policers := rfl
@[simp] theorem Dev.at_cip (d : Dev) (t : Nat) : (d.at_ t).cip = d.cip := rfl
@[simp] theorem Dev.at_drc (d : Dev) (t : Nat) : (d.at_ t).drc = d.drc := rfl
@[simp] theorem Dev.at_cal (d : Dev) (t : Nat) : (d.at_ t).cal = d.cal := rfl
@[simp] theorem Dev.at_rtc (d : Dev) (t : Nat) : (d.at_ t).rtc = d.rtc := rfl

/-! ## setDom -/

@[simp] theorem Dev.setDom_nt (d : Dev) (c st : Nat) : (d.setDom c st).nt = d.nt := rfl
@[simp] theorem Dev.setDom_xo (d : Dev) (c st : Nat) : (d.setDom c st).xo = d.xo := rfl
@[simp] theorem Dev.setDom_member (d : Dev) (c st : Nat) : (d.setDom c st).member = d.member := rfl
@[simp] theorem Dev.setDom_regs (d : Dev) (c st : Nat) : (d.setDom c st).regs = d.regs := rfl
@[simp] theorem Dev.setDom_rdata (d : Dev) (c st : Nat) : (d.setDom c st).rdata = d.rdata := rfl
@[simp] theorem Dev.setDom_free (d : Dev) (c st : Nat) : (d.setDom c st).free = d.free := rfl
@[simp] theorem Dev.setDom_evt (d : Dev) (c st : Nat) : (d.setDom c st).evt = d.evt := rfl
@[simp] theorem Dev.setDom_links (d : Dev) (c st : Nat) : (d.setDom c st).links = d.links := rfl
@[simp] theorem Dev.setDom_clkOff (d : Dev) (c st : Nat) : (d.setDom c st).clkOff = d.clkOff := rfl
@[simp] theorem Dev.setDom_mons (d : Dev) (c st : Nat) : (d.setDom c st).mons = d.mons := rfl
@[simp] theorem Dev.setDom_boot (d : Dev) (c st : Nat) : (d.setDom c st).boot = d.boot := rfl
@[simp] theorem Dev.setDom_cmd (d : Dev) (c st : Nat) : (d.setDom c st).cmd = d.cmd := rfl
@[simp] theorem Dev.setDom_stages (d : Dev) (c st : Nat) : (d.setDom c st).stages = d.stages := rfl
@[simp] theorem Dev.setDom_stagesFired (d : Dev) (c st : Nat) : (d.setDom c st).stagesFired = d.stagesFired := rfl
@[simp] theorem Dev.setDom_nvmCopy (d : Dev) (c st : Nat) : (d.setDom c st).nvmCopy = d.nvmCopy := rfl
@[simp] theorem Dev.setDom_flash (d : Dev) (c st : Nat) : (d.setDom c st).flash = d.flash := rfl
@[simp] theorem Dev.setDom_fuses (d : Dev) (c st : Nat) : (d.setDom c st).fuses = d.fuses := rfl
@[simp] theorem Dev.setDom_rootKey (d : Dev) (c st : Nat) : (d.setDom c st).rootKey = d.rootKey := rfl
@[simp] theorem Dev.setDom_rootProgrammed (d : Dev) (c st : Nat) : (d.setDom c st).rootProgrammed = d.rootProgrammed := rfl
@[simp] theorem Dev.setDom_rootBlow (d : Dev) (c st : Nat) : (d.setDom c st).rootBlow = d.rootBlow := rfl
@[simp] theorem Dev.setDom_pubDigest (d : Dev) (c st : Nat) : (d.setDom c st).pubDigest = d.pubDigest := rfl
@[simp] theorem Dev.setDom_pads (d : Dev) (c st : Nat) : (d.setDom c st).pads = d.pads := rfl
@[simp] theorem Dev.setDom_cagesFolded (d : Dev) (c st : Nat) : (d.setDom c st).cagesFolded = d.cagesFolded := rfl
@[simp] theorem Dev.setDom_pins (d : Dev) (c st : Nat) : (d.setDom c st).pins = d.pins := rfl
@[simp] theorem Dev.setDom_clk (d : Dev) (c st : Nat) : (d.setDom c st).clk = d.clk := rfl
@[simp] theorem Dev.setDom_acts (d : Dev) (c st : Nat) : (d.setDom c st).acts = d.acts := rfl
@[simp] theorem Dev.setDom_actsFired (d : Dev) (c st : Nat) : (d.setDom c st).actsFired = d.actsFired := rfl
@[simp] theorem Dev.setDom_radios (d : Dev) (c st : Nat) : (d.setDom c st).radios = d.radios := rfl
@[simp] theorem Dev.setDom_kals (d : Dev) (c st : Nat) : (d.setDom c st).kals = d.kals := rfl
@[simp] theorem Dev.setDom_dram (d : Dev) (c st : Nat) : (d.setDom c st).dram = d.dram := rfl
@[simp] theorem Dev.setDom_temps (d : Dev) (c st : Nat) : (d.setDom c st).temps = d.temps := rfl
@[simp] theorem Dev.setDom_sched (d : Dev) (c st : Nat) : (d.setDom c st).sched = d.sched := rfl
@[simp] theorem Dev.setDom_pup (d : Dev) (c st : Nat) : (d.setDom c st).pup = d.pup := rfl
@[simp] theorem Dev.setDom_cores (d : Dev) (c st : Nat) : (d.setDom c st).cores = d.cores := rfl
@[simp] theorem Dev.setDom_macs (d : Dev) (c st : Nat) : (d.setDom c st).macs = d.macs := rfl
@[simp] theorem Dev.setDom_cls (d : Dev) (c st : Nat) : (d.setDom c st).cls = d.cls := rfl
@[simp] theorem Dev.setDom_mgmtIn (d : Dev) (c st : Nat) : (d.setDom c st).mgmtIn = d.mgmtIn := rfl
@[simp] theorem Dev.setDom_queues (d : Dev) (c st : Nat) : (d.setDom c st).queues = d.queues := rfl
@[simp] theorem Dev.setDom_ports (d : Dev) (c st : Nat) : (d.setDom c st).ports = d.ports := rfl
@[simp] theorem Dev.setDom_policers (d : Dev) (c st : Nat) : (d.setDom c st).policers = d.policers := rfl
@[simp] theorem Dev.setDom_cip (d : Dev) (c st : Nat) : (d.setDom c st).cip = d.cip := rfl
@[simp] theorem Dev.setDom_drc (d : Dev) (c st : Nat) : (d.setDom c st).drc = d.drc := rfl
@[simp] theorem Dev.setDom_cal (d : Dev) (c st : Nat) : (d.setDom c st).cal = d.cal := rfl
@[simp] theorem Dev.setDom_rtc (d : Dev) (c st : Nat) : (d.setDom c st).rtc = d.rtc := rfl

/-! ## setLink -/

@[simp] theorem Dev.setLink_nt (d : Dev) (n : Nat) (l : Link) : (d.setLink n l).nt = d.nt := rfl
@[simp] theorem Dev.setLink_xo (d : Dev) (n : Nat) (l : Link) : (d.setLink n l).xo = d.xo := rfl
@[simp] theorem Dev.setLink_member (d : Dev) (n : Nat) (l : Link) : (d.setLink n l).member = d.member := rfl
@[simp] theorem Dev.setLink_regs (d : Dev) (n : Nat) (l : Link) : (d.setLink n l).regs = d.regs := rfl
@[simp] theorem Dev.setLink_rdata (d : Dev) (n : Nat) (l : Link) : (d.setLink n l).rdata = d.rdata := rfl
@[simp] theorem Dev.setLink_free (d : Dev) (n : Nat) (l : Link) : (d.setLink n l).free = d.free := rfl
@[simp] theorem Dev.setLink_evt (d : Dev) (n : Nat) (l : Link) : (d.setLink n l).evt = d.evt := rfl
@[simp] theorem Dev.setLink_clkOff (d : Dev) (n : Nat) (l : Link) : (d.setLink n l).clkOff = d.clkOff := rfl
@[simp] theorem Dev.setLink_mons (d : Dev) (n : Nat) (l : Link) : (d.setLink n l).mons = d.mons := rfl
@[simp] theorem Dev.setLink_pwr (d : Dev) (n : Nat) (l : Link) : (d.setLink n l).pwr = d.pwr := rfl
@[simp] theorem Dev.setLink_boot (d : Dev) (n : Nat) (l : Link) : (d.setLink n l).boot = d.boot := rfl
@[simp] theorem Dev.setLink_cmd (d : Dev) (n : Nat) (l : Link) : (d.setLink n l).cmd = d.cmd := rfl
@[simp] theorem Dev.setLink_stages (d : Dev) (n : Nat) (l : Link) : (d.setLink n l).stages = d.stages := rfl
@[simp] theorem Dev.setLink_stagesFired (d : Dev) (n : Nat) (l : Link) : (d.setLink n l).stagesFired = d.stagesFired := rfl
@[simp] theorem Dev.setLink_nvmCopy (d : Dev) (n : Nat) (l : Link) : (d.setLink n l).nvmCopy = d.nvmCopy := rfl
@[simp] theorem Dev.setLink_flash (d : Dev) (n : Nat) (l : Link) : (d.setLink n l).flash = d.flash := rfl
@[simp] theorem Dev.setLink_fuses (d : Dev) (n : Nat) (l : Link) : (d.setLink n l).fuses = d.fuses := rfl
@[simp] theorem Dev.setLink_rootKey (d : Dev) (n : Nat) (l : Link) : (d.setLink n l).rootKey = d.rootKey := rfl
@[simp] theorem Dev.setLink_rootProgrammed (d : Dev) (n : Nat) (l : Link) : (d.setLink n l).rootProgrammed = d.rootProgrammed := rfl
@[simp] theorem Dev.setLink_rootBlow (d : Dev) (n : Nat) (l : Link) : (d.setLink n l).rootBlow = d.rootBlow := rfl
@[simp] theorem Dev.setLink_pubDigest (d : Dev) (n : Nat) (l : Link) : (d.setLink n l).pubDigest = d.pubDigest := rfl
@[simp] theorem Dev.setLink_pads (d : Dev) (n : Nat) (l : Link) : (d.setLink n l).pads = d.pads := rfl
@[simp] theorem Dev.setLink_cagesFolded (d : Dev) (n : Nat) (l : Link) : (d.setLink n l).cagesFolded = d.cagesFolded := rfl
@[simp] theorem Dev.setLink_pins (d : Dev) (n : Nat) (l : Link) : (d.setLink n l).pins = d.pins := rfl
@[simp] theorem Dev.setLink_clk (d : Dev) (n : Nat) (l : Link) : (d.setLink n l).clk = d.clk := rfl
@[simp] theorem Dev.setLink_acts (d : Dev) (n : Nat) (l : Link) : (d.setLink n l).acts = d.acts := rfl
@[simp] theorem Dev.setLink_actsFired (d : Dev) (n : Nat) (l : Link) : (d.setLink n l).actsFired = d.actsFired := rfl
@[simp] theorem Dev.setLink_radios (d : Dev) (n : Nat) (l : Link) : (d.setLink n l).radios = d.radios := rfl
@[simp] theorem Dev.setLink_kals (d : Dev) (n : Nat) (l : Link) : (d.setLink n l).kals = d.kals := rfl
@[simp] theorem Dev.setLink_dram (d : Dev) (n : Nat) (l : Link) : (d.setLink n l).dram = d.dram := rfl
@[simp] theorem Dev.setLink_temps (d : Dev) (n : Nat) (l : Link) : (d.setLink n l).temps = d.temps := rfl
@[simp] theorem Dev.setLink_sched (d : Dev) (n : Nat) (l : Link) : (d.setLink n l).sched = d.sched := rfl
@[simp] theorem Dev.setLink_pup (d : Dev) (n : Nat) (l : Link) : (d.setLink n l).pup = d.pup := rfl
@[simp] theorem Dev.setLink_cores (d : Dev) (n : Nat) (l : Link) : (d.setLink n l).cores = d.cores := rfl
@[simp] theorem Dev.setLink_macs (d : Dev) (n : Nat) (l : Link) : (d.setLink n l).macs = d.macs := rfl
@[simp] theorem Dev.setLink_cls (d : Dev) (n : Nat) (l : Link) : (d.setLink n l).cls = d.cls := rfl
@[simp] theorem Dev.setLink_mgmtIn (d : Dev) (n : Nat) (l : Link) : (d.setLink n l).mgmtIn = d.mgmtIn := rfl
@[simp] theorem Dev.setLink_queues (d : Dev) (n : Nat) (l : Link) : (d.setLink n l).queues = d.queues := rfl
@[simp] theorem Dev.setLink_ports (d : Dev) (n : Nat) (l : Link) : (d.setLink n l).ports = d.ports := rfl
@[simp] theorem Dev.setLink_policers (d : Dev) (n : Nat) (l : Link) : (d.setLink n l).policers = d.policers := rfl
@[simp] theorem Dev.setLink_cip (d : Dev) (n : Nat) (l : Link) : (d.setLink n l).cip = d.cip := rfl
@[simp] theorem Dev.setLink_drc (d : Dev) (n : Nat) (l : Link) : (d.setLink n l).drc = d.drc := rfl
@[simp] theorem Dev.setLink_cal (d : Dev) (n : Nat) (l : Link) : (d.setLink n l).cal = d.cal := rfl
@[simp] theorem Dev.setLink_rtc (d : Dev) (n : Nat) (l : Link) : (d.setLink n l).rtc = d.rtc := rfl

end Sys2Proof.Machine
end

