-- ==== Sys2Proof/Laws/Regs.lean ====
section
/-! SUPPORT. What a register and its fields read as after each named operation over them. -/

namespace Sys2Proof.Machine

open Sys2Proof

/-! ## Fields of a word -/

/-- A field that lies in a 32-bit word. -/
def Fld.ok (f : Fld) : Bool := decide (f.lo ≤ f.hi) && decide (f.hi < 32)

/-- Two fields with no bit in common. -/
def Fld.apart (f g : Fld) : Bool := decide (f.hi < g.lo) || decide (g.hi < f.lo)

theorem Fld.into_toNat (f : Fld) (hf : f.ok = true) (w : Word) (v : Nat) :
    (f.into w v).toNat = w.toNat / 2 ^ (f.hi + 1) * 2 ^ (f.hi + 1) + v % 2 ^ (f.hi - f.lo + 1) * 2 ^ f.lo + w.toNat % 2 ^ f.lo := by
  simp only [Fld.ok, Bool.and_eq_true, decide_eq_true_eq] at hf
  obtain ⟨h1, h2⟩ := hf
  rw [Fld.into, BitVec.toNat_ofNat, Nat.mod_eq_of_lt]
  have hw : w.toNat < 2 ^ 32 := w.isLt
  have e1 : 2 ^ (f.hi + 1) = 2 ^ (f.hi - f.lo + 1) * 2 ^ f.lo := by rw [← Nat.pow_add]; congr 1; omega
  have e2 : (2 : Nat) ^ 32 = 2 ^ (32 - (f.hi + 1)) * 2 ^ (f.hi + 1) := by rw [← Nat.pow_add]; congr 1; omega
  have a1 : v % 2 ^ (f.hi - f.lo + 1) + 1 ≤ 2 ^ (f.hi - f.lo + 1) := Nat.mod_lt _ (Nat.two_pow_pos _)
  have a2 : w.toNat % 2 ^ f.lo < 2 ^ f.lo := Nat.mod_lt _ (Nat.two_pow_pos _)
  have a3 : w.toNat / 2 ^ (f.hi + 1) + 1 ≤ 2 ^ (32 - (f.hi + 1)) := by
    apply Nat.div_lt_of_lt_mul; rw [Nat.mul_comm, ← e2]; exact hw
  have b1 := Nat.mul_le_mul_right (2 ^ f.lo) a1
  have b3 := Nat.mul_le_mul_right (2 ^ (f.hi + 1)) a3
  rw [Nat.add_mul, Nat.one_mul] at b1 b3
  rw [← e1] at b1; rw [← e2] at b3
  omega

/-- A field reads what was put into it, cut to its width. -/
theorem Fld.of_into (f : Fld) (hf : f.ok = true) (w : Word) (v : Nat) : f.of (f.into w v) = v % 2 ^ (f.hi - f.lo + 1) := by
  rw [Fld.of, Fld.into_toNat f hf]
  simp only [Fld.ok, Bool.and_eq_true, decide_eq_true_eq] at hf
  have e1 : 2 ^ (f.hi + 1) = 2 ^ (f.hi - f.lo + 1) * 2 ^ f.lo := by rw [← Nat.pow_add]; congr 1; omega
  rw [e1, ← Nat.mul_assoc, ← Nat.add_mul, Nat.add_comm, Nat.add_mul_div_right _ _ (Nat.two_pow_pos _),
    Nat.div_eq_of_lt (Nat.mod_lt _ (Nat.two_pow_pos _)), Nat.zero_add, Nat.add_comm, Nat.add_mul_mod_self_right, Nat.mod_mod]

theorem Fld.of_testBit (f : Fld) (w : Word) (i : Nat) :
    (f.of w).testBit i = (decide (i < f.hi - f.lo + 1) && w.toNat.testBit (f.lo + i)) := by
  rw [Fld.of, Nat.testBit_mod_two_pow, Nat.testBit_div_two_pow, Nat.add_comm i]

theorem Fld.into_testBit (f : Fld) (hf : f.ok = true) (w : Word) (v i : Nat) (hi : i < f.lo ∨ f.hi < i) :
    (f.into w v).toNat.testBit i = w.toNat.testBit i := by
  rw [Fld.into_toNat f hf]
  simp only [Fld.ok, Bool.and_eq_true, decide_eq_true_eq] at hf
  have e1 : 2 ^ (f.hi + 1) = 2 ^ (f.hi - f.lo + 1) * 2 ^ f.lo := by rw [← Nat.pow_add]; congr 1; omega
  have a1 : v % 2 ^ (f.hi - f.lo + 1) + 1 ≤ 2 ^ (f.hi - f.lo + 1) := Nat.mod_lt _ (Nat.two_pow_pos _)
  have a2 : w.toNat % 2 ^ f.lo < 2 ^ f.lo := Nat.mod_lt _ (Nat.two_pow_pos _)
  have b1 := Nat.mul_le_mul_right (2 ^ f.lo) a1
  rw [Nat.add_mul, Nat.one_mul, ← e1] at b1
  rw [Nat.add_assoc, Nat.mul_comm (w.toNat / 2 ^ (f.hi + 1)), Nat.testBit_two_pow_mul_add _ (by omega)]
  split
  · rcases hi with hi | hi
    · rw [Nat.mul_comm, Nat.testBit_two_pow_mul_add _ a2, if_pos hi, Nat.testBit_mod_two_pow]; simp [hi]
    · omega
  · rw [Nat.testBit_div_two_pow]; congr 1; omega

/-- A field keeps its value when another field is put. -/
theorem Fld.of_into_apart (f g : Fld) (hf : f.ok = true) (hg : g.ok = true) (h : f.apart g = true) (w : Word) (v : Nat) :
    g.of (f.into w v) = g.of w := by
  apply Nat.eq_of_testBit_eq
  intro i
  rw [Fld.of_testBit, Fld.of_testBit]
  by_cases hi : i < g.hi - g.lo + 1
  · rw [Fld.into_testBit f hf]
    simp only [Fld.ok, Bool.and_eq_true, decide_eq_true_eq] at hg
    simp only [Fld.apart, Bool.or_eq_true, decide_eq_true_eq] at h
    rcases h with h | h
    · right; omega
    · left; omega
  · simp [hi]

/-! ## Registers -/

@[simp] theorem Dev.word_setWord_same (d : Dev) (a : Nat) (w : Word) : (d.setWord a w).word a = w := smGet_set_same ..

theorem Dev.word_setWord_ne (d : Dev) {a b : Nat} (h : b ≠ a) (w : Word) : (d.setWord a w).word b = d.word b := smGet_set_ne _ _ h _

theorem Dev.word_setWord (d : Dev) (a b : Nat) (w : Word) : (d.setWord a w).word b = if b = a then w else d.word b := smGet_set ..

theorem Dev.word_put_ne (d : Dev) {a b : Nat} (h : b ≠ a) (f : Fld) (v : Nat) : (d.put a f v).word b = d.word b := d.word_setWord_ne h _

/-- A field put reads back, cut to its width. -/
theorem Dev.get_put_same (d : Dev) (a : Nat) (f : Fld) (v : Nat) (hf : f.ok = true) :
    (d.put a f v).get a f = v % 2 ^ (f.hi - f.lo + 1) := by rw [Dev.get, Dev.put, Dev.word_setWord_same, Fld.of_into f hf]

/-- A put leaves every other field of its register. -/
theorem Dev.get_put_apart (d : Dev) (a : Nat) (f g : Fld) (v : Nat) (hf : f.ok = true) (hg : g.ok = true) (h : f.apart g = true) :
    (d.put a f v).get a g = d.get a g := by rw [Dev.get, Dev.put, Dev.word_setWord_same, Fld.of_into_apart f g hf hg h, Dev.get]

/-- A put leaves every other register. -/
theorem Dev.get_put_ne (d : Dev) {a b : Nat} (h : b ≠ a) (f g : Fld) (v : Nat) : (d.put a f v).get b g = d.get b g := by
  rw [Dev.get, d.word_put_ne h, Dev.get]

theorem Fld.of_le_top (f : Fld) (w : Word) : f.of w ≤ f.top := by
  have := Nat.mod_lt (w.toNat / 2 ^ f.lo) (Nat.two_pow_pos (f.hi - f.lo + 1))
  simp only [Fld.of, Fld.top]; omega

/-- A counting field counts up to its largest value. -/
theorem Dev.get_bumpBy_same (d : Dev) (a : Nat) (f : Fld) (n : Nat) (hf : f.ok = true) :
    (d.bumpBy a f n).get a f = min (d.get a f + n) f.top := by
  rw [Dev.bumpBy, Dev.get_put_same _ _ _ _ hf, Nat.mod_eq_of_lt]
  have : 0 < 2 ^ (f.hi - f.lo + 1) := Nat.two_pow_pos _
  have : min (d.get a f + n) f.top ≤ f.top := Nat.min_le_right ..
  simp only [Fld.top] at *; omega

theorem Dev.get_bump_same (d : Dev) (a : Nat) (f : Fld) (hf : f.ok = true) :
    (d.bump a f).get a f = min (d.get a f + 1) f.top := d.get_bumpBy_same a f 1 hf

theorem Dev.word_bump_ne (d : Dev) {a b : Nat} (h : b ≠ a) (f : Fld) : (d.bump a f).word b = d.word b := d.word_put_ne h ..

theorem Dev.get_bump_ne (d : Dev) {a b : Nat} (h : b ≠ a) (f g : Fld) : (d.bump a f).get b g = d.get b g := d.get_put_ne h ..

@[simp] theorem Dev.word_answer (d : Dev) (w : Word) (a : Nat) : (d.answer w).word a = d.word a := rfl
@[simp] theorem Dev.get_answer (d : Dev) (w : Word) (a : Nat) (f : Fld) : (d.answer w).get a f = d.get a f := rfl
@[simp] theorem Dev.rdata_answer (d : Dev) (w : Word) : (d.answer w).rdata = w := rfl
@[simp] theorem Dev.word_at_ (d : Dev) (t a : Nat) : (d.at_ t).word a = d.word a := rfl
@[simp] theorem Dev.get_at_ (d : Dev) (t a : Nat) (f : Fld) : (d.at_ t).get a f = d.get a f := rfl
@[simp] theorem Dev.nt_at_ (d : Dev) (t : Nat) : (d.at_ t).nt = max d.nt t := rfl
@[simp] theorem Dev.hubUp_at_ (d : Dev) (t : Nat) : (d.at_ t).hubUp = d.hubUp := rfl

end Sys2Proof.Machine
end

