-- ==== Sys2Proof/Laws/Settle.lean ====
section
/-! SUPPORT. What the end of a command can change: the event log and its counts, notifications, the trim window and the pins; and nothing else. -/

namespace Sys2Proof.Machine

open Sys2Proof

/-- Two devices that differ at most in what logging and routing of events touches. -/
def EventsOnly (d e : Dev) : Prop :=
  ∃ log pend out regs i2c,
    e = { d with evt := { d.evt with log := log, pend := pend, mgmtOut := out }, regs := regs, cmd := { d.cmd with i2c := i2c } } ∧
    ∀ a, a ≠ R.EVT_LOG_STAT → a ≠ R.EVT_NOTIFY → smGet resetWord regs a = d.word a

theorem EventsOnly.refl (d : Dev) : EventsOnly d d := ⟨_, _, _, _, _, rfl, fun _ _ _ => rfl⟩

theorem EventsOnly.trans {d e f : Dev} (h : EventsOnly d e) (g : EventsOnly e f) : EventsOnly d f := by
  obtain ⟨l, p, o, r, i, rfl, hr⟩ := h
  obtain ⟨l', p', o', r', i', rfl, hr'⟩ := g
  exact ⟨l', p', o', r', i', rfl, fun a h1 h2 => (hr' a h1 h2).trans (hr a h1 h2)⟩

theorem EventsOnly.word {d e : Dev} (h : EventsOnly d e) {a : Nat} (h1 : a ≠ R.EVT_LOG_STAT) (h2 : a ≠ R.EVT_NOTIFY) : e.word a = d.word a := by
  obtain ⟨l, p, o, r, i, rfl, hr⟩ := h
  exact hr a h1 h2

theorem eventsOnly_bump (d : Dev) (a : Nat) (f : Fld) (ha : a = R.EVT_LOG_STAT ∨ a = R.EVT_NOTIFY) : EventsOnly d (d.bump a f) :=
  ⟨_, _, _, _, _, rfl, fun b h1 h2 => d.word_bump_ne (by rcases ha with rfl | rfl <;> assumption) f⟩

theorem eventsOnly_logAppend (d : Dev) (r : LogRec) : EventsOnly d (d.logAppend r) := by
  unfold Dev.logAppend
  split
  · exact ⟨_, _, _, _, _, rfl, fun _ _ _ => rfl⟩
  · exact eventsOnly_bump _ _ _ (.inl rfl)

theorem eventsOnly_routeEvt (d : Dev) (src seq : Nat) (r : LogRec) : EventsOnly d (d.routeEvt src seq r) := by
  unfold Dev.routeEvt
  split
  · unfold Dev.notifyI2c
    split
    · exact ⟨_, _, _, _, _, rfl, fun _ _ _ => rfl⟩
    · exact eventsOnly_bump _ _ _ (.inr rfl)
  · exact ⟨_, _, _, _, _, rfl, fun _ _ _ => rfl⟩
  · exact .refl d

theorem eventsOnly_logEvt (d : Dev) (e : PendEvt) : EventsOnly d (d.logEvt e) := by
  unfold Dev.logEvt
  split
  · exact (eventsOnly_logAppend d _).trans (eventsOnly_routeEvt _ _ _ _)
  · exact .refl d

theorem eventsOnly_foldl (es : List PendEvt) (d : Dev) : EventsOnly d (es.foldl Dev.logEvt d) := by
  induction es generalizing d with
  | nil => exact .refl d
  | cons e es ih => exact (eventsOnly_logEvt d e).trans (ih _)

theorem eventsOnly_flush (d : Dev) : EventsOnly d d.flushEvents :=
  EventsOnly.trans (e := { d with evt := { d.evt with pend := [] } }) ⟨_, _, _, _, _, rfl, fun _ _ _ => rfl⟩ (eventsOnly_foldl _ _)

theorem pend_foldl (es : List PendEvt) (d : Dev) : (es.foldl Dev.logEvt d).evt.pend = d.evt.pend := by
  induction es generalizing d with
  | nil => rfl
  | cons e es ih =>
    rw [List.foldl_cons, ih]
    unfold Dev.logEvt Dev.logAppend Dev.routeEvt Dev.notifyI2c
    split
    · split <;> split <;> (try split) <;> rfl
    · rfl

/-- No event waits once a command has ended. -/
theorem pend_flush (d : Dev) : d.flushEvents.evt.pend = [] := pend_foldl _ _

theorem trimSync_eq (d : Dev) : ∃ w, d.trimSync = { d with rtc := { d.rtc with trimAt := w } } := by
  unfold Dev.trimSync
  split
  · split
    · exact ⟨_, rfl⟩
    · exact ⟨_, rfl⟩
  · exact ⟨_, rfl⟩

/-- All that the end of a command can change. -/
theorem settle_eq (d : Dev) : ∃ log out regs i2c w,
    d.settle = { d with
      evt := { d.evt with log := log, pend := [], mgmtOut := out }, regs := regs, cmd := { d.cmd with i2c := i2c }
      rtc := { d.rtc with trimAt := w }, pins := d.settle.pins } ∧
    ∀ a, a ≠ R.EVT_LOG_STAT → a ≠ R.EVT_NOTIFY → smGet resetWord regs a = d.word a := by
  obtain ⟨w, hw⟩ := trimSync_eq d
  have hf := eventsOnly_flush d.trimSync
  have hp := pend_flush d.trimSync
  obtain ⟨l, p, o, r, i, he, hr⟩ := hf
  have hset : d.settle = { d.trimSync.flushEvents with pins := d.trimSync.flushEvents.pinsOf } := rfl
  rw [he] at hp
  refine ⟨l, o, r, i, w, ?_, fun a h1 h2 => ?_⟩
  · rw [hset, he]
    simp only at hp
    subst hp
    rw [hw]
  · rw [hr a h1 h2, hw]; rfl

/-- The end of a command leaves every register but the counts of lost records and notifications. -/
theorem settle_word (d : Dev) {a : Nat} (h1 : a ≠ R.EVT_LOG_STAT) (h2 : a ≠ R.EVT_NOTIFY) : d.settle.word a = d.word a := by
  obtain ⟨l, o, r, i, w, he, hr⟩ := settle_eq d
  rw [he]; exact hr a h1 h2

theorem settle_get (d : Dev) {a : Nat} (f : Fld) (h1 : a ≠ R.EVT_LOG_STAT) (h2 : a ≠ R.EVT_NOTIFY) : d.settle.get a f = d.get a f := by
  rw [Dev.get, settle_word d h1 h2, Dev.get]

theorem settle_flag (d : Dev) {a : Nat} (f : Fld) (h1 : a ≠ R.EVT_LOG_STAT) (h2 : a ≠ R.EVT_NOTIFY) : d.settle.flag a f = d.flag a f := by
  rw [Dev.flag, settle_get d f h1 h2, Dev.flag]

@[simp] theorem settle_evtStatus (d : Dev) (n : Nat) : d.settle.evtStatus n = d.evtStatus n := by
  rw [Dev.evtStatus, settle_word, Dev.evtStatus] <;> unfold evtStatusReg <;> split <;> decide

@[simp] theorem settle_pend (d : Dev) : d.settle.evt.pend = [] := pend_flush _

@[simp] theorem settle_nt (d : Dev) : d.settle.nt = d.nt := by obtain ⟨l, o, r, i, w, he, -⟩ := settle_eq d; rw [he]
@[simp] theorem settle_xo (d : Dev) : d.settle.xo = d.xo := by obtain ⟨l, o, r, i, w, he, -⟩ := settle_eq d; rw [he]
@[simp] theorem settle_member (d : Dev) : d.settle.member = d.member := by obtain ⟨l, o, r, i, w, he, -⟩ := settle_eq d; rw [he]
@[simp] theorem settle_rdata (d : Dev) : d.settle.rdata = d.rdata := by obtain ⟨l, o, r, i, w, he, -⟩ := settle_eq d; rw [he]
@[simp] theorem settle_free (d : Dev) : d.settle.free = d.free := by obtain ⟨l, o, r, i, w, he, -⟩ := settle_eq d; rw [he]
@[simp] theorem settle_links (d : Dev) : d.settle.links = d.links := by obtain ⟨l, o, r, i, w, he, -⟩ := settle_eq d; rw [he]
@[simp] theorem settle_clkOff (d : Dev) : d.settle.clkOff = d.clkOff := by obtain ⟨l, o, r, i, w, he, -⟩ := settle_eq d; rw [he]
@[simp] theorem settle_mons (d : Dev) : d.settle.mons = d.mons := by obtain ⟨l, o, r, i, w, he, -⟩ := settle_eq d; rw [he]
@[simp] theorem settle_pwr (d : Dev) : d.settle.pwr = d.pwr := by obtain ⟨l, o, r, i, w, he, -⟩ := settle_eq d; rw [he]
@[simp] theorem settle_boot (d : Dev) : d.settle.boot = d.boot := by obtain ⟨l, o, r, i, w, he, -⟩ := settle_eq d; rw [he]
@[simp] theorem settle_stages (d : Dev) : d.settle.stages = d.stages := by obtain ⟨l, o, r, i, w, he, -⟩ := settle_eq d; rw [he]
@[simp] theorem settle_stagesFired (d : Dev) : d.settle.stagesFired = d.stagesFired := by obtain ⟨l, o, r, i, w, he, -⟩ := settle_eq d; rw [he]
@[simp] theorem settle_nvmCopy (d : Dev) : d.settle.nvmCopy = d.nvmCopy := by obtain ⟨l, o, r, i, w, he, -⟩ := settle_eq d; rw [he]
@[simp] theorem settle_flash (d : Dev) : d.settle.flash = d.flash := by obtain ⟨l, o, r, i, w, he, -⟩ := settle_eq d; rw [he]
@[simp] theorem settle_fuses (d : Dev) : d.settle.fuses = d.fuses := by obtain ⟨l, o, r, i, w, he, -⟩ := settle_eq d; rw [he]
@[simp] theorem settle_rootKey (d : Dev) : d.settle.rootKey = d.rootKey := by obtain ⟨l, o, r, i, w, he, -⟩ := settle_eq d; rw [he]
@[simp] theorem settle_rootProgrammed (d : Dev) : d.settle.rootProgrammed = d.rootProgrammed := by obtain ⟨l, o, r, i, w, he, -⟩ := settle_eq d; rw [he]
@[simp] theorem settle_rootBlow (d : Dev) : d.settle.rootBlow = d.rootBlow := by obtain ⟨l, o, r, i, w, he, -⟩ := settle_eq d; rw [he]
@[simp] theorem settle_pubDigest (d : Dev) : d.settle.pubDigest = d.pubDigest := by obtain ⟨l, o, r, i, w, he, -⟩ := settle_eq d; rw [he]
@[simp] theorem settle_pads (d : Dev) : d.settle.pads = d.pads := by obtain ⟨l, o, r, i, w, he, -⟩ := settle_eq d; rw [he]
@[simp] theorem settle_cagesFolded (d : Dev) : d.settle.cagesFolded = d.cagesFolded := by obtain ⟨l, o, r, i, w, he, -⟩ := settle_eq d; rw [he]
@[simp] theorem settle_clk (d : Dev) : d.settle.clk = d.clk := by obtain ⟨l, o, r, i, w, he, -⟩ := settle_eq d; rw [he]
@[simp] theorem settle_acts (d : Dev) : d.settle.acts = d.acts := by obtain ⟨l, o, r, i, w, he, -⟩ := settle_eq d; rw [he]
@[simp] theorem settle_actsFired (d : Dev) : d.settle.actsFired = d.actsFired := by obtain ⟨l, o, r, i, w, he, -⟩ := settle_eq d; rw [he]
@[simp] theorem settle_radios (d : Dev) : d.settle.radios = d.radios := by obtain ⟨l, o, r, i, w, he, -⟩ := settle_eq d; rw [he]
@[simp] theorem settle_kals (d : Dev) : d.settle.kals = d.kals := by obtain ⟨l, o, r, i, w, he, -⟩ := settle_eq d; rw [he]
@[simp] theorem settle_dram (d : Dev) : d.settle.dram = d.dram := by obtain ⟨l, o, r, i, w, he, -⟩ := settle_eq d; rw [he]
@[simp] theorem settle_temps (d : Dev) : d.settle.temps = d.temps := by obtain ⟨l, o, r, i, w, he, -⟩ := settle_eq d; rw [he]
@[simp] theorem settle_sched (d : Dev) : d.settle.sched = d.sched := by obtain ⟨l, o, r, i, w, he, -⟩ := settle_eq d; rw [he]
@[simp] theorem settle_pup (d : Dev) : d.settle.pup = d.pup := by obtain ⟨l, o, r, i, w, he, -⟩ := settle_eq d; rw [he]
@[simp] theorem settle_cores (d : Dev) : d.settle.cores = d.cores := by obtain ⟨l, o, r, i, w, he, -⟩ := settle_eq d; rw [he]
@[simp] theorem settle_macs (d : Dev) : d.settle.macs = d.macs := by obtain ⟨l, o, r, i, w, he, -⟩ := settle_eq d; rw [he]
@[simp] theorem settle_cls (d : Dev) : d.settle.cls = d.cls := by obtain ⟨l, o, r, i, w, he, -⟩ := settle_eq d; rw [he]
@[simp] theorem settle_mgmtIn (d : Dev) : d.settle.mgmtIn = d.mgmtIn := by obtain ⟨l, o, r, i, w, he, -⟩ := settle_eq d; rw [he]
@[simp] theorem settle_queues (d : Dev) : d.settle.queues = d.queues := by obtain ⟨l, o, r, i, w, he, -⟩ := settle_eq d; rw [he]
@[simp] theorem settle_ports (d : Dev) : d.settle.ports = d.ports := by obtain ⟨l, o, r, i, w, he, -⟩ := settle_eq d; rw [he]
@[simp] theorem settle_policers (d : Dev) : d.settle.policers = d.policers := by obtain ⟨l, o, r, i, w, he, -⟩ := settle_eq d; rw [he]
@[simp] theorem settle_cip (d : Dev) : d.settle.cip = d.cip := by obtain ⟨l, o, r, i, w, he, -⟩ := settle_eq d; rw [he]
@[simp] theorem settle_drc (d : Dev) : d.settle.drc = d.drc := by obtain ⟨l, o, r, i, w, he, -⟩ := settle_eq d; rw [he]
@[simp] theorem settle_cal (d : Dev) : d.settle.cal = d.cal := by obtain ⟨l, o, r, i, w, he, -⟩ := settle_eq d; rw [he]
@[simp] theorem settle_evt_seq (d : Dev) : d.settle.evt.seq = d.evt.seq := by obtain ⟨l, o, r, i, w, he, -⟩ := settle_eq d; rw [he]
@[simp] theorem settle_evt_latch (d : Dev) : d.settle.evt.latch = d.evt.latch := by obtain ⟨l, o, r, i, w, he, -⟩ := settle_eq d; rw [he]
@[simp] theorem settle_evt_lateq (d : Dev) : d.settle.evt.lateq = d.evt.lateq := by obtain ⟨l, o, r, i, w, he, -⟩ := settle_eq d; rw [he]
@[simp] theorem settle_evt_arm6 (d : Dev) : d.settle.evt.arm6 = d.evt.arm6 := by obtain ⟨l, o, r, i, w, he, -⟩ := settle_eq d; rw [he]
@[simp] theorem settle_evt_trip (d : Dev) : d.settle.evt.trip = d.evt.trip := by obtain ⟨l, o, r, i, w, he, -⟩ := settle_eq d; rw [he]
@[simp] theorem settle_cmd_queue (d : Dev) : d.settle.cmd.queue = d.cmd.queue := by obtain ⟨l, o, r, i, w, he, -⟩ := settle_eq d; rw [he]
@[simp] theorem settle_cmd_busy (d : Dev) : d.settle.cmd.busy = d.cmd.busy := by obtain ⟨l, o, r, i, w, he, -⟩ := settle_eq d; rw [he]
@[simp] theorem settle_cmd_i2cOut (d : Dev) : d.settle.cmd.i2cOut = d.cmd.i2cOut := by obtain ⟨l, o, r, i, w, he, -⟩ := settle_eq d; rw [he]
@[simp] theorem settle_cmd_replies (d : Dev) : d.settle.cmd.replies = d.cmd.replies := by obtain ⟨l, o, r, i, w, he, -⟩ := settle_eq d; rw [he]
@[simp] theorem settle_cmd_nextFrame (d : Dev) : d.settle.cmd.nextFrame = d.cmd.nextFrame := by obtain ⟨l, o, r, i, w, he, -⟩ := settle_eq d; rw [he]
@[simp] theorem settle_cmd_replay (d : Dev) : d.settle.cmd.replay = d.cmd.replay := by obtain ⟨l, o, r, i, w, he, -⟩ := settle_eq d; rw [he]
@[simp] theorem settle_cmd_own (d : Dev) : d.settle.cmd.own = d.cmd.own := by obtain ⟨l, o, r, i, w, he, -⟩ := settle_eq d; rw [he]
@[simp] theorem settle_cmd_logNo (d : Dev) : d.settle.cmd.logNo = d.cmd.logNo := by obtain ⟨l, o, r, i, w, he, -⟩ := settle_eq d; rw [he]
@[simp] theorem settle_cmd_logging (d : Dev) : d.settle.cmd.logging = d.cmd.logging := by obtain ⟨l, o, r, i, w, he, -⟩ := settle_eq d; rw [he]
@[simp] theorem settle_cmd_waiting (d : Dev) : d.settle.cmd.waiting = d.cmd.waiting := by obtain ⟨l, o, r, i, w, he, -⟩ := settle_eq d; rw [he]
@[simp] theorem settle_rtc_now (d : Dev) : d.settle.rtc.now = d.rtc.now := by obtain ⟨l, o, r, i, w, he, -⟩ := settle_eq d; rw [he]
@[simp] theorem settle_rtc_stMin (d : Dev) : d.settle.rtc.stMin = d.rtc.stMin := by obtain ⟨l, o, r, i, w, he, -⟩ := settle_eq d; rw [he]
@[simp] theorem settle_rtc_stHour (d : Dev) : d.settle.rtc.stHour = d.rtc.stHour := by obtain ⟨l, o, r, i, w, he, -⟩ := settle_eq d; rw [he]
@[simp] theorem settle_rtc_stDay (d : Dev) : d.settle.rtc.stDay = d.rtc.stDay := by obtain ⟨l, o, r, i, w, he, -⟩ := settle_eq d; rw [he]
@[simp] theorem settle_rtc_stMonth (d : Dev) : d.settle.rtc.stMonth = d.rtc.stMonth := by obtain ⟨l, o, r, i, w, he, -⟩ := settle_eq d; rw [he]
@[simp] theorem settle_rtc_stYear (d : Dev) : d.settle.rtc.stYear = d.rtc.stYear := by obtain ⟨l, o, r, i, w, he, -⟩ := settle_eq d; rw [he]
@[simp] theorem settle_rtc_acc (d : Dev) : d.settle.rtc.acc = d.rtc.acc := by obtain ⟨l, o, r, i, w, he, -⟩ := settle_eq d; rw [he]
@[simp] theorem settle_rtc_len (d : Dev) : d.settle.rtc.len = d.rtc.len := by obtain ⟨l, o, r, i, w, he, -⟩ := settle_eq d; rw [he]
@[simp] theorem settle_rtc_secAt (d : Dev) : d.settle.rtc.secAt = d.rtc.secAt := by obtain ⟨l, o, r, i, w, he, -⟩ := settle_eq d; rw [he]
@[simp] theorem settle_rtc_snap (d : Dev) : d.settle.rtc.snap = d.rtc.snap := by obtain ⟨l, o, r, i, w, he, -⟩ := settle_eq d; rw [he]

/-! ## Raising an event -/

theorem raise_eq (d : Dev) (src unit detail : Nat) : ∃ ev regs, d.raise src unit detail = { d with evt := ev, regs := regs } ∧
    (∀ a, a ≠ R.EVT_STATUS_LO → a ≠ R.EVT_STATUS_HI → smGet resetWord regs a = d.word a) := by
  unfold Dev.raise
  split
  · exact ⟨_, _, rfl, fun _ _ _ => rfl⟩
  · split
    · refine ⟨_, _, rfl, fun a h1 h2 => ?_⟩
      exact d.word_setWord_ne (by unfold evtStatusReg; split <;> assumption) _
    · exact ⟨_, _, rfl, fun _ _ _ => rfl⟩

/-- A raise leaves every register but the status registers. -/
theorem raise_word (d : Dev) (src unit detail : Nat) {a : Nat} (h1 : a ≠ R.EVT_STATUS_LO) (h2 : a ≠ R.EVT_STATUS_HI) :
    (d.raise src unit detail).word a = d.word a := by
  obtain ⟨e, r, he, hr⟩ := raise_eq d src unit detail
  rw [he]; exact hr a h1 h2

theorem raise_get (d : Dev) (src unit detail : Nat) {a : Nat} (f : Fld) (h1 : a ≠ R.EVT_STATUS_LO) (h2 : a ≠ R.EVT_STATUS_HI) :
    (d.raise src unit detail).get a f = d.get a f := by rw [Dev.get, raise_word d _ _ _ h1 h2, Dev.get]

@[simp] theorem raise_nt (d : Dev) (src unit detail : Nat) : (d.raise src unit detail).nt = d.nt := by obtain ⟨e, r, he, -⟩ := raise_eq d src unit detail; rw [he]
@[simp] theorem raise_xo (d : Dev) (src unit detail : Nat) : (d.raise src unit detail).xo = d.xo := by obtain ⟨e, r, he, -⟩ := raise_eq d src unit detail; rw [he]
@[simp] theorem raise_member (d : Dev) (src unit detail : Nat) : (d.raise src unit detail).member = d.member := by obtain ⟨e, r, he, -⟩ := raise_eq d src unit detail; rw [he]
@[simp] theorem raise_rdata (d : Dev) (src unit detail : Nat) : (d.raise src unit detail).rdata = d.rdata := by obtain ⟨e, r, he, -⟩ := raise_eq d src unit detail; rw [he]
@[simp] theorem raise_free (d : Dev) (src unit detail : Nat) : (d.raise src unit detail).free = d.free := by obtain ⟨e, r, he, -⟩ := raise_eq d src unit detail; rw [he]
@[simp] theorem raise_links (d : Dev) (src unit detail : Nat) : (d.raise src unit detail).links = d.links := by obtain ⟨e, r, he, -⟩ := raise_eq d src unit detail; rw [he]
@[simp] theorem raise_clkOff (d : Dev) (src unit detail : Nat) : (d.raise src unit detail).clkOff = d.clkOff := by obtain ⟨e, r, he, -⟩ := raise_eq d src unit detail; rw [he]
@[simp] theorem raise_mons (d : Dev) (src unit detail : Nat) : (d.raise src unit detail).mons = d.mons := by obtain ⟨e, r, he, -⟩ := raise_eq d src unit detail; rw [he]
@[simp] theorem raise_pwr (d : Dev) (src unit detail : Nat) : (d.raise src unit detail).pwr = d.pwr := by obtain ⟨e, r, he, -⟩ := raise_eq d src unit detail; rw [he]
@[simp] theorem raise_boot (d : Dev) (src unit detail : Nat) : (d.raise src unit detail).boot = d.boot := by obtain ⟨e, r, he, -⟩ := raise_eq d src unit detail; rw [he]
@[simp] theorem raise_cmd (d : Dev) (src unit detail : Nat) : (d.raise src unit detail).cmd = d.cmd := by obtain ⟨e, r, he, -⟩ := raise_eq d src unit detail; rw [he]
@[simp] theorem raise_stages (d : Dev) (src unit detail : Nat) : (d.raise src unit detail).stages = d.stages := by obtain ⟨e, r, he, -⟩ := raise_eq d src unit detail; rw [he]
@[simp] theorem raise_stagesFired (d : Dev) (src unit detail : Nat) : (d.raise src unit detail).stagesFired = d.stagesFired := by obtain ⟨e, r, he, -⟩ := raise_eq d src unit detail; rw [he]
@[simp] theorem raise_nvmCopy (d : Dev) (src unit detail : Nat) : (d.raise src unit detail).nvmCopy = d.nvmCopy := by obtain ⟨e, r, he, -⟩ := raise_eq d src unit detail; rw [he]
@[simp] theorem raise_flash (d : Dev) (src unit detail : Nat) : (d.raise src unit detail).flash = d.flash := by obtain ⟨e, r, he, -⟩ := raise_eq d src unit detail; rw [he]
@[simp] theorem raise_fuses (d : Dev) (src unit detail : Nat) : (d.raise src unit detail).fuses = d.fuses := by obtain ⟨e, r, he, -⟩ := raise_eq d src unit detail; rw [he]
@[simp] theorem raise_rootKey (d : Dev) (src unit detail : Nat) : (d.raise src unit detail).rootKey = d.rootKey := by obtain ⟨e, r, he, -⟩ := raise_eq d src unit detail; rw [he]
@[simp] theorem raise_rootProgrammed (d : Dev) (src unit detail : Nat) : (d.raise src unit detail).rootProgrammed = d.rootProgrammed := by obtain ⟨e, r, he, -⟩ := raise_eq d src unit detail; rw [he]
@[simp] theorem raise_rootBlow (d : Dev) (src unit detail : Nat) : (d.raise src unit detail).rootBlow = d.rootBlow := by obtain ⟨e, r, he, -⟩ := raise_eq d src unit detail; rw [he]
@[simp] theorem raise_pubDigest (d : Dev) (src unit detail : Nat) : (d.raise src unit detail).pubDigest = d.pubDigest := by obtain ⟨e, r, he, -⟩ := raise_eq d src unit detail; rw [he]
@[simp] theorem raise_pads (d : Dev) (src unit detail : Nat) : (d.raise src unit detail).pads = d.pads := by obtain ⟨e, r, he, -⟩ := raise_eq d src unit detail; rw [he]
@[simp] theorem raise_cagesFolded (d : Dev) (src unit detail : Nat) : (d.raise src unit detail).cagesFolded = d.cagesFolded := by obtain ⟨e, r, he, -⟩ := raise_eq d src unit detail; rw [he]
@[simp] theorem raise_pins (d : Dev) (src unit detail : Nat) : (d.raise src unit detail).pins = d.pins := by obtain ⟨e, r, he, -⟩ := raise_eq d src unit detail; rw [he]
@[simp] theorem raise_clk (d : Dev) (src unit detail : Nat) : (d.raise src unit detail).clk = d.clk := by obtain ⟨e, r, he, -⟩ := raise_eq d src unit detail; rw [he]
@[simp] theorem raise_acts (d : Dev) (src unit detail : Nat) : (d.raise src unit detail).acts = d.acts := by obtain ⟨e, r, he, -⟩ := raise_eq d src unit detail; rw [he]
@[simp] theorem raise_actsFired (d : Dev) (src unit detail : Nat) : (d.raise src unit detail).actsFired = d.actsFired := by obtain ⟨e, r, he, -⟩ := raise_eq d src unit detail; rw [he]
@[simp] theorem raise_radios (d : Dev) (src unit detail : Nat) : (d.raise src unit detail).radios = d.radios := by obtain ⟨e, r, he, -⟩ := raise_eq d src unit detail; rw [he]
@[simp] theorem raise_kals (d : Dev) (src unit detail : Nat) : (d.raise src unit detail).kals = d.kals := by obtain ⟨e, r, he, -⟩ := raise_eq d src unit detail; rw [he]
@[simp] theorem raise_dram (d : Dev) (src unit detail : Nat) : (d.raise src unit detail).dram = d.dram := by obtain ⟨e, r, he, -⟩ := raise_eq d src unit detail; rw [he]
@[simp] theorem raise_temps (d : Dev) (src unit detail : Nat) : (d.raise src unit detail).temps = d.temps := by obtain ⟨e, r, he, -⟩ := raise_eq d src unit detail; rw [he]
@[simp] theorem raise_sched (d : Dev) (src unit detail : Nat) : (d.raise src unit detail).sched = d.sched := by obtain ⟨e, r, he, -⟩ := raise_eq d src unit detail; rw [he]
@[simp] theorem raise_pup (d : Dev) (src unit detail : Nat) : (d.raise src unit detail).pup = d.pup := by obtain ⟨e, r, he, -⟩ := raise_eq d src unit detail; rw [he]
@[simp] theorem raise_cores (d : Dev) (src unit detail : Nat) : (d.raise src unit detail).cores = d.cores := by obtain ⟨e, r, he, -⟩ := raise_eq d src unit detail; rw [he]
@[simp] theorem raise_macs (d : Dev) (src unit detail : Nat) : (d.raise src unit detail).macs = d.macs := by obtain ⟨e, r, he, -⟩ := raise_eq d src unit detail; rw [he]
@[simp] theorem raise_cls (d : Dev) (src unit detail : Nat) : (d.raise src unit detail).cls = d.cls := by obtain ⟨e, r, he, -⟩ := raise_eq d src unit detail; rw [he]
@[simp] theorem raise_mgmtIn (d : Dev) (src unit detail : Nat) : (d.raise src unit detail).mgmtIn = d.mgmtIn := by obtain ⟨e, r, he, -⟩ := raise_eq d src unit detail; rw [he]
@[simp] theorem raise_queues (d : Dev) (src unit detail : Nat) : (d.raise src unit detail).queues = d.queues := by obtain ⟨e, r, he, -⟩ := raise_eq d src unit detail; rw [he]
@[simp] theorem raise_ports (d : Dev) (src unit detail : Nat) : (d.raise src unit detail).ports = d.ports := by obtain ⟨e, r, he, -⟩ := raise_eq d src unit detail; rw [he]
@[simp] theorem raise_policers (d : Dev) (src unit detail : Nat) : (d.raise src unit detail).policers = d.policers := by obtain ⟨e, r, he, -⟩ := raise_eq d src unit detail; rw [he]
@[simp] theorem raise_cip (d : Dev) (src unit detail : Nat) : (d.raise src unit detail).cip = d.cip := by obtain ⟨e, r, he, -⟩ := raise_eq d src unit detail; rw [he]
@[simp] theorem raise_drc (d : Dev) (src unit detail : Nat) : (d.raise src unit detail).drc = d.drc := by obtain ⟨e, r, he, -⟩ := raise_eq d src unit detail; rw [he]
@[simp] theorem raise_cal (d : Dev) (src unit detail : Nat) : (d.raise src unit detail).cal = d.cal := by obtain ⟨e, r, he, -⟩ := raise_eq d src unit detail; rw [he]
@[simp] theorem raise_rtc (d : Dev) (src unit detail : Nat) : (d.raise src unit detail).rtc = d.rtc := by obtain ⟨e, r, he, -⟩ := raise_eq d src unit detail; rw [he]

theorem or_two_pow_getLsbD (w : Word) (k : Nat) (hk : k < 32) : (w ||| BitVec.ofNat 32 (2 ^ k)).getLsbD k = true := by
  rw [BitVec.getLsbD_or, BitVec.getLsbD_ofNat]; simp [hk]

/-- A source's status bit stands after it raises its event while the HUB is on (R482). -/
theorem evtStatus_raise (d : Dev) (src unit detail : Nat) (hp : d.present (srcDie src) = true) (hi : d.dieIsolated (evtDie src unit) = false)
    (hh : d.pwr.hubOn = true) : (d.raise src unit detail).evtStatus src = true := by
  simp only [Dev.raise, hp, hi, hh, Bool.not_true, Bool.or_false, Bool.false_eq_true, if_false, if_true]
  show ((d.setWord (evtStatusReg src) _).word (evtStatusReg src)).getLsbD (src % 32) = true
  rw [Dev.word_setWord_same]
  exact or_two_pow_getLsbD _ _ (Nat.mod_lt _ (by decide))

/-- A status bit that stands goes on standing when any event is raised. -/
theorem evtStatus_raise_mono (d : Dev) (n src unit detail : Nat) (h : d.evtStatus n = true) :
    (d.raise src unit detail).evtStatus n = true := by
  unfold Dev.raise
  split
  · exact h
  · split
    · show ((d.setWord (evtStatusReg src) _).word (evtStatusReg n)).getLsbD (n % 32) = true
      rw [Dev.word_setWord]
      split
      · rename_i e
        rw [BitVec.getLsbD_or, ← e]; simp only [Dev.evtStatus] at h; rw [h, Bool.true_or]
      · exact h
    · exact h

/-! ## How every meaning ends -/

@[simp] theorem finish_eq (s : State) (d : Dev) : finish s d = .next { s with dev := d.settle } := rfl

@[simp] theorem whenHub_up (d : Dev) (f : Dev → Dev) (h : d.hubUp = true) : d.whenHub f = f d := by simp [Dev.whenHub, h]

@[simp] theorem whenAo_on (d : Dev) (f : Dev → Dev) (h : d.pwr.aoOn = true) : d.whenAo f = f d := by simp [Dev.whenAo, h]

theorem hubOn_of_up {d : Dev} (h : d.hubUp = true) : d.pwr.hubOn = true := by
  simp only [Dev.hubUp, Bool.and_eq_true] at h; exact h.1.1.1

end Sys2Proof.Machine
end

