-- ==== Sys2Proof/Laws/Exec.lean ====
section
/-! SUPPORT. How a command runs: every arm of exec ends with `finish`, so a fact about the next state is a fact about a settled device. -/

namespace Sys2Proof.Machine

open Sys2Proof

theorem runs_of {c : Instr} {s : State} {P : Dev → Prop} {d : Dev} (h : exec c s = finish s d) (hp : P d.settle) : Runs c s P :=
  ⟨{ s with dev := d.settle }, h, rfl, hp⟩

/-- A command of the HUB, while the HUB runs. -/
theorem runs_hub {c : Instr} {s : State} {P : Dev → Prop} {f : Dev → Dev} (hu : s.dev.hubUp = true)
    (h : exec c s = finish s (s.dev.whenHub f)) (hp : P (f s.dev).settle) : Runs c s P :=
  runs_of h (by rw [whenHub_up _ _ hu]; exact hp)

/-- A command of the AO domain, while AO is supplied. -/
theorem runs_ao {c : Instr} {s : State} {P : Dev → Prop} {f : Dev → Dev} (ha : s.dev.pwr.aoOn = true)
    (h : exec c s = finish s (s.dev.whenAo f)) (hp : P (f s.dev).settle) : Runs c s P :=
  runs_of h (by rw [whenAo_on _ _ ha]; exact hp)

/-- With no event raised, the end of a command leaves every register. -/
theorem settle_word_quiet (d : Dev) (h : d.evt.pend = []) (a : Nat) : d.settle.word a = d.word a := by
  obtain ⟨w, hw⟩ := trimSync_eq d
  have : d.settle = { d.trimSync.flushEvents with pins := d.trimSync.flushEvents.pinsOf } := rfl
  rw [this]
  have hp : d.trimSync.evt.pend = [] := by rw [hw]; exact h
  unfold Dev.flushEvents
  rw [hp, hw]; rfl

/-- The HUB is always present and never isolated. -/
theorem present_zero (d : Dev) : d.present 0 = true := by
  unfold Dev.present; cases d.member <;> rfl

theorem isolated_zero (d : Dev) : d.dieIsolated 0 = false := rfl

/-- A source of the HUB shows in its status bit. -/
theorem evtStatus_raise_hub (d : Dev) (src unit detail : Nat) (hs : srcDie src = 0) (he : evtDie src unit = 0) (hh : d.pwr.hubOn = true) :
    (d.raise src unit detail).evtStatus src = true :=
  evtStatus_raise d src unit detail (by rw [hs]; exact present_zero d) (by rw [he]; rfl) hh

end Sys2Proof.Machine
end

