-- ==== Sys2Proof/Laws/Setters.lean ====
section
/-! SUPPORT. What each setter of one entry of a table leaves, and what the entry reads as after it. -/

namespace Sys2Proof.Machine

open Sys2Proof

/-! ## setRadio -/

@[simp] theorem Dev.setRadio_nt (d : Dev) (r : Nat) (x : Radio) : (d.setRadio r x).nt = d.nt := rfl
@[simp] theorem Dev.setRadio_xo (d : Dev) (r : Nat) (x : Radio) : (d.setRadio r x).xo = d.xo := rfl
@[simp] theorem Dev.setRadio_member (d : Dev) (r : Nat) (x : Radio) : (d.setRadio r x).member = d.member := rfl
@[simp] theorem Dev.setRadio_regs (d : Dev) (r : Nat) (x : Radio) : (d.setRadio r x).regs = d.regs := rfl
@[simp] theorem Dev.setRadio_rdata (d : Dev) (r : Nat) (x : Radio) : (d.setRadio r x).rdata = d.rdata := rfl
@[simp] theorem Dev.setRadio_free (d : Dev) (r : Nat) (x : Radio) : (d.setRadio r x).free = d.free := rfl
@[simp] theorem Dev.setRadio_evt (d : Dev) (r : Nat) (x : Radio) : (d.setRadio r x).evt = d.evt := rfl
@[simp] theorem Dev.setRadio_links (d : Dev) (r : Nat) (x : Radio) : (d.setRadio r x).links = d.links := rfl
@[simp] theorem Dev.setRadio_clkOff (d : Dev) (r : Nat) (x : Radio) : (d.setRadio r x).clkOff = d.clkOff := rfl
@[simp] theorem Dev.setRadio_mons (d : Dev) (r : Nat) (x : Radio) : (d.setRadio r x).mons = d.mons := rfl
@[simp] theorem Dev.setRadio_pwr (d : Dev) (r : Nat) (x : Radio) : (d.setRadio r x).pwr = d.pwr := rfl
@[simp] theorem Dev.setRadio_boot (d : Dev) (r : Nat) (x : Radio) : (d.setRadio r x).boot = d.boot := rfl
@[simp] theorem Dev.setRadio_cmd (d : Dev) (r : Nat) (x : Radio) : (d.setRadio r x).cmd = d.cmd := rfl
@[simp] theorem Dev.setRadio_stages (d : Dev) (r : Nat) (x : Radio) : (d.setRadio r x).stages = d.stages := rfl
@[simp] theorem Dev.setRadio_stagesFired (d : Dev) (r : Nat) (x : Radio) : (d.setRadio r x).stagesFired = d.stagesFired := rfl
@[simp] theorem Dev.setRadio_nvmCopy (d : Dev) (r : Nat) (x : Radio) : (d.setRadio r x).nvmCopy = d.nvmCopy := rfl
@[simp] theorem Dev.setRadio_flash (d : Dev) (r : Nat) (x : Radio) : (d.setRadio r x).flash = d.flash := rfl
@[simp] theorem Dev.setRadio_fuses (d : Dev) (r : Nat) (x : Radio) : (d.setRadio r x).fuses = d.fuses := rfl
@[simp] theorem Dev.setRadio_rootKey (d : Dev) (r : Nat) (x : Radio) : (d.setRadio r x).rootKey = d.rootKey := rfl
@[simp] theorem Dev.setRadio_rootProgrammed (d : Dev) (r : Nat) (x : Radio) : (d.setRadio r x).rootProgrammed = d.rootProgrammed := rfl
@[simp] theorem Dev.setRadio_rootBlow (d : Dev) (r : Nat) (x : Radio) : (d.setRadio r x).rootBlow = d.rootBlow := rfl
@[simp] theorem Dev.setRadio_pubDigest (d : Dev) (r : Nat) (x : Radio) : (d.setRadio r x).pubDigest = d.pubDigest := rfl
@[simp] theorem Dev.setRadio_pads (d : Dev) (r : Nat) (x : Radio) : (d.setRadio r x).pads = d.pads := rfl
@[simp] theorem Dev.setRadio_cagesFolded (d : Dev) (r : Nat) (x : Radio) : (d.setRadio r x).cagesFolded = d.cagesFolded := rfl
@[simp] theorem Dev.setRadio_pins (d : Dev) (r : Nat) (x : Radio) : (d.setRadio r x).pins = d.pins := rfl
@[simp] theorem Dev.setRadio_clk (d : Dev) (r : Nat) (x : Radio) : (d.setRadio r x).clk = d.clk := rfl
@[simp] theorem Dev.setRadio_acts (d : Dev) (r : Nat) (x : Radio) : (d.setRadio r x).acts = d.acts := rfl
@[simp] theorem Dev.setRadio_actsFired (d : Dev) (r : Nat) (x : Radio) : (d.setRadio r x).actsFired = d.actsFired := rfl
@[simp] theorem Dev.setRadio_kals (d : Dev) (r : Nat) (x : Radio) : (d.setRadio r x).kals = d.kals := rfl
@[simp] theorem Dev.setRadio_dram (d : Dev) (r : Nat) (x : Radio) : (d.setRadio r x).dram = d.dram := rfl
@[simp] theorem Dev.setRadio_temps (d : Dev) (r : Nat) (x : Radio) : (d.setRadio r x).temps = d.temps := rfl
@[simp] theorem Dev.setRadio_sched (d : Dev) (r : Nat) (x : Radio) : (d.setRadio r x).sched = d.sched := rfl
@[simp] theorem Dev.setRadio_pup (d : Dev) (r : Nat) (x : Radio) : (d.setRadio r x).pup = d.pup := rfl
@[simp] theorem Dev.setRadio_cores (d : Dev) (r : Nat) (x : Radio) : (d.setRadio r x).cores = d.cores := rfl
@[simp] theorem Dev.setRadio_macs (d : Dev) (r : Nat) (x : Radio) : (d.setRadio r x).macs = d.macs := rfl
@[simp] theorem Dev.setRadio_cls (d : Dev) (r : Nat) (x : Radio) : (d.setRadio r x).cls = d.cls := rfl
@[simp] theorem Dev.setRadio_mgmtIn (d : Dev) (r : Nat) (x : Radio) : (d.setRadio r x).mgmtIn = d.mgmtIn := rfl
@[simp] theorem Dev.setRadio_queues (d : Dev) (r : Nat) (x : Radio) : (d.setRadio r x).queues = d.queues := rfl
@[simp] theorem Dev.setRadio_ports (d : Dev) (r : Nat) (x : Radio) : (d.setRadio r x).ports = d.ports := rfl
@[simp] theorem Dev.setRadio_policers (d : Dev) (r : Nat) (x : Radio) : (d.setRadio r x).policers = d.policers := rfl
@[simp] theorem Dev.setRadio_cip (d : Dev) (r : Nat) (x : Radio) : (d.setRadio r x).cip = d.cip := rfl
@[simp] theorem Dev.setRadio_drc (d : Dev) (r : Nat) (x : Radio) : (d.setRadio r x).drc = d.drc := rfl
@[simp] theorem Dev.setRadio_cal (d : Dev) (r : Nat) (x : Radio) : (d.setRadio r x).cal = d.cal := rfl
@[simp] theorem Dev.setRadio_rtc (d : Dev) (r : Nat) (x : Radio) : (d.setRadio r x).rtc = d.rtc := rfl
@[simp] theorem Dev.setRadio_word (d : Dev) (r : Nat) (x : Radio) (b : Nat) : (d.setRadio r x).word b = d.word b := rfl
@[simp] theorem Dev.setRadio_get (d : Dev) (r : Nat) (x : Radio) (b : Nat) (g : Fld) : (d.setRadio r x).get b g = d.get b g := rfl
@[simp] theorem Dev.radio_setRadio (d : Dev) (r : Nat) (x : Radio) : (d.setRadio r x).radio r = x := smGet_set_same ..
theorem Dev.radio_setRadio_ne (d : Dev) (r : Nat) (x : Radio) {j : Nat} (h : j ≠ r) : (d.setRadio r x).radio j = d.radio j := smGet_set_ne _ _ h _
@[simp] theorem settle_radio (d : Dev) (r : Nat) : d.settle.radio r = d.radio r := by simp only [Dev.radio, settle_radios]

/-! ## setKal -/

@[simp] theorem Dev.setKal_nt (d : Dev) (r : Nat) (x : Kal) : (d.setKal r x).nt = d.nt := rfl
@[simp] theorem Dev.setKal_xo (d : Dev) (r : Nat) (x : Kal) : (d.setKal r x).xo = d.xo := rfl
@[simp] theorem Dev.setKal_member (d : Dev) (r : Nat) (x : Kal) : (d.setKal r x).member = d.member := rfl
@[simp] theorem Dev.setKal_regs (d : Dev) (r : Nat) (x : Kal) : (d.setKal r x).regs = d.regs := rfl
@[simp] theorem Dev.setKal_rdata (d : Dev) (r : Nat) (x : Kal) : (d.setKal r x).rdata = d.rdata := rfl
@[simp] theorem Dev.setKal_free (d : Dev) (r : Nat) (x : Kal) : (d.setKal r x).free = d.free := rfl
@[simp] theorem Dev.setKal_evt (d : Dev) (r : Nat) (x : Kal) : (d.setKal r x).evt = d.evt := rfl
@[simp] theorem Dev.setKal_links (d : Dev) (r : Nat) (x : Kal) : (d.setKal r x).links = d.links := rfl
@[simp] theorem Dev.setKal_clkOff (d : Dev) (r : Nat) (x : Kal) : (d.setKal r x).clkOff = d.clkOff := rfl
@[simp] theorem Dev.setKal_mons (d : Dev) (r : Nat) (x : Kal) : (d.setKal r x).mons = d.mons := rfl
@[simp] theorem Dev.setKal_pwr (d : Dev) (r : Nat) (x : Kal) : (d.setKal r x).pwr = d.pwr := rfl
@[simp] theorem Dev.setKal_boot (d : Dev) (r : Nat) (x : Kal) : (d.setKal r x).boot = d.boot := rfl
@[simp] theorem Dev.setKal_cmd (d : Dev) (r : Nat) (x : Kal) : (d.setKal r x).cmd = d.cmd := rfl
@[simp] theorem Dev.setKal_stages (d : Dev) (r : Nat) (x : Kal) : (d.setKal r x).stages = d.stages := rfl
@[simp] theorem Dev.setKal_stagesFired (d : Dev) (r : Nat) (x : Kal) : (d.setKal r x).stagesFired = d.stagesFired := rfl
@[simp] theorem Dev.setKal_nvmCopy (d : Dev) (r : Nat) (x : Kal) : (d.setKal r x).nvmCopy = d.nvmCopy := rfl
@[simp] theorem Dev.setKal_flash (d : Dev) (r : Nat) (x : Kal) : (d.setKal r x).flash = d.flash := rfl
@[simp] theorem Dev.setKal_fuses (d : Dev) (r : Nat) (x : Kal) : (d.setKal r x).fuses = d.fuses := rfl
@[simp] theorem Dev.setKal_rootKey (d : Dev) (r : Nat) (x : Kal) : (d.setKal r x).rootKey = d.rootKey := rfl
@[simp] theorem Dev.setKal_rootProgrammed (d : Dev) (r : Nat) (x : Kal) : (d.setKal r x).rootProgrammed = d.rootProgrammed := rfl
@[simp] theorem Dev.setKal_rootBlow (d : Dev) (r : Nat) (x : Kal) : (d.setKal r x).rootBlow = d.rootBlow := rfl
@[simp] theorem Dev.setKal_pubDigest (d : Dev) (r : Nat) (x : Kal) : (d.setKal r x).pubDigest = d.pubDigest := rfl
@[simp] theorem Dev.setKal_pads (d : Dev) (r : Nat) (x : Kal) : (d.setKal r x).pads = d.pads := rfl
@[simp] theorem Dev.setKal_cagesFolded (d : Dev) (r : Nat) (x : Kal) : (d.setKal r x).cagesFolded = d.cagesFolded := rfl
@[simp] theorem Dev.setKal_pins (d : Dev) (r : Nat) (x : Kal) : (d.setKal r x).pins = d.pins := rfl
@[simp] theorem Dev.setKal_clk (d : Dev) (r : Nat) (x : Kal) : (d.setKal r x).clk = d.clk := rfl
@[simp] theorem Dev.setKal_acts (d : Dev) (r : Nat) (x : Kal) : (d.setKal r x).acts = d.acts := rfl
@[simp] theorem Dev.setKal_actsFired (d : Dev) (r : Nat) (x : Kal) : (d.setKal r x).actsFired = d.actsFired := rfl
@[simp] theorem Dev.setKal_radios (d : Dev) (r : Nat) (x : Kal) : (d.setKal r x).radios = d.radios := rfl
@[simp] theorem Dev.setKal_dram (d : Dev) (r : Nat) (x : Kal) : (d.setKal r x).dram = d.dram := rfl
@[simp] theorem Dev.setKal_temps (d : Dev) (r : Nat) (x : Kal) : (d.setKal r x).temps = d.temps := rfl
@[simp] theorem Dev.setKal_sched (d : Dev) (r : Nat) (x : Kal) : (d.setKal r x).sched = d.sched := rfl
@[simp] theorem Dev.setKal_pup (d : Dev) (r : Nat) (x : Kal) : (d.setKal r x).pup = d.pup := rfl
@[simp] theorem Dev.setKal_cores (d : Dev) (r : Nat) (x : Kal) : (d.setKal r x).cores = d.cores := rfl
@[simp] theorem Dev.setKal_macs (d : Dev) (r : Nat) (x : Kal) : (d.setKal r x).macs = d.macs := rfl
@[simp] theorem Dev.setKal_cls (d : Dev) (r : Nat) (x : Kal) : (d.setKal r x).cls = d.cls := rfl
@[simp] theorem Dev.setKal_mgmtIn (d : Dev) (r : Nat) (x : Kal) : (d.setKal r x).mgmtIn = d.mgmtIn := rfl
@[simp] theorem Dev.setKal_queues (d : Dev) (r : Nat) (x : Kal) : (d.setKal r x).queues = d.queues := rfl
@[simp] theorem Dev.setKal_ports (d : Dev) (r : Nat) (x : Kal) : (d.setKal r x).ports = d.ports := rfl
@[simp] theorem Dev.setKal_policers (d : Dev) (r : Nat) (x : Kal) : (d.setKal r x).policers = d.policers := rfl
@[simp] theorem Dev.setKal_cip (d : Dev) (r : Nat) (x : Kal) : (d.setKal r x).cip = d.cip := rfl
@[simp] theorem Dev.setKal_drc (d : Dev) (r : Nat) (x : Kal) : (d.setKal r x).drc = d.drc := rfl
@[simp] theorem Dev.setKal_cal (d : Dev) (r : Nat) (x : Kal) : (d.setKal r x).cal = d.cal := rfl
@[simp] theorem Dev.setKal_rtc (d : Dev) (r : Nat) (x : Kal) : (d.setKal r x).rtc = d.rtc := rfl
@[simp] theorem Dev.setKal_word (d : Dev) (r : Nat) (x : Kal) (b : Nat) : (d.setKal r x).word b = d.word b := rfl
@[simp] theorem Dev.setKal_get (d : Dev) (r : Nat) (x : Kal) (b : Nat) (g : Fld) : (d.setKal r x).get b g = d.get b g := rfl
@[simp] theorem Dev.kal_setKal (d : Dev) (r : Nat) (x : Kal) : (d.setKal r x).kal r = x := smGet_set_same ..
theorem Dev.kal_setKal_ne (d : Dev) (r : Nat) (x : Kal) {j : Nat} (h : j ≠ r) : (d.setKal r x).kal j = d.kal j := smGet_set_ne _ _ h _
@[simp] theorem settle_kal (d : Dev) (r : Nat) : d.settle.kal r = d.kal r := by simp only [Dev.kal, settle_kals]

/-! ## setMon -/

@[simp] theorem Dev.setMon_nt (d : Dev) (n : Nat) (x : Mon) : (d.setMon n x).nt = d.nt := rfl
@[simp] theorem Dev.setMon_xo (d : Dev) (n : Nat) (x : Mon) : (d.setMon n x).xo = d.xo := rfl
@[simp] theorem Dev.setMon_member (d : Dev) (n : Nat) (x : Mon) : (d.setMon n x).member = d.member := rfl
@[simp] theorem Dev.setMon_regs (d : Dev) (n : Nat) (x : Mon) : (d.setMon n x).regs = d.regs := rfl
@[simp] theorem Dev.setMon_rdata (d : Dev) (n : Nat) (x : Mon) : (d.setMon n x).rdata = d.rdata := rfl
@[simp] theorem Dev.setMon_free (d : Dev) (n : Nat) (x : Mon) : (d.setMon n x).free = d.free := rfl
@[simp] theorem Dev.setMon_evt (d : Dev) (n : Nat) (x : Mon) : (d.setMon n x).evt = d.evt := rfl
@[simp] theorem Dev.setMon_links (d : Dev) (n : Nat) (x : Mon) : (d.setMon n x).links = d.links := rfl
@[simp] theorem Dev.setMon_clkOff (d : Dev) (n : Nat) (x : Mon) : (d.setMon n x).clkOff = d.clkOff := rfl
@[simp] theorem Dev.setMon_pwr (d : Dev) (n : Nat) (x : Mon) : (d.setMon n x).pwr = d.pwr := rfl
@[simp] theorem Dev.setMon_boot (d : Dev) (n : Nat) (x : Mon) : (d.setMon n x).boot = d.boot := rfl
@[simp] theorem Dev.setMon_cmd (d : Dev) (n : Nat) (x : Mon) : (d.setMon n x).cmd = d.cmd := rfl
@[simp] theorem Dev.setMon_stages (d : Dev) (n : Nat) (x : Mon) : (d.setMon n x).stages = d.stages := rfl
@[simp] theorem Dev.setMon_stagesFired (d : Dev) (n : Nat) (x : Mon) : (d.setMon n x).stagesFired = d.stagesFired := rfl
@[simp] theorem Dev.setMon_nvmCopy (d : Dev) (n : Nat) (x : Mon) : (d.setMon n x).nvmCopy = d.nvmCopy := rfl
@[simp] theorem Dev.setMon_flash (d : Dev) (n : Nat) (x : Mon) : (d.setMon n x).flash = d.flash := rfl
@[simp] theorem Dev.setMon_fuses (d : Dev) (n : Nat) (x : Mon) : (d.setMon n x).fuses = d.fuses := rfl
@[simp] theorem Dev.setMon_rootKey (d : Dev) (n : Nat) (x : Mon) : (d.setMon n x).rootKey = d.rootKey := rfl
@[simp] theorem Dev.setMon_rootProgrammed (d : Dev) (n : Nat) (x : Mon) : (d.setMon n x).rootProgrammed = d.rootProgrammed := rfl
@[simp] theorem Dev.setMon_rootBlow (d : Dev) (n : Nat) (x : Mon) : (d.setMon n x).rootBlow = d.rootBlow := rfl
@[simp] theorem Dev.setMon_pubDigest (d : Dev) (n : Nat) (x : Mon) : (d.setMon n x).pubDigest = d.pubDigest := rfl
@[simp] theorem Dev.setMon_pads (d : Dev) (n : Nat) (x : Mon) : (d.setMon n x).pads = d.pads := rfl
@[simp] theorem Dev.setMon_cagesFolded (d : Dev) (n : Nat) (x : Mon) : (d.setMon n x).cagesFolded = d.cagesFolded := rfl
@[simp] theorem Dev.setMon_pins (d : Dev) (n : Nat) (x : Mon) : (d.setMon n x).pins = d.pins := rfl
@[simp] theorem Dev.setMon_clk (d : Dev) (n : Nat) (x : Mon) : (d.setMon n x).clk = d.clk := rfl
@[simp] theorem Dev.setMon_acts (d : Dev) (n : Nat) (x : Mon) : (d.setMon n x).acts = d.acts := rfl
@[simp] theorem Dev.setMon_actsFired (d : Dev) (n : Nat) (x : Mon) : (d.setMon n x).actsFired = d.actsFired := rfl
@[simp] theorem Dev.setMon_radios (d : Dev) (n : Nat) (x : Mon) : (d.setMon n x).radios = d.radios := rfl
@[simp] theorem Dev.setMon_kals (d : Dev) (n : Nat) (x : Mon) : (d.setMon n x).kals = d.kals := rfl
@[simp] theorem Dev.setMon_dram (d : Dev) (n : Nat) (x : Mon) : (d.setMon n x).dram = d.dram := rfl
@[simp] theorem Dev.setMon_temps (d : Dev) (n : Nat) (x : Mon) : (d.setMon n x).temps = d.temps := rfl
@[simp] theorem Dev.setMon_sched (d : Dev) (n : Nat) (x : Mon) : (d.setMon n x).sched = d.sched := rfl
@[simp] theorem Dev.setMon_pup (d : Dev) (n : Nat) (x : Mon) : (d.setMon n x).pup = d.pup := rfl
@[simp] theorem Dev.setMon_cores (d : Dev) (n : Nat) (x : Mon) : (d.setMon n x).cores = d.cores := rfl
@[simp] theorem Dev.setMon_macs (d : Dev) (n : Nat) (x : Mon) : (d.setMon n x).macs = d.macs := rfl
@[simp] theorem Dev.setMon_cls (d : Dev) (n : Nat) (x : Mon) : (d.setMon n x).cls = d.cls := rfl
@[simp] theorem Dev.setMon_mgmtIn (d : Dev) (n : Nat) (x : Mon) : (d.setMon n x).mgmtIn = d.mgmtIn := rfl
@[simp] theorem Dev.setMon_queues (d : Dev) (n : Nat) (x : Mon) : (d.setMon n x).queues = d.queues := rfl
@[simp] theorem Dev.setMon_ports (d : Dev) (n : Nat) (x : Mon) : (d.setMon n x).ports = d.ports := rfl
@[simp] theorem Dev.setMon_policers (d : Dev) (n : Nat) (x : Mon) : (d.setMon n x).policers = d.policers := rfl
@[simp] theorem Dev.setMon_cip (d : Dev) (n : Nat) (x : Mon) : (d.setMon n x).cip = d.cip := rfl
@[simp] theorem Dev.setMon_drc (d : Dev) (n : Nat) (x : Mon) : (d.setMon n x).drc = d.drc := rfl
@[simp] theorem Dev.setMon_cal (d : Dev) (n : Nat) (x : Mon) : (d.setMon n x).cal = d.cal := rfl
@[simp] theorem Dev.setMon_rtc (d : Dev) (n : Nat) (x : Mon) : (d.setMon n x).rtc = d.rtc := rfl
@[simp] theorem Dev.setMon_word (d : Dev) (n : Nat) (x : Mon) (b : Nat) : (d.setMon n x).word b = d.word b := rfl
@[simp] theorem Dev.setMon_get (d : Dev) (n : Nat) (x : Mon) (b : Nat) (g : Fld) : (d.setMon n x).get b g = d.get b g := rfl
@[simp] theorem Dev.mon_setMon (d : Dev) (n : Nat) (x : Mon) : (d.setMon n x).mon n = x := smGet_set_same ..
theorem Dev.mon_setMon_ne (d : Dev) (n : Nat) (x : Mon) {j : Nat} (h : j ≠ n) : (d.setMon n x).mon j = d.mon j := smGet_set_ne _ _ h _
@[simp] theorem settle_mon (d : Dev) (n : Nat) : d.settle.mon n = d.mon n := by simp only [Dev.mon, settle_mons]

/-! ## setMcore -/

@[simp] theorem Dev.setMcore_nt (d : Dev) (c : Nat) (x : Core) : (d.setMcore c x).nt = d.nt := rfl
@[simp] theorem Dev.setMcore_xo (d : Dev) (c : Nat) (x : Core) : (d.setMcore c x).xo = d.xo := rfl
@[simp] theorem Dev.setMcore_member (d : Dev) (c : Nat) (x : Core) : (d.setMcore c x).member = d.member := rfl
@[simp] theorem Dev.setMcore_regs (d : Dev) (c : Nat) (x : Core) : (d.setMcore c x).regs = d.regs := rfl
@[simp] theorem Dev.setMcore_rdata (d : Dev) (c : Nat) (x : Core) : (d.setMcore c x).rdata = d.rdata := rfl
@[simp] theorem Dev.setMcore_free (d : Dev) (c : Nat) (x : Core) : (d.setMcore c x).free = d.free := rfl
@[simp] theorem Dev.setMcore_evt (d : Dev) (c : Nat) (x : Core) : (d.setMcore c x).evt = d.evt := rfl
@[simp] theorem Dev.setMcore_links (d : Dev) (c : Nat) (x : Core) : (d.setMcore c x).links = d.links := rfl
@[simp] theorem Dev.setMcore_clkOff (d : Dev) (c : Nat) (x : Core) : (d.setMcore c x).clkOff = d.clkOff := rfl
@[simp] theorem Dev.setMcore_mons (d : Dev) (c : Nat) (x : Core) : (d.setMcore c x).mons = d.mons := rfl
@[simp] theorem Dev.setMcore_pwr (d : Dev) (c : Nat) (x : Core) : (d.setMcore c x).pwr = d.pwr := rfl
@[simp] theorem Dev.setMcore_boot (d : Dev) (c : Nat) (x : Core) : (d.setMcore c x).boot = d.boot := rfl
@[simp] theorem Dev.setMcore_cmd (d : Dev) (c : Nat) (x : Core) : (d.setMcore c x).cmd = d.cmd := rfl
@[simp] theorem Dev.setMcore_stages (d : Dev) (c : Nat) (x : Core) : (d.setMcore c x).stages = d.stages := rfl
@[simp] theorem Dev.setMcore_stagesFired (d : Dev) (c : Nat) (x : Core) : (d.setMcore c x).stagesFired = d.stagesFired := rfl
@[simp] theorem Dev.setMcore_nvmCopy (d : Dev) (c : Nat) (x : Core) : (d.setMcore c x).nvmCopy = d.nvmCopy := rfl
@[simp] theorem Dev.setMcore_flash (d : Dev) (c : Nat) (x : Core) : (d.setMcore c x).flash = d.flash := rfl
@[simp] theorem Dev.setMcore_fuses (d : Dev) (c : Nat) (x : Core) : (d.setMcore c x).fuses = d.fuses := rfl
@[simp] theorem Dev.setMcore_rootKey (d : Dev) (c : Nat) (x : Core) : (d.setMcore c x).rootKey = d.rootKey := rfl
@[simp] theorem Dev.setMcore_rootProgrammed (d : Dev) (c : Nat) (x : Core) : (d.setMcore c x).rootProgrammed = d.rootProgrammed := rfl
@[simp] theorem Dev.setMcore_rootBlow (d : Dev) (c : Nat) (x : Core) : (d.setMcore c x).rootBlow = d.rootBlow := rfl
@[simp] theorem Dev.setMcore_pubDigest (d : Dev) (c : Nat) (x : Core) : (d.setMcore c x).pubDigest = d.pubDigest := rfl
@[simp] theorem Dev.setMcore_pads (d : Dev) (c : Nat) (x : Core) : (d.setMcore c x).pads = d.pads := rfl
@[simp] theorem Dev.setMcore_cagesFolded (d : Dev) (c : Nat) (x : Core) : (d.setMcore c x).cagesFolded = d.cagesFolded := rfl
@[simp] theorem Dev.setMcore_pins (d : Dev) (c : Nat) (x : Core) : (d.setMcore c x).pins = d.pins := rfl
@[simp] theorem Dev.setMcore_clk (d : Dev) (c : Nat) (x : Core) : (d.setMcore c x).clk = d.clk := rfl
@[simp] theorem Dev.setMcore_acts (d : Dev) (c : Nat) (x : Core) : (d.setMcore c x).acts = d.acts := rfl
@[simp] theorem Dev.setMcore_actsFired (d : Dev) (c : Nat) (x : Core) : (d.setMcore c x).actsFired = d.actsFired := rfl
@[simp] theorem Dev.setMcore_radios (d : Dev) (c : Nat) (x : Core) : (d.setMcore c x).radios = d.radios := rfl
@[simp] theorem Dev.setMcore_kals (d : Dev) (c : Nat) (x : Core) : (d.setMcore c x).kals = d.kals := rfl
@[simp] theorem Dev.setMcore_dram (d : Dev) (c : Nat) (x : Core) : (d.setMcore c x).dram = d.dram := rfl
@[simp] theorem Dev.setMcore_temps (d : Dev) (c : Nat) (x : Core) : (d.setMcore c x).temps = d.temps := rfl
@[simp] theorem Dev.setMcore_sched (d : Dev) (c : Nat) (x : Core) : (d.setMcore c x).sched = d.sched := rfl
@[simp] theorem Dev.setMcore_pup (d : Dev) (c : Nat) (x : Core) : (d.setMcore c x).pup = d.pup := rfl
@[simp] theorem Dev.setMcore_macs (d : Dev) (c : Nat) (x : Core) : (d.setMcore c x).macs = d.macs := rfl
@[simp] theorem Dev.setMcore_cls (d : Dev) (c : Nat) (x : Core) : (d.setMcore c x).cls = d.cls := rfl
@[simp] theorem Dev.setMcore_mgmtIn (d : Dev) (c : Nat) (x : Core) : (d.setMcore c x).mgmtIn = d.mgmtIn := rfl
@[simp] theorem Dev.setMcore_queues (d : Dev) (c : Nat) (x : Core) : (d.setMcore c x).queues = d.queues := rfl
@[simp] theorem Dev.setMcore_ports (d : Dev) (c : Nat) (x : Core) : (d.setMcore c x).ports = d.ports := rfl
@[simp] theorem Dev.setMcore_policers (d : Dev) (c : Nat) (x : Core) : (d.setMcore c x).policers = d.policers := rfl
@[simp] theorem Dev.setMcore_cip (d : Dev) (c : Nat) (x : Core) : (d.setMcore c x).cip = d.cip := rfl
@[simp] theorem Dev.setMcore_drc (d : Dev) (c : Nat) (x : Core) : (d.setMcore c x).drc = d.drc := rfl
@[simp] theorem Dev.setMcore_cal (d : Dev) (c : Nat) (x : Core) : (d.setMcore c x).cal = d.cal := rfl
@[simp] theorem Dev.setMcore_rtc (d : Dev) (c : Nat) (x : Core) : (d.setMcore c x).rtc = d.rtc := rfl
@[simp] theorem Dev.setMcore_word (d : Dev) (c : Nat) (x : Core) (b : Nat) : (d.setMcore c x).word b = d.word b := rfl
@[simp] theorem Dev.setMcore_get (d : Dev) (c : Nat) (x : Core) (b : Nat) (g : Fld) : (d.setMcore c x).get b g = d.get b g := rfl
@[simp] theorem Dev.mcore_setMcore (d : Dev) (c : Nat) (x : Core) : (d.setMcore c x).mcore c = x := smGet_set_same ..
theorem Dev.mcore_setMcore_ne (d : Dev) (c : Nat) (x : Core) {j : Nat} (h : j ≠ c) : (d.setMcore c x).mcore j = d.mcore j := smGet_set_ne _ _ h _
@[simp] theorem settle_mcore (d : Dev) (c : Nat) : d.settle.mcore c = d.mcore c := by simp only [Dev.mcore, settle_cores]

/-! ## setPcore -/

@[simp] theorem Dev.setPcore_nt (d : Dev) (c : Nat) (x : PCore) : (d.setPcore c x).nt = d.nt := rfl
@[simp] theorem Dev.setPcore_xo (d : Dev) (c : Nat) (x : PCore) : (d.setPcore c x).xo = d.xo := rfl
@[simp] theorem Dev.setPcore_member (d : Dev) (c : Nat) (x : PCore) : (d.setPcore c x).member = d.member := rfl
@[simp] theorem Dev.setPcore_regs (d : Dev) (c : Nat) (x : PCore) : (d.setPcore c x).regs = d.regs := rfl
@[simp] theorem Dev.setPcore_rdata (d : Dev) (c : Nat) (x : PCore) : (d.setPcore c x).rdata = d.rdata := rfl
@[simp] theorem Dev.setPcore_free (d : Dev) (c : Nat) (x : PCore) : (d.setPcore c x).free = d.free := rfl
@[simp] theorem Dev.setPcore_evt (d : Dev) (c : Nat) (x : PCore) : (d.setPcore c x).evt = d.evt := rfl
@[simp] theorem Dev.setPcore_links (d : Dev) (c : Nat) (x : PCore) : (d.setPcore c x).links = d.links := rfl
@[simp] theorem Dev.setPcore_clkOff (d : Dev) (c : Nat) (x : PCore) : (d.setPcore c x).clkOff = d.clkOff := rfl
@[simp] theorem Dev.setPcore_mons (d : Dev) (c : Nat) (x : PCore) : (d.setPcore c x).mons = d.mons := rfl
@[simp] theorem Dev.setPcore_pwr (d : Dev) (c : Nat) (x : PCore) : (d.setPcore c x).pwr = d.pwr := rfl
@[simp] theorem Dev.setPcore_boot (d : Dev) (c : Nat) (x : PCore) : (d.setPcore c x).boot = d.boot := rfl
@[simp] theorem Dev.setPcore_cmd (d : Dev) (c : Nat) (x : PCore) : (d.setPcore c x).cmd = d.cmd := rfl
@[simp] theorem Dev.setPcore_stages (d : Dev) (c : Nat) (x : PCore) : (d.setPcore c x).stages = d.stages := rfl
@[simp] theorem Dev.setPcore_stagesFired (d : Dev) (c : Nat) (x : PCore) : (d.setPcore c x).stagesFired = d.stagesFired := rfl
@[simp] theorem Dev.setPcore_nvmCopy (d : Dev) (c : Nat) (x : PCore) : (d.setPcore c x).nvmCopy = d.nvmCopy := rfl
@[simp] theorem Dev.setPcore_flash (d : Dev) (c : Nat) (x : PCore) : (d.setPcore c x).flash = d.flash := rfl
@[simp] theorem Dev.setPcore_fuses (d : Dev) (c : Nat) (x : PCore) : (d.setPcore c x).fuses = d.fuses := rfl
@[simp] theorem Dev.setPcore_rootKey (d : Dev) (c : Nat) (x : PCore) : (d.setPcore c x).rootKey = d.rootKey := rfl
@[simp] theorem Dev.setPcore_rootProgrammed (d : Dev) (c : Nat) (x : PCore) : (d.setPcore c x).rootProgrammed = d.rootProgrammed := rfl
@[simp] theorem Dev.setPcore_rootBlow (d : Dev) (c : Nat) (x : PCore) : (d.setPcore c x).rootBlow = d.rootBlow := rfl
@[simp] theorem Dev.setPcore_pubDigest (d : Dev) (c : Nat) (x : PCore) : (d.setPcore c x).pubDigest = d.pubDigest := rfl
@[simp] theorem Dev.setPcore_pads (d : Dev) (c : Nat) (x : PCore) : (d.setPcore c x).pads = d.pads := rfl
@[simp] theorem Dev.setPcore_cagesFolded (d : Dev) (c : Nat) (x : PCore) : (d.setPcore c x).cagesFolded = d.cagesFolded := rfl
@[simp] theorem Dev.setPcore_pins (d : Dev) (c : Nat) (x : PCore) : (d.setPcore c x).pins = d.pins := rfl
@[simp] theorem Dev.setPcore_clk (d : Dev) (c : Nat) (x : PCore) : (d.setPcore c x).clk = d.clk := rfl
@[simp] theorem Dev.setPcore_acts (d : Dev) (c : Nat) (x : PCore) : (d.setPcore c x).acts = d.acts := rfl
@[simp] theorem Dev.setPcore_actsFired (d : Dev) (c : Nat) (x : PCore) : (d.setPcore c x).actsFired = d.actsFired := rfl
@[simp] theorem Dev.setPcore_radios (d : Dev) (c : Nat) (x : PCore) : (d.setPcore c x).radios = d.radios := rfl
@[simp] theorem Dev.setPcore_kals (d : Dev) (c : Nat) (x : PCore) : (d.setPcore c x).kals = d.kals := rfl
@[simp] theorem Dev.setPcore_dram (d : Dev) (c : Nat) (x : PCore) : (d.setPcore c x).dram = d.dram := rfl
@[simp] theorem Dev.setPcore_temps (d : Dev) (c : Nat) (x : PCore) : (d.setPcore c x).temps = d.temps := rfl
@[simp] theorem Dev.setPcore_sched (d : Dev) (c : Nat) (x : PCore) : (d.setPcore c x).sched = d.sched := rfl
@[simp] theorem Dev.setPcore_cores (d : Dev) (c : Nat) (x : PCore) : (d.setPcore c x).cores = d.cores := rfl
@[simp] theorem Dev.setPcore_macs (d : Dev) (c : Nat) (x : PCore) : (d.setPcore c x).macs = d.macs := rfl
@[simp] theorem Dev.setPcore_cls (d : Dev) (c : Nat) (x : PCore) : (d.setPcore c x).cls = d.cls := rfl
@[simp] theorem Dev.setPcore_mgmtIn (d : Dev) (c : Nat) (x : PCore) : (d.setPcore c x).mgmtIn = d.mgmtIn := rfl
@[simp] theorem Dev.setPcore_queues (d : Dev) (c : Nat) (x : PCore) : (d.setPcore c x).queues = d.queues := rfl
@[simp] theorem Dev.setPcore_ports (d : Dev) (c : Nat) (x : PCore) : (d.setPcore c x).ports = d.ports := rfl
@[simp] theorem Dev.setPcore_policers (d : Dev) (c : Nat) (x : PCore) : (d.setPcore c x).policers = d.policers := rfl
@[simp] theorem Dev.setPcore_cip (d : Dev) (c : Nat) (x : PCore) : (d.setPcore c x).cip = d.cip := rfl
@[simp] theorem Dev.setPcore_drc (d : Dev) (c : Nat) (x : PCore) : (d.setPcore c x).drc = d.drc := rfl
@[simp] theorem Dev.setPcore_cal (d : Dev) (c : Nat) (x : PCore) : (d.setPcore c x).cal = d.cal := rfl
@[simp] theorem Dev.setPcore_rtc (d : Dev) (c : Nat) (x : PCore) : (d.setPcore c x).rtc = d.rtc := rfl
@[simp] theorem Dev.setPcore_word (d : Dev) (c : Nat) (x : PCore) (b : Nat) : (d.setPcore c x).word b = d.word b := rfl
@[simp] theorem Dev.setPcore_get (d : Dev) (c : Nat) (x : PCore) (b : Nat) (g : Fld) : (d.setPcore c x).get b g = d.get b g := rfl
@[simp] theorem Dev.pcore_setPcore (d : Dev) (c : Nat) (x : PCore) : (d.setPcore c x).pcore c = x := smGet_set_same ..
theorem Dev.pcore_setPcore_ne (d : Dev) (c : Nat) (x : PCore) {j : Nat} (h : j ≠ c) : (d.setPcore c x).pcore j = d.pcore j := smGet_set_ne _ _ h _
@[simp] theorem settle_pcore (d : Dev) (c : Nat) : d.settle.pcore c = d.pcore c := by simp only [Dev.pcore, settle_pup]

/-! ## setTask -/

@[simp] theorem Dev.setTask_nt (d : Dev) (i : Nat) (x : Task) : (d.setTask i x).nt = d.nt := rfl
@[simp] theorem Dev.setTask_xo (d : Dev) (i : Nat) (x : Task) : (d.setTask i x).xo = d.xo := rfl
@[simp] theorem Dev.setTask_member (d : Dev) (i : Nat) (x : Task) : (d.setTask i x).member = d.member := rfl
@[simp] theorem Dev.setTask_regs (d : Dev) (i : Nat) (x : Task) : (d.setTask i x).regs = d.regs := rfl
@[simp] theorem Dev.setTask_rdata (d : Dev) (i : Nat) (x : Task) : (d.setTask i x).rdata = d.rdata := rfl
@[simp] theorem Dev.setTask_free (d : Dev) (i : Nat) (x : Task) : (d.setTask i x).free = d.free := rfl
@[simp] theorem Dev.setTask_evt (d : Dev) (i : Nat) (x : Task) : (d.setTask i x).evt = d.evt := rfl
@[simp] theorem Dev.setTask_links (d : Dev) (i : Nat) (x : Task) : (d.setTask i x).links = d.links := rfl
@[simp] theorem Dev.setTask_clkOff (d : Dev) (i : Nat) (x : Task) : (d.setTask i x).clkOff = d.clkOff := rfl
@[simp] theorem Dev.setTask_mons (d : Dev) (i : Nat) (x : Task) : (d.setTask i x).mons = d.mons := rfl
@[simp] theorem Dev.setTask_pwr (d : Dev) (i : Nat) (x : Task) : (d.setTask i x).pwr = d.pwr := rfl
@[simp] theorem Dev.setTask_boot (d : Dev) (i : Nat) (x : Task) : (d.setTask i x).boot = d.boot := rfl
@[simp] theorem Dev.setTask_cmd (d : Dev) (i : Nat) (x : Task) : (d.setTask i x).cmd = d.cmd := rfl
@[simp] theorem Dev.setTask_stages (d : Dev) (i : Nat) (x : Task) : (d.setTask i x).stages = d.stages := rfl
@[simp] theorem Dev.setTask_stagesFired (d : Dev) (i : Nat) (x : Task) : (d.setTask i x).stagesFired = d.stagesFired := rfl
@[simp] theorem Dev.setTask_nvmCopy (d : Dev) (i : Nat) (x : Task) : (d.setTask i x).nvmCopy = d.nvmCopy := rfl
@[simp] theorem Dev.setTask_flash (d : Dev) (i : Nat) (x : Task) : (d.setTask i x).flash = d.flash := rfl
@[simp] theorem Dev.setTask_fuses (d : Dev) (i : Nat) (x : Task) : (d.setTask i x).fuses = d.fuses := rfl
@[simp] theorem Dev.setTask_rootKey (d : Dev) (i : Nat) (x : Task) : (d.setTask i x).rootKey = d.rootKey := rfl
@[simp] theorem Dev.setTask_rootProgrammed (d : Dev) (i : Nat) (x : Task) : (d.setTask i x).rootProgrammed = d.rootProgrammed := rfl
@[simp] theorem Dev.setTask_rootBlow (d : Dev) (i : Nat) (x : Task) : (d.setTask i x).rootBlow = d.rootBlow := rfl
@[simp] theorem Dev.setTask_pubDigest (d : Dev) (i : Nat) (x : Task) : (d.setTask i x).pubDigest = d.pubDigest := rfl
@[simp] theorem Dev.setTask_pads (d : Dev) (i : Nat) (x : Task) : (d.setTask i x).pads = d.pads := rfl
@[simp] theorem Dev.setTask_cagesFolded (d : Dev) (i : Nat) (x : Task) : (d.setTask i x).cagesFolded = d.cagesFolded := rfl
@[simp] theorem Dev.setTask_pins (d : Dev) (i : Nat) (x : Task) : (d.setTask i x).pins = d.pins := rfl
@[simp] theorem Dev.setTask_clk (d : Dev) (i : Nat) (x : Task) : (d.setTask i x).clk = d.clk := rfl
@[simp] theorem Dev.setTask_acts (d : Dev) (i : Nat) (x : Task) : (d.setTask i x).acts = d.acts := rfl
@[simp] theorem Dev.setTask_actsFired (d : Dev) (i : Nat) (x : Task) : (d.setTask i x).actsFired = d.actsFired := rfl
@[simp] theorem Dev.setTask_radios (d : Dev) (i : Nat) (x : Task) : (d.setTask i x).radios = d.radios := rfl
@[simp] theorem Dev.setTask_kals (d : Dev) (i : Nat) (x : Task) : (d.setTask i x).kals = d.kals := rfl
@[simp] theorem Dev.setTask_dram (d : Dev) (i : Nat) (x : Task) : (d.setTask i x).dram = d.dram := rfl
@[simp] theorem Dev.setTask_temps (d : Dev) (i : Nat) (x : Task) : (d.setTask i x).temps = d.temps := rfl
@[simp] theorem Dev.setTask_sched (d : Dev) (i : Nat) (x : Task) : (d.setTask i x).sched = d.sched := rfl
@[simp] theorem Dev.setTask_cores (d : Dev) (i : Nat) (x : Task) : (d.setTask i x).cores = d.cores := rfl
@[simp] theorem Dev.setTask_macs (d : Dev) (i : Nat) (x : Task) : (d.setTask i x).macs = d.macs := rfl
@[simp] theorem Dev.setTask_cls (d : Dev) (i : Nat) (x : Task) : (d.setTask i x).cls = d.cls := rfl
@[simp] theorem Dev.setTask_mgmtIn (d : Dev) (i : Nat) (x : Task) : (d.setTask i x).mgmtIn = d.mgmtIn := rfl
@[simp] theorem Dev.setTask_queues (d : Dev) (i : Nat) (x : Task) : (d.setTask i x).queues = d.queues := rfl
@[simp] theorem Dev.setTask_ports (d : Dev) (i : Nat) (x : Task) : (d.setTask i x).ports = d.ports := rfl
@[simp] theorem Dev.setTask_policers (d : Dev) (i : Nat) (x : Task) : (d.setTask i x).policers = d.policers := rfl
@[simp] theorem Dev.setTask_cip (d : Dev) (i : Nat) (x : Task) : (d.setTask i x).cip = d.cip := rfl
@[simp] theorem Dev.setTask_drc (d : Dev) (i : Nat) (x : Task) : (d.setTask i x).drc = d.drc := rfl
@[simp] theorem Dev.setTask_cal (d : Dev) (i : Nat) (x : Task) : (d.setTask i x).cal = d.cal := rfl
@[simp] theorem Dev.setTask_rtc (d : Dev) (i : Nat) (x : Task) : (d.setTask i x).rtc = d.rtc := rfl
@[simp] theorem Dev.setTask_word (d : Dev) (i : Nat) (x : Task) (b : Nat) : (d.setTask i x).word b = d.word b := rfl
@[simp] theorem Dev.setTask_get (d : Dev) (i : Nat) (x : Task) (b : Nat) (g : Fld) : (d.setTask i x).get b g = d.get b g := rfl

/-! ## setFlow -/

@[simp] theorem Dev.setFlow_nt (d : Dev) (f : Nat) (x : Flow) : (d.setFlow f x).nt = d.nt := rfl
@[simp] theorem Dev.setFlow_xo (d : Dev) (f : Nat) (x : Flow) : (d.setFlow f x).xo = d.xo := rfl
@[simp] theorem Dev.setFlow_member (d : Dev) (f : Nat) (x : Flow) : (d.setFlow f x).member = d.member := rfl
@[simp] theorem Dev.setFlow_regs (d : Dev) (f : Nat) (x : Flow) : (d.setFlow f x).regs = d.regs := rfl
@[simp] theorem Dev.setFlow_rdata (d : Dev) (f : Nat) (x : Flow) : (d.setFlow f x).rdata = d.rdata := rfl
@[simp] theorem Dev.setFlow_free (d : Dev) (f : Nat) (x : Flow) : (d.setFlow f x).free = d.free := rfl
@[simp] theorem Dev.setFlow_evt (d : Dev) (f : Nat) (x : Flow) : (d.setFlow f x).evt = d.evt := rfl
@[simp] theorem Dev.setFlow_links (d : Dev) (f : Nat) (x : Flow) : (d.setFlow f x).links = d.links := rfl
@[simp] theorem Dev.setFlow_clkOff (d : Dev) (f : Nat) (x : Flow) : (d.setFlow f x).clkOff = d.clkOff := rfl
@[simp] theorem Dev.setFlow_mons (d : Dev) (f : Nat) (x : Flow) : (d.setFlow f x).mons = d.mons := rfl
@[simp] theorem Dev.setFlow_pwr (d : Dev) (f : Nat) (x : Flow) : (d.setFlow f x).pwr = d.pwr := rfl
@[simp] theorem Dev.setFlow_boot (d : Dev) (f : Nat) (x : Flow) : (d.setFlow f x).boot = d.boot := rfl
@[simp] theorem Dev.setFlow_cmd (d : Dev) (f : Nat) (x : Flow) : (d.setFlow f x).cmd = d.cmd := rfl
@[simp] theorem Dev.setFlow_stages (d : Dev) (f : Nat) (x : Flow) : (d.setFlow f x).stages = d.stages := rfl
@[simp] theorem Dev.setFlow_stagesFired (d : Dev) (f : Nat) (x : Flow) : (d.setFlow f x).stagesFired = d.stagesFired := rfl
@[simp] theorem Dev.setFlow_nvmCopy (d : Dev) (f : Nat) (x : Flow) : (d.setFlow f x).nvmCopy = d.nvmCopy := rfl
@[simp] theorem Dev.setFlow_flash (d : Dev) (f : Nat) (x : Flow) : (d.setFlow f x).flash = d.flash := rfl
@[simp] theorem Dev.setFlow_fuses (d : Dev) (f : Nat) (x : Flow) : (d.setFlow f x).fuses = d.fuses := rfl
@[simp] theorem Dev.setFlow_rootKey (d : Dev) (f : Nat) (x : Flow) : (d.setFlow f x).rootKey = d.rootKey := rfl
@[simp] theorem Dev.setFlow_rootProgrammed (d : Dev) (f : Nat) (x : Flow) : (d.setFlow f x).rootProgrammed = d.rootProgrammed := rfl
@[simp] theorem Dev.setFlow_rootBlow (d : Dev) (f : Nat) (x : Flow) : (d.setFlow f x).rootBlow = d.rootBlow := rfl
@[simp] theorem Dev.setFlow_pubDigest (d : Dev) (f : Nat) (x : Flow) : (d.setFlow f x).pubDigest = d.pubDigest := rfl
@[simp] theorem Dev.setFlow_pads (d : Dev) (f : Nat) (x : Flow) : (d.setFlow f x).pads = d.pads := rfl
@[simp] theorem Dev.setFlow_cagesFolded (d : Dev) (f : Nat) (x : Flow) : (d.setFlow f x).cagesFolded = d.cagesFolded := rfl
@[simp] theorem Dev.setFlow_pins (d : Dev) (f : Nat) (x : Flow) : (d.setFlow f x).pins = d.pins := rfl
@[simp] theorem Dev.setFlow_clk (d : Dev) (f : Nat) (x : Flow) : (d.setFlow f x).clk = d.clk := rfl
@[simp] theorem Dev.setFlow_acts (d : Dev) (f : Nat) (x : Flow) : (d.setFlow f x).acts = d.acts := rfl
@[simp] theorem Dev.setFlow_actsFired (d : Dev) (f : Nat) (x : Flow) : (d.setFlow f x).actsFired = d.actsFired := rfl
@[simp] theorem Dev.setFlow_radios (d : Dev) (f : Nat) (x : Flow) : (d.setFlow f x).radios = d.radios := rfl
@[simp] theorem Dev.setFlow_kals (d : Dev) (f : Nat) (x : Flow) : (d.setFlow f x).kals = d.kals := rfl
@[simp] theorem Dev.setFlow_dram (d : Dev) (f : Nat) (x : Flow) : (d.setFlow f x).dram = d.dram := rfl
@[simp] theorem Dev.setFlow_temps (d : Dev) (f : Nat) (x : Flow) : (d.setFlow f x).temps = d.temps := rfl
@[simp] theorem Dev.setFlow_sched (d : Dev) (f : Nat) (x : Flow) : (d.setFlow f x).sched = d.sched := rfl
@[simp] theorem Dev.setFlow_cores (d : Dev) (f : Nat) (x : Flow) : (d.setFlow f x).cores = d.cores := rfl
@[simp] theorem Dev.setFlow_macs (d : Dev) (f : Nat) (x : Flow) : (d.setFlow f x).macs = d.macs := rfl
@[simp] theorem Dev.setFlow_cls (d : Dev) (f : Nat) (x : Flow) : (d.setFlow f x).cls = d.cls := rfl
@[simp] theorem Dev.setFlow_mgmtIn (d : Dev) (f : Nat) (x : Flow) : (d.setFlow f x).mgmtIn = d.mgmtIn := rfl
@[simp] theorem Dev.setFlow_queues (d : Dev) (f : Nat) (x : Flow) : (d.setFlow f x).queues = d.queues := rfl
@[simp] theorem Dev.setFlow_ports (d : Dev) (f : Nat) (x : Flow) : (d.setFlow f x).ports = d.ports := rfl
@[simp] theorem Dev.setFlow_policers (d : Dev) (f : Nat) (x : Flow) : (d.setFlow f x).policers = d.policers := rfl
@[simp] theorem Dev.setFlow_cip (d : Dev) (f : Nat) (x : Flow) : (d.setFlow f x).cip = d.cip := rfl
@[simp] theorem Dev.setFlow_drc (d : Dev) (f : Nat) (x : Flow) : (d.setFlow f x).drc = d.drc := rfl
@[simp] theorem Dev.setFlow_cal (d : Dev) (f : Nat) (x : Flow) : (d.setFlow f x).cal = d.cal := rfl
@[simp] theorem Dev.setFlow_rtc (d : Dev) (f : Nat) (x : Flow) : (d.setFlow f x).rtc = d.rtc := rfl
@[simp] theorem Dev.setFlow_word (d : Dev) (f : Nat) (x : Flow) (b : Nat) : (d.setFlow f x).word b = d.word b := rfl
@[simp] theorem Dev.setFlow_get (d : Dev) (f : Nat) (x : Flow) (b : Nat) (g : Fld) : (d.setFlow f x).get b g = d.get b g := rfl
@[simp] theorem Dev.flow_setFlow (d : Dev) (f : Nat) (x : Flow) : (d.setFlow f x).flow f = x := smGet_set_same ..
theorem Dev.flow_setFlow_ne (d : Dev) (f : Nat) (x : Flow) {j : Nat} (h : j ≠ f) : (d.setFlow f x).flow j = d.flow j := smGet_set_ne _ _ h _
@[simp] theorem settle_flow (d : Dev) (f : Nat) : d.settle.flow f = d.flow f := by simp only [Dev.flow, settle_pup]

/-! ## setCtx -/

@[simp] theorem Dev.setCtx_nt (d : Dev) (i : Nat) (x : Ctx) : (d.setCtx i x).nt = d.nt := rfl
@[simp] theorem Dev.setCtx_xo (d : Dev) (i : Nat) (x : Ctx) : (d.setCtx i x).xo = d.xo := rfl
@[simp] theorem Dev.setCtx_member (d : Dev) (i : Nat) (x : Ctx) : (d.setCtx i x).member = d.member := rfl
@[simp] theorem Dev.setCtx_regs (d : Dev) (i : Nat) (x : Ctx) : (d.setCtx i x).regs = d.regs := rfl
@[simp] theorem Dev.setCtx_rdata (d : Dev) (i : Nat) (x : Ctx) : (d.setCtx i x).rdata = d.rdata := rfl
@[simp] theorem Dev.setCtx_free (d : Dev) (i : Nat) (x : Ctx) : (d.setCtx i x).free = d.free := rfl
@[simp] theorem Dev.setCtx_evt (d : Dev) (i : Nat) (x : Ctx) : (d.setCtx i x).evt = d.evt := rfl
@[simp] theorem Dev.setCtx_links (d : Dev) (i : Nat) (x : Ctx) : (d.setCtx i x).links = d.links := rfl
@[simp] theorem Dev.setCtx_clkOff (d : Dev) (i : Nat) (x : Ctx) : (d.setCtx i x).clkOff = d.clkOff := rfl
@[simp] theorem Dev.setCtx_mons (d : Dev) (i : Nat) (x : Ctx) : (d.setCtx i x).mons = d.mons := rfl
@[simp] theorem Dev.setCtx_pwr (d : Dev) (i : Nat) (x : Ctx) : (d.setCtx i x).pwr = d.pwr := rfl
@[simp] theorem Dev.setCtx_boot (d : Dev) (i : Nat) (x : Ctx) : (d.setCtx i x).boot = d.boot := rfl
@[simp] theorem Dev.setCtx_cmd (d : Dev) (i : Nat) (x : Ctx) : (d.setCtx i x).cmd = d.cmd := rfl
@[simp] theorem Dev.setCtx_stages (d : Dev) (i : Nat) (x : Ctx) : (d.setCtx i x).stages = d.stages := rfl
@[simp] theorem Dev.setCtx_stagesFired (d : Dev) (i : Nat) (x : Ctx) : (d.setCtx i x).stagesFired = d.stagesFired := rfl
@[simp] theorem Dev.setCtx_nvmCopy (d : Dev) (i : Nat) (x : Ctx) : (d.setCtx i x).nvmCopy = d.nvmCopy := rfl
@[simp] theorem Dev.setCtx_flash (d : Dev) (i : Nat) (x : Ctx) : (d.setCtx i x).flash = d.flash := rfl
@[simp] theorem Dev.setCtx_fuses (d : Dev) (i : Nat) (x : Ctx) : (d.setCtx i x).fuses = d.fuses := rfl
@[simp] theorem Dev.setCtx_rootKey (d : Dev) (i : Nat) (x : Ctx) : (d.setCtx i x).rootKey = d.rootKey := rfl
@[simp] theorem Dev.setCtx_rootProgrammed (d : Dev) (i : Nat) (x : Ctx) : (d.setCtx i x).rootProgrammed = d.rootProgrammed := rfl
@[simp] theorem Dev.setCtx_rootBlow (d : Dev) (i : Nat) (x : Ctx) : (d.setCtx i x).rootBlow = d.rootBlow := rfl
@[simp] theorem Dev.setCtx_pubDigest (d : Dev) (i : Nat) (x : Ctx) : (d.setCtx i x).pubDigest = d.pubDigest := rfl
@[simp] theorem Dev.setCtx_pads (d : Dev) (i : Nat) (x : Ctx) : (d.setCtx i x).pads = d.pads := rfl
@[simp] theorem Dev.setCtx_cagesFolded (d : Dev) (i : Nat) (x : Ctx) : (d.setCtx i x).cagesFolded = d.cagesFolded := rfl
@[simp] theorem Dev.setCtx_pins (d : Dev) (i : Nat) (x : Ctx) : (d.setCtx i x).pins = d.pins := rfl
@[simp] theorem Dev.setCtx_clk (d : Dev) (i : Nat) (x : Ctx) : (d.setCtx i x).clk = d.clk := rfl
@[simp] theorem Dev.setCtx_acts (d : Dev) (i : Nat) (x : Ctx) : (d.setCtx i x).acts = d.acts := rfl
@[simp] theorem Dev.setCtx_actsFired (d : Dev) (i : Nat) (x : Ctx) : (d.setCtx i x).actsFired = d.actsFired := rfl
@[simp] theorem Dev.setCtx_radios (d : Dev) (i : Nat) (x : Ctx) : (d.setCtx i x).radios = d.radios := rfl
@[simp] theorem Dev.setCtx_kals (d : Dev) (i : Nat) (x : Ctx) : (d.setCtx i x).kals = d.kals := rfl
@[simp] theorem Dev.setCtx_dram (d : Dev) (i : Nat) (x : Ctx) : (d.setCtx i x).dram = d.dram := rfl
@[simp] theorem Dev.setCtx_temps (d : Dev) (i : Nat) (x : Ctx) : (d.setCtx i x).temps = d.temps := rfl
@[simp] theorem Dev.setCtx_pup (d : Dev) (i : Nat) (x : Ctx) : (d.setCtx i x).pup = d.pup := rfl
@[simp] theorem Dev.setCtx_cores (d : Dev) (i : Nat) (x : Ctx) : (d.setCtx i x).cores = d.cores := rfl
@[simp] theorem Dev.setCtx_macs (d : Dev) (i : Nat) (x : Ctx) : (d.setCtx i x).macs = d.macs := rfl
@[simp] theorem Dev.setCtx_cls (d : Dev) (i : Nat) (x : Ctx) : (d.setCtx i x).cls = d.cls := rfl
@[simp] theorem Dev.setCtx_mgmtIn (d : Dev) (i : Nat) (x : Ctx) : (d.setCtx i x).mgmtIn = d.mgmtIn := rfl
@[simp] theorem Dev.setCtx_queues (d : Dev) (i : Nat) (x : Ctx) : (d.setCtx i x).queues = d.queues := rfl
@[simp] theorem Dev.setCtx_ports (d : Dev) (i : Nat) (x : Ctx) : (d.setCtx i x).ports = d.ports := rfl
@[simp] theorem Dev.setCtx_policers (d : Dev) (i : Nat) (x : Ctx) : (d.setCtx i x).policers = d.policers := rfl
@[simp] theorem Dev.setCtx_cip (d : Dev) (i : Nat) (x : Ctx) : (d.setCtx i x).cip = d.cip := rfl
@[simp] theorem Dev.setCtx_drc (d : Dev) (i : Nat) (x : Ctx) : (d.setCtx i x).drc = d.drc := rfl
@[simp] theorem Dev.setCtx_cal (d : Dev) (i : Nat) (x : Ctx) : (d.setCtx i x).cal = d.cal := rfl
@[simp] theorem Dev.setCtx_rtc (d : Dev) (i : Nat) (x : Ctx) : (d.setCtx i x).rtc = d.rtc := rfl
@[simp] theorem Dev.setCtx_word (d : Dev) (i : Nat) (x : Ctx) (b : Nat) : (d.setCtx i x).word b = d.word b := rfl
@[simp] theorem Dev.setCtx_get (d : Dev) (i : Nat) (x : Ctx) (b : Nat) (g : Fld) : (d.setCtx i x).get b g = d.get b g := rfl

/-! ## setReg -/

@[simp] theorem Dev.setReg_nt (d : Dev) (a : Nat) (x : RegEntry) : (d.setReg a x).nt = d.nt := rfl
@[simp] theorem Dev.setReg_xo (d : Dev) (a : Nat) (x : RegEntry) : (d.setReg a x).xo = d.xo := rfl
@[simp] theorem Dev.setReg_member (d : Dev) (a : Nat) (x : RegEntry) : (d.setReg a x).member = d.member := rfl
@[simp] theorem Dev.setReg_regs (d : Dev) (a : Nat) (x : RegEntry) : (d.setReg a x).regs = d.regs := rfl
@[simp] theorem Dev.setReg_rdata (d : Dev) (a : Nat) (x : RegEntry) : (d.setReg a x).rdata = d.rdata := rfl
@[simp] theorem Dev.setReg_free (d : Dev) (a : Nat) (x : RegEntry) : (d.setReg a x).free = d.free := rfl
@[simp] theorem Dev.setReg_evt (d : Dev) (a : Nat) (x : RegEntry) : (d.setReg a x).evt = d.evt := rfl
@[simp] theorem Dev.setReg_links (d : Dev) (a : Nat) (x : RegEntry) : (d.setReg a x).links = d.links := rfl
@[simp] theorem Dev.setReg_clkOff (d : Dev) (a : Nat) (x : RegEntry) : (d.setReg a x).clkOff = d.clkOff := rfl
@[simp] theorem Dev.setReg_mons (d : Dev) (a : Nat) (x : RegEntry) : (d.setReg a x).mons = d.mons := rfl
@[simp] theorem Dev.setReg_pwr (d : Dev) (a : Nat) (x : RegEntry) : (d.setReg a x).pwr = d.pwr := rfl
@[simp] theorem Dev.setReg_boot (d : Dev) (a : Nat) (x : RegEntry) : (d.setReg a x).boot = d.boot := rfl
@[simp] theorem Dev.setReg_cmd (d : Dev) (a : Nat) (x : RegEntry) : (d.setReg a x).cmd = d.cmd := rfl
@[simp] theorem Dev.setReg_stages (d : Dev) (a : Nat) (x : RegEntry) : (d.setReg a x).stages = d.stages := rfl
@[simp] theorem Dev.setReg_stagesFired (d : Dev) (a : Nat) (x : RegEntry) : (d.setReg a x).stagesFired = d.stagesFired := rfl
@[simp] theorem Dev.setReg_nvmCopy (d : Dev) (a : Nat) (x : RegEntry) : (d.setReg a x).nvmCopy = d.nvmCopy := rfl
@[simp] theorem Dev.setReg_flash (d : Dev) (a : Nat) (x : RegEntry) : (d.setReg a x).flash = d.flash := rfl
@[simp] theorem Dev.setReg_fuses (d : Dev) (a : Nat) (x : RegEntry) : (d.setReg a x).fuses = d.fuses := rfl
@[simp] theorem Dev.setReg_rootKey (d : Dev) (a : Nat) (x : RegEntry) : (d.setReg a x).rootKey = d.rootKey := rfl
@[simp] theorem Dev.setReg_rootProgrammed (d : Dev) (a : Nat) (x : RegEntry) : (d.setReg a x).rootProgrammed = d.rootProgrammed := rfl
@[simp] theorem Dev.setReg_rootBlow (d : Dev) (a : Nat) (x : RegEntry) : (d.setReg a x).rootBlow = d.rootBlow := rfl
@[simp] theorem Dev.setReg_pubDigest (d : Dev) (a : Nat) (x : RegEntry) : (d.setReg a x).pubDigest = d.pubDigest := rfl
@[simp] theorem Dev.setReg_pads (d : Dev) (a : Nat) (x : RegEntry) : (d.setReg a x).pads = d.pads := rfl
@[simp] theorem Dev.setReg_cagesFolded (d : Dev) (a : Nat) (x : RegEntry) : (d.setReg a x).cagesFolded = d.cagesFolded := rfl
@[simp] theorem Dev.setReg_pins (d : Dev) (a : Nat) (x : RegEntry) : (d.setReg a x).pins = d.pins := rfl
@[simp] theorem Dev.setReg_clk (d : Dev) (a : Nat) (x : RegEntry) : (d.setReg a x).clk = d.clk := rfl
@[simp] theorem Dev.setReg_acts (d : Dev) (a : Nat) (x : RegEntry) : (d.setReg a x).acts = d.acts := rfl
@[simp] theorem Dev.setReg_actsFired (d : Dev) (a : Nat) (x : RegEntry) : (d.setReg a x).actsFired = d.actsFired := rfl
@[simp] theorem Dev.setReg_radios (d : Dev) (a : Nat) (x : RegEntry) : (d.setReg a x).radios = d.radios := rfl
@[simp] theorem Dev.setReg_kals (d : Dev) (a : Nat) (x : RegEntry) : (d.setReg a x).kals = d.kals := rfl
@[simp] theorem Dev.setReg_dram (d : Dev) (a : Nat) (x : RegEntry) : (d.setReg a x).dram = d.dram := rfl
@[simp] theorem Dev.setReg_temps (d : Dev) (a : Nat) (x : RegEntry) : (d.setReg a x).temps = d.temps := rfl
@[simp] theorem Dev.setReg_pup (d : Dev) (a : Nat) (x : RegEntry) : (d.setReg a x).pup = d.pup := rfl
@[simp] theorem Dev.setReg_cores (d : Dev) (a : Nat) (x : RegEntry) : (d.setReg a x).cores = d.cores := rfl
@[simp] theorem Dev.setReg_macs (d : Dev) (a : Nat) (x : RegEntry) : (d.setReg a x).macs = d.macs := rfl
@[simp] theorem Dev.setReg_cls (d : Dev) (a : Nat) (x : RegEntry) : (d.setReg a x).cls = d.cls := rfl
@[simp] theorem Dev.setReg_mgmtIn (d : Dev) (a : Nat) (x : RegEntry) : (d.setReg a x).mgmtIn = d.mgmtIn := rfl
@[simp] theorem Dev.setReg_queues (d : Dev) (a : Nat) (x : RegEntry) : (d.setReg a x).queues = d.queues := rfl
@[simp] theorem Dev.setReg_ports (d : Dev) (a : Nat) (x : RegEntry) : (d.setReg a x).ports = d.ports := rfl
@[simp] theorem Dev.setReg_policers (d : Dev) (a : Nat) (x : RegEntry) : (d.setReg a x).policers = d.policers := rfl
@[simp] theorem Dev.setReg_cip (d : Dev) (a : Nat) (x : RegEntry) : (d.setReg a x).cip = d.cip := rfl
@[simp] theorem Dev.setReg_drc (d : Dev) (a : Nat) (x : RegEntry) : (d.setReg a x).drc = d.drc := rfl
@[simp] theorem Dev.setReg_cal (d : Dev) (a : Nat) (x : RegEntry) : (d.setReg a x).cal = d.cal := rfl
@[simp] theorem Dev.setReg_rtc (d : Dev) (a : Nat) (x : RegEntry) : (d.setReg a x).rtc = d.rtc := rfl
@[simp] theorem Dev.setReg_word (d : Dev) (a : Nat) (x : RegEntry) (b : Nat) : (d.setReg a x).word b = d.word b := rfl
@[simp] theorem Dev.setReg_get (d : Dev) (a : Nat) (x : RegEntry) (b : Nat) (g : Fld) : (d.setReg a x).get b g = d.get b g := rfl

/-! ## setMac -/

@[simp] theorem Dev.setMac_nt (d : Dev) (n : Nat) (x : Mac) : (d.setMac n x).nt = d.nt := rfl
@[simp] theorem Dev.setMac_xo (d : Dev) (n : Nat) (x : Mac) : (d.setMac n x).xo = d.xo := rfl
@[simp] theorem Dev.setMac_member (d : Dev) (n : Nat) (x : Mac) : (d.setMac n x).member = d.member := rfl
@[simp] theorem Dev.setMac_regs (d : Dev) (n : Nat) (x : Mac) : (d.setMac n x).regs = d.regs := rfl
@[simp] theorem Dev.setMac_rdata (d : Dev) (n : Nat) (x : Mac) : (d.setMac n x).rdata = d.rdata := rfl
@[simp] theorem Dev.setMac_free (d : Dev) (n : Nat) (x : Mac) : (d.setMac n x).free = d.free := rfl
@[simp] theorem Dev.setMac_evt (d : Dev) (n : Nat) (x : Mac) : (d.setMac n x).evt = d.evt := rfl
@[simp] theorem Dev.setMac_links (d : Dev) (n : Nat) (x : Mac) : (d.setMac n x).links = d.links := rfl
@[simp] theorem Dev.setMac_clkOff (d : Dev) (n : Nat) (x : Mac) : (d.setMac n x).clkOff = d.clkOff := rfl
@[simp] theorem Dev.setMac_mons (d : Dev) (n : Nat) (x : Mac) : (d.setMac n x).mons = d.mons := rfl
@[simp] theorem Dev.setMac_pwr (d : Dev) (n : Nat) (x : Mac) : (d.setMac n x).pwr = d.pwr := rfl
@[simp] theorem Dev.setMac_boot (d : Dev) (n : Nat) (x : Mac) : (d.setMac n x).boot = d.boot := rfl
@[simp] theorem Dev.setMac_cmd (d : Dev) (n : Nat) (x : Mac) : (d.setMac n x).cmd = d.cmd := rfl
@[simp] theorem Dev.setMac_stages (d : Dev) (n : Nat) (x : Mac) : (d.setMac n x).stages = d.stages := rfl
@[simp] theorem Dev.setMac_stagesFired (d : Dev) (n : Nat) (x : Mac) : (d.setMac n x).stagesFired = d.stagesFired := rfl
@[simp] theorem Dev.setMac_nvmCopy (d : Dev) (n : Nat) (x : Mac) : (d.setMac n x).nvmCopy = d.nvmCopy := rfl
@[simp] theorem Dev.setMac_flash (d : Dev) (n : Nat) (x : Mac) : (d.setMac n x).flash = d.flash := rfl
@[simp] theorem Dev.setMac_fuses (d : Dev) (n : Nat) (x : Mac) : (d.setMac n x).fuses = d.fuses := rfl
@[simp] theorem Dev.setMac_rootKey (d : Dev) (n : Nat) (x : Mac) : (d.setMac n x).rootKey = d.rootKey := rfl
@[simp] theorem Dev.setMac_rootProgrammed (d : Dev) (n : Nat) (x : Mac) : (d.setMac n x).rootProgrammed = d.rootProgrammed := rfl
@[simp] theorem Dev.setMac_rootBlow (d : Dev) (n : Nat) (x : Mac) : (d.setMac n x).rootBlow = d.rootBlow := rfl
@[simp] theorem Dev.setMac_pubDigest (d : Dev) (n : Nat) (x : Mac) : (d.setMac n x).pubDigest = d.pubDigest := rfl
@[simp] theorem Dev.setMac_pads (d : Dev) (n : Nat) (x : Mac) : (d.setMac n x).pads = d.pads := rfl
@[simp] theorem Dev.setMac_cagesFolded (d : Dev) (n : Nat) (x : Mac) : (d.setMac n x).cagesFolded = d.cagesFolded := rfl
@[simp] theorem Dev.setMac_pins (d : Dev) (n : Nat) (x : Mac) : (d.setMac n x).pins = d.pins := rfl
@[simp] theorem Dev.setMac_clk (d : Dev) (n : Nat) (x : Mac) : (d.setMac n x).clk = d.clk := rfl
@[simp] theorem Dev.setMac_acts (d : Dev) (n : Nat) (x : Mac) : (d.setMac n x).acts = d.acts := rfl
@[simp] theorem Dev.setMac_actsFired (d : Dev) (n : Nat) (x : Mac) : (d.setMac n x).actsFired = d.actsFired := rfl
@[simp] theorem Dev.setMac_radios (d : Dev) (n : Nat) (x : Mac) : (d.setMac n x).radios = d.radios := rfl
@[simp] theorem Dev.setMac_kals (d : Dev) (n : Nat) (x : Mac) : (d.setMac n x).kals = d.kals := rfl
@[simp] theorem Dev.setMac_dram (d : Dev) (n : Nat) (x : Mac) : (d.setMac n x).dram = d.dram := rfl
@[simp] theorem Dev.setMac_temps (d : Dev) (n : Nat) (x : Mac) : (d.setMac n x).temps = d.temps := rfl
@[simp] theorem Dev.setMac_sched (d : Dev) (n : Nat) (x : Mac) : (d.setMac n x).sched = d.sched := rfl
@[simp] theorem Dev.setMac_pup (d : Dev) (n : Nat) (x : Mac) : (d.setMac n x).pup = d.pup := rfl
@[simp] theorem Dev.setMac_cores (d : Dev) (n : Nat) (x : Mac) : (d.setMac n x).cores = d.cores := rfl
@[simp] theorem Dev.setMac_cls (d : Dev) (n : Nat) (x : Mac) : (d.setMac n x).cls = d.cls := rfl
@[simp] theorem Dev.setMac_mgmtIn (d : Dev) (n : Nat) (x : Mac) : (d.setMac n x).mgmtIn = d.mgmtIn := rfl
@[simp] theorem Dev.setMac_queues (d : Dev) (n : Nat) (x : Mac) : (d.setMac n x).queues = d.queues := rfl
@[simp] theorem Dev.setMac_ports (d : Dev) (n : Nat) (x : Mac) : (d.setMac n x).ports = d.ports := rfl
@[simp] theorem Dev.setMac_policers (d : Dev) (n : Nat) (x : Mac) : (d.setMac n x).policers = d.policers := rfl
@[simp] theorem Dev.setMac_cip (d : Dev) (n : Nat) (x : Mac) : (d.setMac n x).cip = d.cip := rfl
@[simp] theorem Dev.setMac_drc (d : Dev) (n : Nat) (x : Mac) : (d.setMac n x).drc = d.drc := rfl
@[simp] theorem Dev.setMac_cal (d : Dev) (n : Nat) (x : Mac) : (d.setMac n x).cal = d.cal := rfl
@[simp] theorem Dev.setMac_rtc (d : Dev) (n : Nat) (x : Mac) : (d.setMac n x).rtc = d.rtc := rfl
@[simp] theorem Dev.setMac_word (d : Dev) (n : Nat) (x : Mac) (b : Nat) : (d.setMac n x).word b = d.word b := rfl
@[simp] theorem Dev.setMac_get (d : Dev) (n : Nat) (x : Mac) (b : Nat) (g : Fld) : (d.setMac n x).get b g = d.get b g := rfl
@[simp] theorem Dev.mac_setMac (d : Dev) (n : Nat) (x : Mac) : (d.setMac n x).mac n = x := smGet_set_same ..
theorem Dev.mac_setMac_ne (d : Dev) (n : Nat) (x : Mac) {j : Nat} (h : j ≠ n) : (d.setMac n x).mac j = d.mac j := smGet_set_ne _ _ h _
@[simp] theorem settle_mac (d : Dev) (n : Nat) : d.settle.mac n = d.mac n := by simp only [Dev.mac, settle_macs]

/-! ## setQueue -/

@[simp] theorem Dev.setQueue_nt (d : Dev) (q : Nat) (x : EQueue) : (d.setQueue q x).nt = d.nt := rfl
@[simp] theorem Dev.setQueue_xo (d : Dev) (q : Nat) (x : EQueue) : (d.setQueue q x).xo = d.xo := rfl
@[simp] theorem Dev.setQueue_member (d : Dev) (q : Nat) (x : EQueue) : (d.setQueue q x).member = d.member := rfl
@[simp] theorem Dev.setQueue_regs (d : Dev) (q : Nat) (x : EQueue) : (d.setQueue q x).regs = d.regs := rfl
@[simp] theorem Dev.setQueue_rdata (d : Dev) (q : Nat) (x : EQueue) : (d.setQueue q x).rdata = d.rdata := rfl
@[simp] theorem Dev.setQueue_free (d : Dev) (q : Nat) (x : EQueue) : (d.setQueue q x).free = d.free := rfl
@[simp] theorem Dev.setQueue_evt (d : Dev) (q : Nat) (x : EQueue) : (d.setQueue q x).evt = d.evt := rfl
@[simp] theorem Dev.setQueue_links (d : Dev) (q : Nat) (x : EQueue) : (d.setQueue q x).links = d.links := rfl
@[simp] theorem Dev.setQueue_clkOff (d : Dev) (q : Nat) (x : EQueue) : (d.setQueue q x).clkOff = d.clkOff := rfl
@[simp] theorem Dev.setQueue_mons (d : Dev) (q : Nat) (x : EQueue) : (d.setQueue q x).mons = d.mons := rfl
@[simp] theorem Dev.setQueue_pwr (d : Dev) (q : Nat) (x : EQueue) : (d.setQueue q x).pwr = d.pwr := rfl
@[simp] theorem Dev.setQueue_boot (d : Dev) (q : Nat) (x : EQueue) : (d.setQueue q x).boot = d.boot := rfl
@[simp] theorem Dev.setQueue_cmd (d : Dev) (q : Nat) (x : EQueue) : (d.setQueue q x).cmd = d.cmd := rfl
@[simp] theorem Dev.setQueue_stages (d : Dev) (q : Nat) (x : EQueue) : (d.setQueue q x).stages = d.stages := rfl
@[simp] theorem Dev.setQueue_stagesFired (d : Dev) (q : Nat) (x : EQueue) : (d.setQueue q x).stagesFired = d.stagesFired := rfl
@[simp] theorem Dev.setQueue_nvmCopy (d : Dev) (q : Nat) (x : EQueue) : (d.setQueue q x).nvmCopy = d.nvmCopy := rfl
@[simp] theorem Dev.setQueue_flash (d : Dev) (q : Nat) (x : EQueue) : (d.setQueue q x).flash = d.flash := rfl
@[simp] theorem Dev.setQueue_fuses (d : Dev) (q : Nat) (x : EQueue) : (d.setQueue q x).fuses = d.fuses := rfl
@[simp] theorem Dev.setQueue_rootKey (d : Dev) (q : Nat) (x : EQueue) : (d.setQueue q x).rootKey = d.rootKey := rfl
@[simp] theorem Dev.setQueue_rootProgrammed (d : Dev) (q : Nat) (x : EQueue) : (d.setQueue q x).rootProgrammed = d.rootProgrammed := rfl
@[simp] theorem Dev.setQueue_rootBlow (d : Dev) (q : Nat) (x : EQueue) : (d.setQueue q x).rootBlow = d.rootBlow := rfl
@[simp] theorem Dev.setQueue_pubDigest (d : Dev) (q : Nat) (x : EQueue) : (d.setQueue q x).pubDigest = d.pubDigest := rfl
@[simp] theorem Dev.setQueue_pads (d : Dev) (q : Nat) (x : EQueue) : (d.setQueue q x).pads = d.pads := rfl
@[simp] theorem Dev.setQueue_cagesFolded (d : Dev) (q : Nat) (x : EQueue) : (d.setQueue q x).cagesFolded = d.cagesFolded := rfl
@[simp] theorem Dev.setQueue_pins (d : Dev) (q : Nat) (x : EQueue) : (d.setQueue q x).pins = d.pins := rfl
@[simp] theorem Dev.setQueue_clk (d : Dev) (q : Nat) (x : EQueue) : (d.setQueue q x).clk = d.clk := rfl
@[simp] theorem Dev.setQueue_acts (d : Dev) (q : Nat) (x : EQueue) : (d.setQueue q x).acts = d.acts := rfl
@[simp] theorem Dev.setQueue_actsFired (d : Dev) (q : Nat) (x : EQueue) : (d.setQueue q x).actsFired = d.actsFired := rfl
@[simp] theorem Dev.setQueue_radios (d : Dev) (q : Nat) (x : EQueue) : (d.setQueue q x).radios = d.radios := rfl
@[simp] theorem Dev.setQueue_kals (d : Dev) (q : Nat) (x : EQueue) : (d.setQueue q x).kals = d.kals := rfl
@[simp] theorem Dev.setQueue_dram (d : Dev) (q : Nat) (x : EQueue) : (d.setQueue q x).dram = d.dram := rfl
@[simp] theorem Dev.setQueue_temps (d : Dev) (q : Nat) (x : EQueue) : (d.setQueue q x).temps = d.temps := rfl
@[simp] theorem Dev.setQueue_sched (d : Dev) (q : Nat) (x : EQueue) : (d.setQueue q x).sched = d.sched := rfl
@[simp] theorem Dev.setQueue_pup (d : Dev) (q : Nat) (x : EQueue) : (d.setQueue q x).pup = d.pup := rfl
@[simp] theorem Dev.setQueue_cores (d : Dev) (q : Nat) (x : EQueue) : (d.setQueue q x).cores = d.cores := rfl
@[simp] theorem Dev.setQueue_macs (d : Dev) (q : Nat) (x : EQueue) : (d.setQueue q x).macs = d.macs := rfl
@[simp] theorem Dev.setQueue_cls (d : Dev) (q : Nat) (x : EQueue) : (d.setQueue q x).cls = d.cls := rfl
@[simp] theorem Dev.setQueue_mgmtIn (d : Dev) (q : Nat) (x : EQueue) : (d.setQueue q x).mgmtIn = d.mgmtIn := rfl
@[simp] theorem Dev.setQueue_ports (d : Dev) (q : Nat) (x : EQueue) : (d.setQueue q x).ports = d.ports := rfl
@[simp] theorem Dev.setQueue_policers (d : Dev) (q : Nat) (x : EQueue) : (d.setQueue q x).policers = d.policers := rfl
@[simp] theorem Dev.setQueue_cip (d : Dev) (q : Nat) (x : EQueue) : (d.setQueue q x).cip = d.cip := rfl
@[simp] theorem Dev.setQueue_drc (d : Dev) (q : Nat) (x : EQueue) : (d.setQueue q x).drc = d.drc := rfl
@[simp] theorem Dev.setQueue_cal (d : Dev) (q : Nat) (x : EQueue) : (d.setQueue q x).cal = d.cal := rfl
@[simp] theorem Dev.setQueue_rtc (d : Dev) (q : Nat) (x : EQueue) : (d.setQueue q x).rtc = d.rtc := rfl
@[simp] theorem Dev.setQueue_word (d : Dev) (q : Nat) (x : EQueue) (b : Nat) : (d.setQueue q x).word b = d.word b := rfl
@[simp] theorem Dev.setQueue_get (d : Dev) (q : Nat) (x : EQueue) (b : Nat) (g : Fld) : (d.setQueue q x).get b g = d.get b g := rfl
@[simp] theorem Dev.queue_setQueue (d : Dev) (q : Nat) (x : EQueue) : (d.setQueue q x).queue q = x := smGet_set_same ..
theorem Dev.queue_setQueue_ne (d : Dev) (q : Nat) (x : EQueue) {j : Nat} (h : j ≠ q) : (d.setQueue q x).queue j = d.queue j := smGet_set_ne _ _ h _
@[simp] theorem settle_queue (d : Dev) (q : Nat) : d.settle.queue q = d.queue q := by simp only [Dev.queue, settle_queues]

/-! ## setPort -/

@[simp] theorem Dev.setPort_nt (d : Dev) (n : Nat) (x : Port) : (d.setPort n x).nt = d.nt := rfl
@[simp] theorem Dev.setPort_xo (d : Dev) (n : Nat) (x : Port) : (d.setPort n x).xo = d.xo := rfl
@[simp] theorem Dev.setPort_member (d : Dev) (n : Nat) (x : Port) : (d.setPort n x).member = d.member := rfl
@[simp] theorem Dev.setPort_regs (d : Dev) (n : Nat) (x : Port) : (d.setPort n x).regs = d.regs := rfl
@[simp] theorem Dev.setPort_rdata (d : Dev) (n : Nat) (x : Port) : (d.setPort n x).rdata = d.rdata := rfl
@[simp] theorem Dev.setPort_free (d : Dev) (n : Nat) (x : Port) : (d.setPort n x).free = d.free := rfl
@[simp] theorem Dev.setPort_evt (d : Dev) (n : Nat) (x : Port) : (d.setPort n x).evt = d.evt := rfl
@[simp] theorem Dev.setPort_links (d : Dev) (n : Nat) (x : Port) : (d.setPort n x).links = d.links := rfl
@[simp] theorem Dev.setPort_clkOff (d : Dev) (n : Nat) (x : Port) : (d.setPort n x).clkOff = d.clkOff := rfl
@[simp] theorem Dev.setPort_mons (d : Dev) (n : Nat) (x : Port) : (d.setPort n x).mons = d.mons := rfl
@[simp] theorem Dev.setPort_pwr (d : Dev) (n : Nat) (x : Port) : (d.setPort n x).pwr = d.pwr := rfl
@[simp] theorem Dev.setPort_boot (d : Dev) (n : Nat) (x : Port) : (d.setPort n x).boot = d.boot := rfl
@[simp] theorem Dev.setPort_cmd (d : Dev) (n : Nat) (x : Port) : (d.setPort n x).cmd = d.cmd := rfl
@[simp] theorem Dev.setPort_stages (d : Dev) (n : Nat) (x : Port) : (d.setPort n x).stages = d.stages := rfl
@[simp] theorem Dev.setPort_stagesFired (d : Dev) (n : Nat) (x : Port) : (d.setPort n x).stagesFired = d.stagesFired := rfl
@[simp] theorem Dev.setPort_nvmCopy (d : Dev) (n : Nat) (x : Port) : (d.setPort n x).nvmCopy = d.nvmCopy := rfl
@[simp] theorem Dev.setPort_flash (d : Dev) (n : Nat) (x : Port) : (d.setPort n x).flash = d.flash := rfl
@[simp] theorem Dev.setPort_fuses (d : Dev) (n : Nat) (x : Port) : (d.setPort n x).fuses = d.fuses := rfl
@[simp] theorem Dev.setPort_rootKey (d : Dev) (n : Nat) (x : Port) : (d.setPort n x).rootKey = d.rootKey := rfl
@[simp] theorem Dev.setPort_rootProgrammed (d : Dev) (n : Nat) (x : Port) : (d.setPort n x).rootProgrammed = d.rootProgrammed := rfl
@[simp] theorem Dev.setPort_rootBlow (d : Dev) (n : Nat) (x : Port) : (d.setPort n x).rootBlow = d.rootBlow := rfl
@[simp] theorem Dev.setPort_pubDigest (d : Dev) (n : Nat) (x : Port) : (d.setPort n x).pubDigest = d.pubDigest := rfl
@[simp] theorem Dev.setPort_pads (d : Dev) (n : Nat) (x : Port) : (d.setPort n x).pads = d.pads := rfl
@[simp] theorem Dev.setPort_cagesFolded (d : Dev) (n : Nat) (x : Port) : (d.setPort n x).cagesFolded = d.cagesFolded := rfl
@[simp] theorem Dev.setPort_pins (d : Dev) (n : Nat) (x : Port) : (d.setPort n x).pins = d.pins := rfl
@[simp] theorem Dev.setPort_clk (d : Dev) (n : Nat) (x : Port) : (d.setPort n x).clk = d.clk := rfl
@[simp] theorem Dev.setPort_acts (d : Dev) (n : Nat) (x : Port) : (d.setPort n x).acts = d.acts := rfl
@[simp] theorem Dev.setPort_actsFired (d : Dev) (n : Nat) (x : Port) : (d.setPort n x).actsFired = d.actsFired := rfl
@[simp] theorem Dev.setPort_radios (d : Dev) (n : Nat) (x : Port) : (d.setPort n x).radios = d.radios := rfl
@[simp] theorem Dev.setPort_kals (d : Dev) (n : Nat) (x : Port) : (d.setPort n x).kals = d.kals := rfl
@[simp] theorem Dev.setPort_dram (d : Dev) (n : Nat) (x : Port) : (d.setPort n x).dram = d.dram := rfl
@[simp] theorem Dev.setPort_temps (d : Dev) (n : Nat) (x : Port) : (d.setPort n x).temps = d.temps := rfl
@[simp] theorem Dev.setPort_sched (d : Dev) (n : Nat) (x : Port) : (d.setPort n x).sched = d.sched := rfl
@[simp] theorem Dev.setPort_pup (d : Dev) (n : Nat) (x : Port) : (d.setPort n x).pup = d.pup := rfl
@[simp] theorem Dev.setPort_cores (d : Dev) (n : Nat) (x : Port) : (d.setPort n x).cores = d.cores := rfl
@[simp] theorem Dev.setPort_macs (d : Dev) (n : Nat) (x : Port) : (d.setPort n x).macs = d.macs := rfl
@[simp] theorem Dev.setPort_cls (d : Dev) (n : Nat) (x : Port) : (d.setPort n x).cls = d.cls := rfl
@[simp] theorem Dev.setPort_mgmtIn (d : Dev) (n : Nat) (x : Port) : (d.setPort n x).mgmtIn = d.mgmtIn := rfl
@[simp] theorem Dev.setPort_queues (d : Dev) (n : Nat) (x : Port) : (d.setPort n x).queues = d.queues := rfl
@[simp] theorem Dev.setPort_policers (d : Dev) (n : Nat) (x : Port) : (d.setPort n x).policers = d.policers := rfl
@[simp] theorem Dev.setPort_cip (d : Dev) (n : Nat) (x : Port) : (d.setPort n x).cip = d.cip := rfl
@[simp] theorem Dev.setPort_drc (d : Dev) (n : Nat) (x : Port) : (d.setPort n x).drc = d.drc := rfl
@[simp] theorem Dev.setPort_cal (d : Dev) (n : Nat) (x : Port) : (d.setPort n x).cal = d.cal := rfl
@[simp] theorem Dev.setPort_rtc (d : Dev) (n : Nat) (x : Port) : (d.setPort n x).rtc = d.rtc := rfl
@[simp] theorem Dev.setPort_word (d : Dev) (n : Nat) (x : Port) (b : Nat) : (d.setPort n x).word b = d.word b := rfl
@[simp] theorem Dev.setPort_get (d : Dev) (n : Nat) (x : Port) (b : Nat) (g : Fld) : (d.setPort n x).get b g = d.get b g := rfl
@[simp] theorem Dev.port_setPort (d : Dev) (n : Nat) (x : Port) : (d.setPort n x).port n = x := smGet_set_same ..
theorem Dev.port_setPort_ne (d : Dev) (n : Nat) (x : Port) {j : Nat} (h : j ≠ n) : (d.setPort n x).port j = d.port j := smGet_set_ne _ _ h _
@[simp] theorem settle_port (d : Dev) (n : Nat) : d.settle.port n = d.port n := by simp only [Dev.port, settle_ports]

/-! ## setStage -/

@[simp] theorem Dev.setStage_nt (d : Dev) (n : Nat) (x : Stage) : (d.setStage n x).nt = d.nt := rfl
@[simp] theorem Dev.setStage_xo (d : Dev) (n : Nat) (x : Stage) : (d.setStage n x).xo = d.xo := rfl
@[simp] theorem Dev.setStage_member (d : Dev) (n : Nat) (x : Stage) : (d.setStage n x).member = d.member := rfl
@[simp] theorem Dev.setStage_regs (d : Dev) (n : Nat) (x : Stage) : (d.setStage n x).regs = d.regs := rfl
@[simp] theorem Dev.setStage_rdata (d : Dev) (n : Nat) (x : Stage) : (d.setStage n x).rdata = d.rdata := rfl
@[simp] theorem Dev.setStage_free (d : Dev) (n : Nat) (x : Stage) : (d.setStage n x).free = d.free := rfl
@[simp] theorem Dev.setStage_evt (d : Dev) (n : Nat) (x : Stage) : (d.setStage n x).evt = d.evt := rfl
@[simp] theorem Dev.setStage_links (d : Dev) (n : Nat) (x : Stage) : (d.setStage n x).links = d.links := rfl
@[simp] theorem Dev.setStage_clkOff (d : Dev) (n : Nat) (x : Stage) : (d.setStage n x).clkOff = d.clkOff := rfl
@[simp] theorem Dev.setStage_mons (d : Dev) (n : Nat) (x : Stage) : (d.setStage n x).mons = d.mons := rfl
@[simp] theorem Dev.setStage_pwr (d : Dev) (n : Nat) (x : Stage) : (d.setStage n x).pwr = d.pwr := rfl
@[simp] theorem Dev.setStage_boot (d : Dev) (n : Nat) (x : Stage) : (d.setStage n x).boot = d.boot := rfl
@[simp] theorem Dev.setStage_cmd (d : Dev) (n : Nat) (x : Stage) : (d.setStage n x).cmd = d.cmd := rfl
@[simp] theorem Dev.setStage_stagesFired (d : Dev) (n : Nat) (x : Stage) : (d.setStage n x).stagesFired = d.stagesFired := rfl
@[simp] theorem Dev.setStage_nvmCopy (d : Dev) (n : Nat) (x : Stage) : (d.setStage n x).nvmCopy = d.nvmCopy := rfl
@[simp] theorem Dev.setStage_flash (d : Dev) (n : Nat) (x : Stage) : (d.setStage n x).flash = d.flash := rfl
@[simp] theorem Dev.setStage_fuses (d : Dev) (n : Nat) (x : Stage) : (d.setStage n x).fuses = d.fuses := rfl
@[simp] theorem Dev.setStage_rootKey (d : Dev) (n : Nat) (x : Stage) : (d.setStage n x).rootKey = d.rootKey := rfl
@[simp] theorem Dev.setStage_rootProgrammed (d : Dev) (n : Nat) (x : Stage) : (d.setStage n x).rootProgrammed = d.rootProgrammed := rfl
@[simp] theorem Dev.setStage_rootBlow (d : Dev) (n : Nat) (x : Stage) : (d.setStage n x).rootBlow = d.rootBlow := rfl
@[simp] theorem Dev.setStage_pubDigest (d : Dev) (n : Nat) (x : Stage) : (d.setStage n x).pubDigest = d.pubDigest := rfl
@[simp] theorem Dev.setStage_pads (d : Dev) (n : Nat) (x : Stage) : (d.setStage n x).pads = d.pads := rfl
@[simp] theorem Dev.setStage_cagesFolded (d : Dev) (n : Nat) (x : Stage) : (d.setStage n x).cagesFolded = d.cagesFolded := rfl
@[simp] theorem Dev.setStage_pins (d : Dev) (n : Nat) (x : Stage) : (d.setStage n x).pins = d.pins := rfl
@[simp] theorem Dev.setStage_clk (d : Dev) (n : Nat) (x : Stage) : (d.setStage n x).clk = d.clk := rfl
@[simp] theorem Dev.setStage_acts (d : Dev) (n : Nat) (x : Stage) : (d.setStage n x).acts = d.acts := rfl
@[simp] theorem Dev.setStage_actsFired (d : Dev) (n : Nat) (x : Stage) : (d.setStage n x).actsFired = d.actsFired := rfl
@[simp] theorem Dev.setStage_radios (d : Dev) (n : Nat) (x : Stage) : (d.setStage n x).radios = d.radios := rfl
@[simp] theorem Dev.setStage_kals (d : Dev) (n : Nat) (x : Stage) : (d.setStage n x).kals = d.kals := rfl
@[simp] theorem Dev.setStage_dram (d : Dev) (n : Nat) (x : Stage) : (d.setStage n x).dram = d.dram := rfl
@[simp] theorem Dev.setStage_temps (d : Dev) (n : Nat) (x : Stage) : (d.setStage n x).temps = d.temps := rfl
@[simp] theorem Dev.setStage_sched (d : Dev) (n : Nat) (x : Stage) : (d.setStage n x).sched = d.sched := rfl
@[simp] theorem Dev.setStage_pup (d : Dev) (n : Nat) (x : Stage) : (d.setStage n x).pup = d.pup := rfl
@[simp] theorem Dev.setStage_cores (d : Dev) (n : Nat) (x : Stage) : (d.setStage n x).cores = d.cores := rfl
@[simp] theorem Dev.setStage_macs (d : Dev) (n : Nat) (x : Stage) : (d.setStage n x).macs = d.macs := rfl
@[simp] theorem Dev.setStage_cls (d : Dev) (n : Nat) (x : Stage) : (d.setStage n x).cls = d.cls := rfl
@[simp] theorem Dev.setStage_mgmtIn (d : Dev) (n : Nat) (x : Stage) : (d.setStage n x).mgmtIn = d.mgmtIn := rfl
@[simp] theorem Dev.setStage_queues (d : Dev) (n : Nat) (x : Stage) : (d.setStage n x).queues = d.queues := rfl
@[simp] theorem Dev.setStage_ports (d : Dev) (n : Nat) (x : Stage) : (d.setStage n x).ports = d.ports := rfl
@[simp] theorem Dev.setStage_policers (d : Dev) (n : Nat) (x : Stage) : (d.setStage n x).policers = d.policers := rfl
@[simp] theorem Dev.setStage_cip (d : Dev) (n : Nat) (x : Stage) : (d.setStage n x).cip = d.cip := rfl
@[simp] theorem Dev.setStage_drc (d : Dev) (n : Nat) (x : Stage) : (d.setStage n x).drc = d.drc := rfl
@[simp] theorem Dev.setStage_cal (d : Dev) (n : Nat) (x : Stage) : (d.setStage n x).cal = d.cal := rfl
@[simp] theorem Dev.setStage_rtc (d : Dev) (n : Nat) (x : Stage) : (d.setStage n x).rtc = d.rtc := rfl
@[simp] theorem Dev.setStage_word (d : Dev) (n : Nat) (x : Stage) (b : Nat) : (d.setStage n x).word b = d.word b := rfl
@[simp] theorem Dev.setStage_get (d : Dev) (n : Nat) (x : Stage) (b : Nat) (g : Fld) : (d.setStage n x).get b g = d.get b g := rfl
@[simp] theorem Dev.stage_setStage (d : Dev) (n : Nat) (x : Stage) : (d.setStage n x).stage n = x := smGet_set_same ..
theorem Dev.stage_setStage_ne (d : Dev) (n : Nat) (x : Stage) {j : Nat} (h : j ≠ n) : (d.setStage n x).stage j = d.stage j := smGet_set_ne _ _ h _
@[simp] theorem settle_stage (d : Dev) (n : Nat) : d.settle.stage n = d.stage n := by simp only [Dev.stage, settle_stages]

/-! ## setKeySlot -/

@[simp] theorem Dev.setKeySlot_nt (d : Dev) (n : Nat) (x : KeySlot) : (d.setKeySlot n x).nt = d.nt := rfl
@[simp] theorem Dev.setKeySlot_xo (d : Dev) (n : Nat) (x : KeySlot) : (d.setKeySlot n x).xo = d.xo := rfl
@[simp] theorem Dev.setKeySlot_member (d : Dev) (n : Nat) (x : KeySlot) : (d.setKeySlot n x).member = d.member := rfl
@[simp] theorem Dev.setKeySlot_regs (d : Dev) (n : Nat) (x : KeySlot) : (d.setKeySlot n x).regs = d.regs := rfl
@[simp] theorem Dev.setKeySlot_rdata (d : Dev) (n : Nat) (x : KeySlot) : (d.setKeySlot n x).rdata = d.rdata := rfl
@[simp] theorem Dev.setKeySlot_free (d : Dev) (n : Nat) (x : KeySlot) : (d.setKeySlot n x).free = d.free := rfl
@[simp] theorem Dev.setKeySlot_evt (d : Dev) (n : Nat) (x : KeySlot) : (d.setKeySlot n x).evt = d.evt := rfl
@[simp] theorem Dev.setKeySlot_links (d : Dev) (n : Nat) (x : KeySlot) : (d.setKeySlot n x).links = d.links := rfl
@[simp] theorem Dev.setKeySlot_clkOff (d : Dev) (n : Nat) (x : KeySlot) : (d.setKeySlot n x).clkOff = d.clkOff := rfl
@[simp] theorem Dev.setKeySlot_mons (d : Dev) (n : Nat) (x : KeySlot) : (d.setKeySlot n x).mons = d.mons := rfl
@[simp] theorem Dev.setKeySlot_pwr (d : Dev) (n : Nat) (x : KeySlot) : (d.setKeySlot n x).pwr = d.pwr := rfl
@[simp] theorem Dev.setKeySlot_boot (d : Dev) (n : Nat) (x : KeySlot) : (d.setKeySlot n x).boot = d.boot := rfl
@[simp] theorem Dev.setKeySlot_cmd (d : Dev) (n : Nat) (x : KeySlot) : (d.setKeySlot n x).cmd = d.cmd := rfl
@[simp] theorem Dev.setKeySlot_stages (d : Dev) (n : Nat) (x : KeySlot) : (d.setKeySlot n x).stages = d.stages := rfl
@[simp] theorem Dev.setKeySlot_stagesFired (d : Dev) (n : Nat) (x : KeySlot) : (d.setKeySlot n x).stagesFired = d.stagesFired := rfl
@[simp] theorem Dev.setKeySlot_nvmCopy (d : Dev) (n : Nat) (x : KeySlot) : (d.setKeySlot n x).nvmCopy = d.nvmCopy := rfl
@[simp] theorem Dev.setKeySlot_flash (d : Dev) (n : Nat) (x : KeySlot) : (d.setKeySlot n x).flash = d.flash := rfl
@[simp] theorem Dev.setKeySlot_fuses (d : Dev) (n : Nat) (x : KeySlot) : (d.setKeySlot n x).fuses = d.fuses := rfl
@[simp] theorem Dev.setKeySlot_rootKey (d : Dev) (n : Nat) (x : KeySlot) : (d.setKeySlot n x).rootKey = d.rootKey := rfl
@[simp] theorem Dev.setKeySlot_rootProgrammed (d : Dev) (n : Nat) (x : KeySlot) : (d.setKeySlot n x).rootProgrammed = d.rootProgrammed := rfl
@[simp] theorem Dev.setKeySlot_rootBlow (d : Dev) (n : Nat) (x : KeySlot) : (d.setKeySlot n x).rootBlow = d.rootBlow := rfl
@[simp] theorem Dev.setKeySlot_pubDigest (d : Dev) (n : Nat) (x : KeySlot) : (d.setKeySlot n x).pubDigest = d.pubDigest := rfl
@[simp] theorem Dev.setKeySlot_pads (d : Dev) (n : Nat) (x : KeySlot) : (d.setKeySlot n x).pads = d.pads := rfl
@[simp] theorem Dev.setKeySlot_cagesFolded (d : Dev) (n : Nat) (x : KeySlot) : (d.setKeySlot n x).cagesFolded = d.cagesFolded := rfl
@[simp] theorem Dev.setKeySlot_pins (d : Dev) (n : Nat) (x : KeySlot) : (d.setKeySlot n x).pins = d.pins := rfl
@[simp] theorem Dev.setKeySlot_clk (d : Dev) (n : Nat) (x : KeySlot) : (d.setKeySlot n x).clk = d.clk := rfl
@[simp] theorem Dev.setKeySlot_acts (d : Dev) (n : Nat) (x : KeySlot) : (d.setKeySlot n x).acts = d.acts := rfl
@[simp] theorem Dev.setKeySlot_actsFired (d : Dev) (n : Nat) (x : KeySlot) : (d.setKeySlot n x).actsFired = d.actsFired := rfl
@[simp] theorem Dev.setKeySlot_radios (d : Dev) (n : Nat) (x : KeySlot) : (d.setKeySlot n x).radios = d.radios := rfl
@[simp] theorem Dev.setKeySlot_kals (d : Dev) (n : Nat) (x : KeySlot) : (d.setKeySlot n x).kals = d.kals := rfl
@[simp] theorem Dev.setKeySlot_dram (d : Dev) (n : Nat) (x : KeySlot) : (d.setKeySlot n x).dram = d.dram := rfl
@[simp] theorem Dev.setKeySlot_temps (d : Dev) (n : Nat) (x : KeySlot) : (d.setKeySlot n x).temps = d.temps := rfl
@[simp] theorem Dev.setKeySlot_sched (d : Dev) (n : Nat) (x : KeySlot) : (d.setKeySlot n x).sched = d.sched := rfl
@[simp] theorem Dev.setKeySlot_pup (d : Dev) (n : Nat) (x : KeySlot) : (d.setKeySlot n x).pup = d.pup := rfl
@[simp] theorem Dev.setKeySlot_cores (d : Dev) (n : Nat) (x : KeySlot) : (d.setKeySlot n x).cores = d.cores := rfl
@[simp] theorem Dev.setKeySlot_macs (d : Dev) (n : Nat) (x : KeySlot) : (d.setKeySlot n x).macs = d.macs := rfl
@[simp] theorem Dev.setKeySlot_cls (d : Dev) (n : Nat) (x : KeySlot) : (d.setKeySlot n x).cls = d.cls := rfl
@[simp] theorem Dev.setKeySlot_mgmtIn (d : Dev) (n : Nat) (x : KeySlot) : (d.setKeySlot n x).mgmtIn = d.mgmtIn := rfl
@[simp] theorem Dev.setKeySlot_queues (d : Dev) (n : Nat) (x : KeySlot) : (d.setKeySlot n x).queues = d.queues := rfl
@[simp] theorem Dev.setKeySlot_ports (d : Dev) (n : Nat) (x : KeySlot) : (d.setKeySlot n x).ports = d.ports := rfl
@[simp] theorem Dev.setKeySlot_policers (d : Dev) (n : Nat) (x : KeySlot) : (d.setKeySlot n x).policers = d.policers := rfl
@[simp] theorem Dev.setKeySlot_drc (d : Dev) (n : Nat) (x : KeySlot) : (d.setKeySlot n x).drc = d.drc := rfl
@[simp] theorem Dev.setKeySlot_cal (d : Dev) (n : Nat) (x : KeySlot) : (d.setKeySlot n x).cal = d.cal := rfl
@[simp] theorem Dev.setKeySlot_rtc (d : Dev) (n : Nat) (x : KeySlot) : (d.setKeySlot n x).rtc = d.rtc := rfl
@[simp] theorem Dev.setKeySlot_word (d : Dev) (n : Nat) (x : KeySlot) (b : Nat) : (d.setKeySlot n x).word b = d.word b := rfl
@[simp] theorem Dev.setKeySlot_get (d : Dev) (n : Nat) (x : KeySlot) (b : Nat) (g : Fld) : (d.setKeySlot n x).get b g = d.get b g := rfl

/-! ## setRun -/

@[simp] theorem Dev.setRun_nt (d : Dev) (u : Nat) (x : CalRun) : (d.setRun u x).nt = d.nt := rfl
@[simp] theorem Dev.setRun_xo (d : Dev) (u : Nat) (x : CalRun) : (d.setRun u x).xo = d.xo := rfl
@[simp] theorem Dev.setRun_member (d : Dev) (u : Nat) (x : CalRun) : (d.setRun u x).member = d.member := rfl
@[simp] theorem Dev.setRun_regs (d : Dev) (u : Nat) (x : CalRun) : (d.setRun u x).regs = d.regs := rfl
@[simp] theorem Dev.setRun_rdata (d : Dev) (u : Nat) (x : CalRun) : (d.setRun u x).rdata = d.rdata := rfl
@[simp] theorem Dev.setRun_free (d : Dev) (u : Nat) (x : CalRun) : (d.setRun u x).free = d.free := rfl
@[simp] theorem Dev.setRun_evt (d : Dev) (u : Nat) (x : CalRun) : (d.setRun u x).evt = d.evt := rfl
@[simp] theorem Dev.setRun_links (d : Dev) (u : Nat) (x : CalRun) : (d.setRun u x).links = d.links := rfl
@[simp] theorem Dev.setRun_clkOff (d : Dev) (u : Nat) (x : CalRun) : (d.setRun u x).clkOff = d.clkOff := rfl
@[simp] theorem Dev.setRun_mons (d : Dev) (u : Nat) (x : CalRun) : (d.setRun u x).mons = d.mons := rfl
@[simp] theorem Dev.setRun_pwr (d : Dev) (u : Nat) (x : CalRun) : (d.setRun u x).pwr = d.pwr := rfl
@[simp] theorem Dev.setRun_boot (d : Dev) (u : Nat) (x : CalRun) : (d.setRun u x).boot = d.boot := rfl
@[simp] theorem Dev.setRun_cmd (d : Dev) (u : Nat) (x : CalRun) : (d.setRun u x).cmd = d.cmd := rfl
@[simp] theorem Dev.setRun_stages (d : Dev) (u : Nat) (x : CalRun) : (d.setRun u x).stages = d.stages := rfl
@[simp] theorem Dev.setRun_stagesFired (d : Dev) (u : Nat) (x : CalRun) : (d.setRun u x).stagesFired = d.stagesFired := rfl
@[simp] theorem Dev.setRun_nvmCopy (d : Dev) (u : Nat) (x : CalRun) : (d.setRun u x).nvmCopy = d.nvmCopy := rfl
@[simp] theorem Dev.setRun_flash (d : Dev) (u : Nat) (x : CalRun) : (d.setRun u x).flash = d.flash := rfl
@[simp] theorem Dev.setRun_fuses (d : Dev) (u : Nat) (x : CalRun) : (d.setRun u x).fuses = d.fuses := rfl
@[simp] theorem Dev.setRun_rootKey (d : Dev) (u : Nat) (x : CalRun) : (d.setRun u x).rootKey = d.rootKey := rfl
@[simp] theorem Dev.setRun_rootProgrammed (d : Dev) (u : Nat) (x : CalRun) : (d.setRun u x).rootProgrammed = d.rootProgrammed := rfl
@[simp] theorem Dev.setRun_rootBlow (d : Dev) (u : Nat) (x : CalRun) : (d.setRun u x).rootBlow = d.rootBlow := rfl
@[simp] theorem Dev.setRun_pubDigest (d : Dev) (u : Nat) (x : CalRun) : (d.setRun u x).pubDigest = d.pubDigest := rfl
@[simp] theorem Dev.setRun_pads (d : Dev) (u : Nat) (x : CalRun) : (d.setRun u x).pads = d.pads := rfl
@[simp] theorem Dev.setRun_cagesFolded (d : Dev) (u : Nat) (x : CalRun) : (d.setRun u x).cagesFolded = d.cagesFolded := rfl
@[simp] theorem Dev.setRun_pins (d : Dev) (u : Nat) (x : CalRun) : (d.setRun u x).pins = d.pins := rfl
@[simp] theorem Dev.setRun_clk (d : Dev) (u : Nat) (x : CalRun) : (d.setRun u x).clk = d.clk := rfl
@[simp] theorem Dev.setRun_acts (d : Dev) (u : Nat) (x : CalRun) : (d.setRun u x).acts = d.acts := rfl
@[simp] theorem Dev.setRun_actsFired (d : Dev) (u : Nat) (x : CalRun) : (d.setRun u x).actsFired = d.actsFired := rfl
@[simp] theorem Dev.setRun_radios (d : Dev) (u : Nat) (x : CalRun) : (d.setRun u x).radios = d.radios := rfl
@[simp] theorem Dev.setRun_kals (d : Dev) (u : Nat) (x : CalRun) : (d.setRun u x).kals = d.kals := rfl
@[simp] theorem Dev.setRun_dram (d : Dev) (u : Nat) (x : CalRun) : (d.setRun u x).dram = d.dram := rfl
@[simp] theorem Dev.setRun_temps (d : Dev) (u : Nat) (x : CalRun) : (d.setRun u x).temps = d.temps := rfl
@[simp] theorem Dev.setRun_sched (d : Dev) (u : Nat) (x : CalRun) : (d.setRun u x).sched = d.sched := rfl
@[simp] theorem Dev.setRun_pup (d : Dev) (u : Nat) (x : CalRun) : (d.setRun u x).pup = d.pup := rfl
@[simp] theorem Dev.setRun_cores (d : Dev) (u : Nat) (x : CalRun) : (d.setRun u x).cores = d.cores := rfl
@[simp] theorem Dev.setRun_macs (d : Dev) (u : Nat) (x : CalRun) : (d.setRun u x).macs = d.macs := rfl
@[simp] theorem Dev.setRun_cls (d : Dev) (u : Nat) (x : CalRun) : (d.setRun u x).cls = d.cls := rfl
@[simp] theorem Dev.setRun_mgmtIn (d : Dev) (u : Nat) (x : CalRun) : (d.setRun u x).mgmtIn = d.mgmtIn := rfl
@[simp] theorem Dev.setRun_queues (d : Dev) (u : Nat) (x : CalRun) : (d.setRun u x).queues = d.queues := rfl
@[simp] theorem Dev.setRun_ports (d : Dev) (u : Nat) (x : CalRun) : (d.setRun u x).ports = d.ports := rfl
@[simp] theorem Dev.setRun_policers (d : Dev) (u : Nat) (x : CalRun) : (d.setRun u x).policers = d.policers := rfl
@[simp] theorem Dev.setRun_cip (d : Dev) (u : Nat) (x : CalRun) : (d.setRun u x).cip = d.cip := rfl
@[simp] theorem Dev.setRun_drc (d : Dev) (u : Nat) (x : CalRun) : (d.setRun u x).drc = d.drc := rfl
@[simp] theorem Dev.setRun_rtc (d : Dev) (u : Nat) (x : CalRun) : (d.setRun u x).rtc = d.rtc := rfl
@[simp] theorem Dev.setRun_word (d : Dev) (u : Nat) (x : CalRun) (b : Nat) : (d.setRun u x).word b = d.word b := rfl
@[simp] theorem Dev.setRun_get (d : Dev) (u : Nat) (x : CalRun) (b : Nat) (g : Fld) : (d.setRun u x).get b g = d.get b g := rfl

@[simp] theorem Dev.task_setTask (d : Dev) (i : Nat) (x : Task) : (d.setTask i x).task i = some x := by
  show smFind (smInsert i x d.pup.tasks) i = some x
  rw [smFind_insert, if_pos rfl]

end Sys2Proof.Machine
end

