-- ==== Sys2Proof/Laws/Frame.lean ====
section
/-! SUPPORT. Frames compose: each named update keeps what it does not name, so a meaning's frame follows step by step from its text. -/

namespace Sys2Proof

open Sys2Proof.Machine

variable {ps : List Part} {rs es : List Nat} {d e f : Dev}

theorem Part.same_refl (p : Part) (d : Dev) : p.same d d := by
  cases p <;> simp [Part.same]

theorem Part.same_trans {p : Part} (h : p.same d e) (g : p.same e f) : p.same d f := by
  cases p <;> simp only [Part.same] at * <;> first
    | exact g.trans h
    | exact ⟨g.1.trans h.1, g.2.trans h.2⟩
    | exact ⟨g.1.trans h.1, g.2.1.trans h.2.1, g.2.2.trans h.2.2⟩

theorem Frame.refl (d : Dev) : Frame ps rs es d d := ⟨fun p _ => p.same_refl d, fun _ _ _ _ => rfl, fun _ _ _ => rfl⟩

theorem Frame.trans (h : Frame ps rs es d e) (g : Frame ps rs es e f) : Frame ps rs es d f :=
  ⟨fun p hp => Part.same_trans (h.1 p hp) (g.1 p hp), fun a h1 h2 h3 => (g.2.1 a h1 h2 h3).trans (h.2.1 a h1 h2 h3),
    fun n h1 h2 => (g.2.2 n h1 h2).trans (h.2.2 n h1 h2)⟩

/-- A frame with more parts, registers and events says less. -/
theorem Frame.mono {ps' : List Part} {rs' es' : List Nat} (h : Frame ps rs es d e) (hp : ∀ p ∈ ps, p ∈ ps') (hr : ∀ a ∈ rs, a ∈ rs')
    (he : ∀ n ∈ es, n ∈ es') : Frame ps' rs' es' d e :=
  ⟨fun p q => h.1 p (fun x => q (hp p x)), fun a q => h.2.1 a (fun x => q (hr a x)), fun n q r => h.2.2 n q (fun x => r (he n x))⟩

/-- A conditional step. -/
theorem Frame.ite {c : Prop} [Decidable c] (h : c → Frame ps rs es d e) (g : ¬ c → Frame ps rs es d f) :
    Frame ps rs es d (if c then e else f) := by
  split
  · exact h ‹_›
  · exact g ‹_›

/-- A fold of steps. -/
theorem Frame.foldl {β : Type} {g : Dev → β → Dev} (bs : List β) (h : ∀ x b, Frame ps rs es x (g x b)) (d : Dev) :
    Frame ps rs es d (bs.foldl g d) := by
  induction bs generalizing d with
  | nil => exact .refl d
  | cons b bs ih => exact (h d b).trans (ih _)

/-- An update of plain parts: registers and events untouched. -/
theorem Frame.parts (hp : ∀ p, p ∉ ps → p.same d e) (hr : e.regs = d.regs) : Frame ps rs es d e := by
  have hw : ∀ a, e.word a = d.word a := fun a => by rw [Dev.word, hr, Dev.word]
  exact ⟨hp, fun a _ _ _ => hw a, fun n _ _ => by rw [Dev.evtStatus, hw, Dev.evtStatus]⟩

theorem evtStatusReg_mem (n : Nat) : evtStatusReg n ∈ evtStatuses := by
  unfold evtStatusReg evtStatuses; split <;> simp

/-- A write to a register of the frame. -/
theorem Frame.setWord (a : Nat) (w : Word) (ha : a ∈ rs ∨ a ∈ evtCounts) (hs : a ∉ evtStatuses) : Frame ps rs es d (d.setWord a w) := by
  refine ⟨fun p _ => by cases p <;> simp [Part.same], fun b h1 h2 _ => d.word_setWord_ne ?_ w, fun n _ _ => ?_⟩
  · rintro rfl; exact ha.elim h1 h2
  · have : evtStatusReg n ≠ a := fun h => hs (h ▸ evtStatusReg_mem n)
    rw [Dev.evtStatus, d.word_setWord_ne this, Dev.evtStatus]

theorem Frame.put (a : Nat) (f : Fld) (v : Nat) (ha : a ∈ rs ∨ a ∈ evtCounts) (hs : a ∉ evtStatuses) : Frame ps rs es d (d.put a f v) :=
  .setWord a _ ha hs

theorem Frame.bumpBy (a : Nat) (f : Fld) (n : Nat) (ha : a ∈ rs ∨ a ∈ evtCounts) (hs : a ∉ evtStatuses) : Frame ps rs es d (d.bumpBy a f n) :=
  .setWord a _ ha hs

theorem Frame.bump (a : Nat) (f : Fld) (ha : a ∈ rs ∨ a ∈ evtCounts) (hs : a ∉ evtStatuses) : Frame ps rs es d (d.bump a f) :=
  .setWord a _ ha hs

/-- A raise touches the status bit of its own source alone. -/
theorem evtStatus_raise_ne (d : Dev) (src unit detail n : Nat) (hs : src < 64) (hn : n < 64) (h : n ≠ src) :
    (d.raise src unit detail).evtStatus n = d.evtStatus n := by
  unfold Dev.raise
  split
  · rfl
  · split
    · show ((d.setWord (evtStatusReg src) _).word (evtStatusReg n)).getLsbD (n % 32) = _
      rw [Dev.word_setWord]
      split
      · rename_i heq
        have hd : R.EVT_STATUS_LO ≠ R.EVT_STATUS_HI := by decide
        have hm : n % 32 ≠ src % 32 := by
          unfold evtStatusReg at heq
          intro hm
          split at heq <;> split at heq
          · omega
          · exact hd heq
          · exact hd heq.symm
          · omega
        have hb : (BitVec.ofNat 32 (2 ^ (src % 32))).getLsbD (n % 32) = false := by
          rw [BitVec.getLsbD_ofNat, Nat.testBit_two_pow_of_ne (fun e => hm e.symm)]
          simp
        rw [BitVec.getLsbD_or, hb, Bool.or_false, ← heq]
        rfl
      · rfl
    · rfl

theorem Frame.raise (src unit detail : Nat) (hs : src < 64) (he : src ∈ es) : Frame ps rs es d (d.raise src unit detail) := by
  refine ⟨fun p _ => ?_, fun a _ _ h3 => ?_, fun n hn h => ?_⟩
  · cases p <;> simp only [Part.same, raise_nt, raise_xo, raise_rdata, raise_free, raise_links, raise_clkOff, raise_mons, raise_pwr, raise_boot,
      raise_cmd, raise_stages, raise_stagesFired, raise_nvmCopy, raise_flash, raise_fuses, raise_pubDigest, raise_member, raise_rootKey,
      raise_rootProgrammed, raise_rootBlow, raise_pads, raise_cagesFolded, raise_clk, raise_acts, raise_actsFired, raise_radios, raise_kals,
      raise_dram, raise_temps, raise_sched, raise_pup, raise_cores, raise_macs, raise_cls, raise_mgmtIn, raise_queues, raise_ports,
      raise_policers, raise_cip, raise_drc, raise_cal, raise_rtc, and_self]
    unfold Dev.raise Dev.raiseNow
    split
    · simp
    · split <;> simp
  · simp only [evtStatuses, List.mem_cons, List.not_mem_nil, or_false, not_or] at h3
    exact raise_word d src unit detail h3.1 h3.2
  · exact evtStatus_raise_ne d src unit detail n hs hn (fun x => h (x ▸ he))

/-- The end of a command. -/
theorem Frame.settle : Frame ps rs es d d.settle := by
  refine ⟨fun p _ => ?_, fun a _ h2 _ => ?_, fun n _ _ => settle_evtStatus d n⟩
  · cases p <;> simp [Part.same]
  · simp only [evtCounts, List.mem_cons, List.not_mem_nil, or_false, not_or] at h2
    exact settle_word d h2.1 h2.2

/-- Time moves on. -/
theorem Frame.at_ (t : Nat) (h1 : Part.nt ∈ ps) (h2 : Part.xo ∈ ps) : Frame ps rs es d (d.at_ t) :=
  .parts (fun p hp => by cases p <;> simp [Part.same] <;> first | exact absurd h1 hp | exact absurd h2 hp) rfl

theorem Frame.setRadio (r : Nat) (x : Radio) (h : Part.radios ∈ ps) : Frame ps rs es d (d.setRadio r x) :=
  .parts (fun p hp => by cases p <;> simp [Part.same]; exact absurd h hp) rfl

theorem Frame.setKal (r : Nat) (x : Kal) (h : Part.kals ∈ ps) : Frame ps rs es d (d.setKal r x) :=
  .parts (fun p hp => by cases p <;> simp [Part.same]; exact absurd h hp) rfl

theorem Frame.setMon (n : Nat) (x : Mon) (h : Part.mons ∈ ps) : Frame ps rs es d (d.setMon n x) :=
  .parts (fun p hp => by cases p <;> simp [Part.same]; exact absurd h hp) rfl

theorem Frame.setMcore (c : Nat) (x : Core) (h : Part.cores ∈ ps) : Frame ps rs es d (d.setMcore c x) :=
  .parts (fun p hp => by cases p <;> simp [Part.same]; exact absurd h hp) rfl

theorem Frame.setPcore (c : Nat) (x : PCore) (h : Part.pup ∈ ps) : Frame ps rs es d (d.setPcore c x) :=
  .parts (fun p hp => by cases p <;> simp [Part.same]; exact absurd h hp) rfl

theorem Frame.setTask (i : Nat) (x : Task) (h : Part.pup ∈ ps) : Frame ps rs es d (d.setTask i x) :=
  .parts (fun p hp => by cases p <;> simp [Part.same]; exact absurd h hp) rfl

theorem Frame.setFlow (g : Nat) (x : Flow) (h : Part.pup ∈ ps) : Frame ps rs es d (d.setFlow g x) :=
  .parts (fun p hp => by cases p <;> simp [Part.same]; exact absurd h hp) rfl

theorem Frame.setCtx (i : Nat) (x : Ctx) (h : Part.sched ∈ ps) : Frame ps rs es d (d.setCtx i x) :=
  .parts (fun p hp => by cases p <;> simp [Part.same]; exact absurd h hp) rfl

theorem Frame.setReg (a : Nat) (x : RegEntry) (h : Part.sched ∈ ps) : Frame ps rs es d (d.setReg a x) :=
  .parts (fun p hp => by cases p <;> simp [Part.same]; exact absurd h hp) rfl

theorem Frame.setMac (n : Nat) (x : Mac) (h : Part.macs ∈ ps) : Frame ps rs es d (d.setMac n x) :=
  .parts (fun p hp => by cases p <;> simp [Part.same]; exact absurd h hp) rfl

theorem Frame.setQueue (g : Nat) (x : EQueue) (h : Part.queues ∈ ps) : Frame ps rs es d (d.setQueue g x) :=
  .parts (fun p hp => by cases p <;> simp [Part.same]; exact absurd h hp) rfl

theorem Frame.setPort (n : Nat) (x : Port) (h : Part.ports ∈ ps) : Frame ps rs es d (d.setPort n x) :=
  .parts (fun p hp => by cases p <;> simp [Part.same]; exact absurd h hp) rfl

theorem Frame.setStage (n : Nat) (x : Stage) (h : Part.stages ∈ ps) : Frame ps rs es d (d.setStage n x) :=
  .parts (fun p hp => by cases p <;> simp [Part.same]; exact absurd h hp) rfl

theorem Frame.setKeySlot (n : Nat) (x : KeySlot) (h : Part.cip ∈ ps) : Frame ps rs es d (d.setKeySlot n x) :=
  .parts (fun p hp => by cases p <;> simp [Part.same]; exact absurd h hp) rfl

theorem Frame.setRun (u : Nat) (x : CalRun) (h : Part.cal ∈ ps) : Frame ps rs es d (d.setRun u x) :=
  .parts (fun p hp => by cases p <;> simp [Part.same]; exact absurd h hp) rfl

theorem Frame.setLink (n : Nat) (x : Link) (h : Part.links ∈ ps) : Frame ps rs es d (d.setLink n x) :=
  .parts (fun p hp => by cases p <;> simp [Part.same]; exact absurd h hp) rfl

theorem Frame.setDom (c v : Nat) (h : Part.pwr ∈ ps) : Frame ps rs es d (d.setDom c v) :=
  .parts (fun p hp => by cases p <;> simp [Part.same]; exact absurd h hp) rfl

theorem Frame.answer (w : Word) (h : Part.rdata ∈ ps) : Frame ps rs es d (d.answer w) :=
  .parts (fun p hp => by cases p <;> simp [Part.same]; exact absurd h hp) rfl

/-- The frame of a command of the HUB. -/
theorem frame_hub {c : Instr} {s t : State} {g : Dev → Dev} (h : exec c s = finish s (s.dev.whenHub g)) (hn : exec c s = .next t)
    (hf : Frame ps rs es s.dev (g s.dev)) : Frame ps rs es s.dev t.dev := by
  rw [h, finish_eq] at hn
  cases hn
  refine Frame.trans ?_ .settle
  unfold Dev.whenHub
  split
  · exact hf
  · exact .refl _

/-- The frame of a command that acts wherever the device stands. -/
theorem frame_of {c : Instr} {s t : State} {e : Dev} (h : exec c s = finish s e) (hn : exec c s = .next t)
    (hf : Frame ps rs es s.dev e) : Frame ps rs es s.dev t.dev := by
  rw [h, finish_eq] at hn
  cases hn
  exact hf.trans .settle

end Sys2Proof
end

