-- ==== Sys2Proof/Laws/Memory.lean ====
section
/-! SUPPORT. DRAM and the flash: every operation over them keeps their canonical form, a read after a write gives what was written, and every other
byte stays. -/

namespace Sys2Proof.Machine

open Sys2Proof

/-- Bytes stored one by one keep the canonical form. -/
theorem wf_foldl_set (dflt : Byte) (a : Nat) (ps : List (Byte × Nat)) (m : SMap Byte) (h : Memory.wf dflt m) :
    Memory.wf dflt (ps.foldl (fun m p => smSet (fun _ => dflt) m (a + p.2) p.1) m) := by
  induction ps generalizing m with
  | nil => exact h
  | cons p ps ih => exact ih _ (smWf_set _ _ h)

/-- What a byte reads as after bytes were stored from an address on. -/
theorem get_foldl_set (dflt : Byte) (a : Nat) (bs : Bytes) (n : Nat) (m : SMap Byte) (x : Nat) :
    smGet (fun _ => dflt) ((bs.zipIdx n).foldl (fun m p => smSet (fun _ => dflt) m (a + p.2) p.1) m) x =
      if a + n ≤ x ∧ x < a + n + bs.length then bs.getD (x - (a + n)) 0 else smGet (fun _ => dflt) m x := by
  induction bs generalizing n m with
  | nil => simp
  | cons b bs ih =>
    simp only [List.zipIdx_cons, List.foldl_cons, ih, List.length_cons]
    by_cases h1 : x = a + n
    · subst h1
      rw [if_neg (by omega), if_pos (by omega), smGet_set_same]
      simp
    · rw [smGet_set_ne _ _ h1]
      by_cases h2 : a + (n + 1) ≤ x ∧ x < a + (n + 1) + bs.length
      · rw [if_pos h2, if_pos (by omega)]
        have : x - (a + n) = (x - (a + (n + 1))) + 1 := by omega
        rw [this]; rfl
      · rw [if_neg h2, if_neg (by omega)]

/-! ## DRAM -/

theorem dramWrite_wf (d : Dev) (a : Nat) (bs : Bytes) (h : Memory.wf 0 d.dram) : Memory.wf 0 (d.dramWrite a bs).dram := by
  unfold Dev.dramWrite; split
  · exact smWf_write _ _ h
  · exact h

theorem dramByte_write (d : Dev) (a : Nat) (bs : Bytes) (h : d.dramOk a bs.length = true) (x : Nat) :
    (d.dramWrite a bs).dramByte x = if a ≤ x ∧ x < a + bs.length then bs.getD (x - a) 0 else d.dramByte x := by
  unfold Dev.dramWrite; rw [if_pos h]
  exact smGet_write (fun _ => 0) d.dram a bs x

/-- A write that DRAM does not serve leaves it. -/
theorem dramWrite_refused (d : Dev) (a : Nat) (bs : Bytes) (h : d.dramOk a bs.length = false) : d.dramWrite a bs = d := by
  unfold Dev.dramWrite; rw [if_neg (by simp [h])]

/-- A read of what a write put there. -/
theorem dramRead_write (d : Dev) (a : Nat) (bs : Bytes) (h : d.dramOk a bs.length = true) : (d.dramWrite a bs).dramRead a bs.length = bs := by
  refine List.ext_getElem (by simp [Dev.dramRead]) fun i _ hi => ?_
  simp [Dev.dramRead, dramByte_write d a bs h, hi]

/-! ## The frames of the sample ring -/

/-- Samples written out one after the other: four bytes each. -/
theorem iqBytes_flatMap_length (f : Nat → IQ) (n : Nat) : ((List.range n).flatMap (fun j => iqBytes (f j))).length = 4 * n := by
  induction n with
  | zero => rfl
  | succ n ih => simp only [List.range_succ, List.flatMap_append, List.length_append, ih]; simp [iqBytes, toLE]; omega

/-- A frame of no bonded group holds 600 samples of each sub-channel (R145). -/
theorem frameIq_length (x : Kal) (a : Nat) (bond : List Word) (h : (List.range 1536).all (fun k => bondGroup bond k == (k, 1)) = true) :
    (x.frameIq a bond).length = 3686400 := by
  have hr : ∀ k ∈ List.range 1536, (x.region a bond k).length = 2400 := by
    intro k hk
    have hb : bondGroup bond k = (k, 1) := by simpa using List.all_eq_true.1 h k hk
    simp only [Kal.region, hb, bne_self_eq_false, Bool.false_eq_true, if_false, if_true, iqBytes_flatMap_length]
  rw [Kal.frameIq, List.length_flatMap, List.map_congr_left hr, List.map_const', List.sum_replicate_nat, List.length_range]

/-! ## The flash -/

theorem flashStore_wf (d : Dev) (a : Nat) (bs : Bytes) (h : Memory.wf 0xFF d.flash) : Memory.wf 0xFF (d.flashStore a bs).flash :=
  wf_foldl_set _ _ _ _ h

theorem flashByte_store (d : Dev) (a : Nat) (bs : Bytes) (x : Nat) :
    smGet (fun _ => (0xFF : Byte)) (d.flashStore a bs).flash x =
      if a ≤ x ∧ x < a + bs.length then bs.getD (x - a) 0 else smGet (fun _ => 0xFF) d.flash x :=
  get_foldl_set 0xFF a bs 0 d.flash x

/-- An erase keeps the canonical form. -/
theorem flashErase_wf (m : SMap Byte) (lo hi : Nat) (h : Memory.wf 0xFF m) : Memory.wf 0xFF (smClear m lo hi) := smWf_clear lo hi h

/-! ## Reset -/

theorem reset_dram_wf : Memory.wf 0 State.reset.dev.dram := rfl

theorem reset_flash_wf : Memory.wf 0xFF State.reset.dev.flash := rfl

end Sys2Proof.Machine
end

