-- ==== Sys2Proof/Laws/Reset.lean ====
section
/-! SUPPORT. What the shared steps of a reset leave (21_reliability_and_ordering.md, R472 to R480). -/

namespace Sys2Proof.Machine

open Sys2Proof

/-- What every step of a fold leaves, the fold leaves. -/
theorem foldl_keeps {α β γ : Type} (g : α → γ) (f : α → β → α) (h : ∀ a b, g (f a b) = g a) (bs : List β) (a : α) : g (bs.foldl f a) = g a := by
  induction bs generalizing a with
  | nil => rfl
  | cons b bs ih => rw [List.foldl_cons, ih, h]

/-- A cut blow touches fuses and the count of free values alone. -/
theorem cutRpBlow_eq (d : Dev) (r : Nat) : ∃ f n, d.cutRpBlow r = { d with fuses := f, free := n } := by
  unfold Dev.cutRpBlow
  split
  · exact ⟨_, _, rfl⟩
  · exact ⟨_, _, rfl⟩

theorem cutRootBlow_keeps {γ : Type} (g : Dev → γ) (h : ∀ (d : Dev) n k b, g { d with free := n, rootKey := k, rootBlow := b } = g d) (d : Dev) :
    g d.cutRootBlow = g d := by
  unfold Dev.cutRootBlow
  split
  · rfl
  · rw [foldl_keeps g _ (fun a b => ?_)]
    · exact h d d.free d.rootKey none
    · exact h a (a.free + 1) _ a.rootBlow

/-- The blows that a reset cuts off touch fuses, root key and the count of free values alone. -/
theorem cutBlows_keeps {γ : Type} (g : Dev → γ)
    (h : ∀ (d : Dev) n k b f, g { d with free := n, rootKey := k, rootBlow := b, fuses := f } = g d) (d : Dev) : g d.cutBlows = g d := by
  unfold Dev.cutBlows
  rw [cutRootBlow_keeps g (fun d n k b => h d n k b d.fuses)]
  refine foldl_keeps g _ (fun a r => ?_) _ d
  obtain ⟨f, n, e⟩ := cutRpBlow_eq a r
  rw [e]; exact h a n a.rootKey a.rootBlow f

@[simp] theorem cutBlows_pwr (d : Dev) : d.cutBlows.pwr = d.pwr := cutBlows_keeps (·.pwr) (fun _ _ _ _ _ => rfl) d
@[simp] theorem cutBlows_flash (d : Dev) : d.cutBlows.flash = d.flash := cutBlows_keeps (·.flash) (fun _ _ _ _ _ => rfl) d
@[simp] theorem cutBlows_rtc (d : Dev) : d.cutBlows.rtc = d.rtc := cutBlows_keeps (·.rtc) (fun _ _ _ _ _ => rfl) d
@[simp] theorem cutBlows_regs (d : Dev) : d.cutBlows.regs = d.regs := cutBlows_keeps (·.regs) (fun _ _ _ _ _ => rfl) d

theorem latchStraps_eq (d : Dev) : ∃ st, d.latchStraps = { d with pwr := { d.pwr with straps := st } } := ⟨_, rfl⟩

theorem loadNt_eq (d : Dev) : ∃ n, d.loadNt = { d with nt := n } := ⟨_, rfl⟩

/-- A power-on leaves the bare device, with the HUB out of reset unless RESET_N is low (R479). -/
theorem powerOn_eq (d : Dev) : ∃ n st, d.powerOn =
    { d.cutBlows.bare with nt := n, pwr := { Pwr.reset with resetLow := d.pwr.resetLow, hubOn := !d.pwr.resetLow, straps := st } } := by
  unfold Dev.powerOn
  obtain ⟨st, h⟩ := latchStraps_eq { d.cutBlows.bare with pwr := { d.cutBlows.bare.pwr with resetLow := d.pwr.resetLow, hubOn := !d.pwr.resetLow } }
  obtain ⟨n, h2⟩ := loadNt_eq
    (Dev.latchStraps { d.cutBlows.bare with pwr := { d.cutBlows.bare.pwr with resetLow := d.pwr.resetLow, hubOn := !d.pwr.resetLow } })
  refine ⟨n, st, ?_⟩
  simp only
  rw [h2, h]
  rfl

theorem put_eq (d : Dev) (a : Nat) (f : Fld) (v : Nat) : ∃ m, d.put a f v = { d with regs := m } := ⟨_, rfl⟩

/-- Every domain but AO in reset: AO's part of the power state stays, with the HUB off (R478 to R480). -/
theorem hold_eq (d : Dev) : ∃ m, d.hold = { d.cutBlows.bare with
    regs := m, rtc := { d.rtc with trimAt := none }, evt := { Evt.reset with lateq := d.cutBlows.evt.lateq }
    pwr := { Pwr.reset with
      aoOn := d.pwr.aoOn, hubOn := false, resetLow := d.pwr.resetLow, brown := d.pwr.brown, vinOut := d.pwr.vinOut
      cause := d.pwr.cause, mode := d.pwr.mode, failStage := d.pwr.failStage, straps := d.pwr.straps } } := by
  unfold Dev.hold Dev.fresh
  simp only [cutBlows_pwr, cutBlows_rtc]
  generalize Dev.get _ R.RTC_TAI F.RTC_TAI_tai_utc = v
  obtain ⟨m, h⟩ := put_eq { d.cutBlows.bare with
    regs := d.cutBlows.aoRegs, rtc := { d.rtc with trimAt := none }, evt := { Evt.reset with lateq := d.cutBlows.evt.lateq }
    pwr := { Pwr.reset with
      aoOn := d.pwr.aoOn, hubOn := d.pwr.hubOn, resetLow := d.pwr.resetLow, brown := d.pwr.brown, vinOut := d.pwr.vinOut
      cause := d.pwr.cause, mode := d.pwr.mode, failStage := d.pwr.failStage, straps := d.pwr.straps } } R.CLK_CTRL F.CLK_CTRL_tai_utc v
  rw [h]
  exact ⟨m, rfl⟩

/-- The HUB leaves a reset of cause 2 to 5 (R479). -/
theorem leaveReset_eq (d : Dev) (cause : Nat) : ∃ n, d.leaveReset cause =
    { d.bump R.EVT_RST_CAUSE F.EVT_RST_CAUSE_resets with nt := n, pwr := { d.pwr with hubOn := true, cause := cause } } := by
  unfold Dev.leaveReset
  generalize hb : d.bump R.EVT_RST_CAUSE F.EVT_RST_CAUSE_resets = b
  have hp : b.pwr = d.pwr := by rw [← hb, Dev.bump_pwr]
  obtain ⟨n, h⟩ := loadNt_eq { b with pwr := { b.pwr with hubOn := true, cause := cause } }
  refine ⟨n, ?_⟩
  simp only
  rw [h, hp]

theorem leaveReset_pwr (d : Dev) (cause : Nat) : (d.leaveReset cause).pwr = { d.pwr with hubOn := true, cause := cause } := by
  obtain ⟨n, e⟩ := leaveReset_eq d cause
  rw [e]

theorem leaveReset_word (d : Dev) (cause a : Nat) :
    (d.leaveReset cause).word a = (d.bump R.EVT_RST_CAUSE F.EVT_RST_CAUSE_resets).word a := by
  obtain ⟨n, e⟩ := leaveReset_eq d cause
  rw [e]; rfl

theorem leaveReset_resets (d : Dev) (cause : Nat) : (d.leaveReset cause).get R.EVT_RST_CAUSE F.EVT_RST_CAUSE_resets =
    min (d.get R.EVT_RST_CAUSE F.EVT_RST_CAUSE_resets + 1) F.EVT_RST_CAUSE_resets.top := by
  rw [Dev.get, leaveReset_word]
  exact Dev.get_bump_same d _ _ (by decide)

/-- RESET_N goes low while AO is supplied: the hold, with cause 2 (R478). -/
theorem resetAssert_eq (d : Dev) (h : d.pwr.aoOn = true) :
    d.resetAssert = { d.hold with pwr := { d.hold.pwr with resetLow := true, cause := 2 } } := by
  unfold Dev.resetAssert; simp [h]

/-- A brown-out turns the transmitters off and holds every domain but AO (R480). -/
theorem brownOut_eq (d : Dev) (h : d.pwr.aoOn = true) :
    d.brownOut = { ((List.range 3).foldl Dev.tripRadio d).hold with pwr := { ((List.range 3).foldl Dev.tripRadio d).hold.pwr with brown := true } } := by
  unfold Dev.brownOut; simp [h]

/-- RESET_N rises on a device that was reset by it: it leaves reset with cause 2 (R478, R479). -/
theorem resetRelease_eq (d : Dev) (h1 : d.pwr.resetLow = true) (h2 : d.pwr.aoOn = true) (h3 : d.pwr.brown = false) (h4 : d.pwr.cause = 2) :
    ∃ p, p.resetLow = false ∧ d.resetRelease = ({ d with pwr := p } : Dev).leaveReset 2 := by
  unfold Dev.resetRelease
  obtain ⟨st, e⟩ := latchStraps_eq { d with pwr := { d.pwr with resetLow := false } }
  refine ⟨{ d.pwr with resetLow := false, straps := st }, rfl, ?_⟩
  simp only [h1, Bool.not_true, Bool.false_eq_true, if_false]
  rw [e]
  simp only [h2, h3, h4, Bool.not_true, Bool.or_self, Bool.false_eq_true, if_false]
  rfl

/-- Brown-out ends with RESET_N high: the reset of cause 3 (R480). -/
theorem brownEnd_eq (d : Dev) (h1 : d.pwr.brown = true) (h2 : d.pwr.resetLow = false) :
    d.brownEnd = ({ d with pwr := { d.pwr with brown := false } } : Dev).leaveReset 3 := by
  unfold Dev.brownEnd; simp [h1, h2]

end Sys2Proof.Machine
end

