-- ==== Sys2Proof/WellFormed.lean ====
section
/-! DEFINITION. Which commands are well formed: the operands lie in the ranges that the rules of their row give. No meaning asks for it: a command whose
operands lie outside is one that no sender and no part of the block can make, and what it does says nothing about the hardware. -/

namespace Sys2Proof

/-- A list names nothing twice. -/
def noRepeat : List Nat → Bool
  | [] => true
  | x :: rest => !rest.contains x && noRepeat rest

/-- The number of entries of a store of R466. -/
def Store.size : Store → Nat
  | .toybox => 8192
  | .context => 65536
  | .action => 1024
  | .key => 4096
  | .logRec => 1024
  | .cmdQueue => 32
  | .releaseQueue => 8192

/-- The entry lies in its store. -/
def StoreErr.wf (e : StoreErr) : Bool := decide (e.index < e.store.size)

/-- The place lies in its table (R321). -/
def ClsErr.wf : ClsErr → Bool
  | .fragment i => decide (i < 2048)
  | .tcam _ => true
  | .exact _ => true
  | .template _ => true

/-- A transmission's two descriptors are two (R102). -/
def FwObs.wf : FwObs → Bool
  | .rx _ => true
  | .tx o => o.desc0 != o.desc1

/-- A command is well formed. -/
def Instr.wf (c : Instr) : Bool :=
  match c with
  | .bootStart lanes => noRepeat (lanes.map (·.1.val))
  | .flitReceive _ _ raw _ => raw.length == 256
  | .tempSensorReading _ v _ => decide (-32768 ≤ v) && decide (v < 32768)
  | .slotStart _ rx ecc => noRepeat (rx.map (·.1.val)) && ecc.all StoreErr.wf
  | .ptpMessage m _ => decide (m.domain < 2 ^ 8) && decide (m.master < 2 ^ 64) && decide (m.seq < 2 ^ 16)
  | .actionArm ecc => ecc.all StoreErr.wf
  | .diversityBlock _ _ x0 x1 _ => x0.length == 30720 && x1.length == 30720
  | .ringFrameComplete _ _ _ ecc => ecc.all StoreErr.wf
  | .occMapClose _ _ x0 x1 _ => x0.length == x1.length
  | .maskCheck _ bins _ => noRepeat (bins.map (·.1)) && bins.all (fun p => decide (p.1 < 2048))
  | .taskRelease _ ecc _ => ecc.all StoreErr.wf
  | .classifyFrame _ errs _ => errs.all ClsErr.wf
  | .rootKeyBlowDone failed => decide (failed < 2 ^ 256)
  | .cjSubmit _ ecc => ecc.all StoreErr.wf
  | .cipSlotIdxWrite n => decide (n < 2 ^ 32)
  | .dramRequestArrive _ wr _ _ data _ => !wr || data.length == 64
  | .i2cWriteTransaction _ ecc => ecc.all StoreErr.wf
  | .coreDoneWrite _ _ obs _ => obs.all FwObs.wf
  | .rtcFieldStage _ v => decide (v < 2 ^ 32)
  | .rtcSecWrite v => decide (v < 2 ^ 32)
  | .evtLogRec0Read ecc => ecc.all StoreErr.wf
  | .registerWrite a _ => a.toNat % 4 == 0
  | .supplySample mv => decide (mv < 2 ^ 31)
  | .powerOn .. | .resetNAssert .. | .brownOut .. | .brownOutEnd .. | .vinRange .. | .controlStateMismatch .. | .bootPollMet ..
  | .bootPollTimeout .. | .flitSend .. | .linkRetrain .. | .linkRetrainDone .. | .laneFailure .. | .spareCheckFail .. | .clockDomainFault ..
  | .xoFailure .. | .clkNtSecHiRead .. | .clkSlotRead .. | .clkSnapshotTimeout .. | .superframeBoundary .. | .ppsEdge ..
  | .ref10mMeasurement .. | .stepApplyMs .. | .stepApplyQuiet .. | .referenceTimeout .. | .clkTodLoad .. | .ppsOutRise .. | .ppsOutFall ..
  | .actionCancel .. | .radTxStart .. | .radState .. | .clsGenSwitch .. | .shpGateTakeover .. | .cfgStageTakeover .. | .calQuiet ..
  | .gpioLevel .. | .radFcWrite .. | .vcoCalRequest .. | .radioTransitionDone .. | .vcoCalibrationDone .. | .synthUnlock .. | .synthRelock ..
  | .txLeaveStart .. | .txDeferredStart .. | .txGuardExpire .. | .lastCarrierEnd .. | .returnLossAbort .. | .xampStep .. | .xampFault ..
  | .xampHoldExpire .. | .dutyMeterTick .. | .radRpProgGo .. | .rpFuseBlowDone .. | .detectorEvaluation .. | .captureComplete .. | .overloadInterval ..
  | .txBufferFetch .. | .schSlotOverrun .. | .downlinkTaskCreate .. | .taskDeadline .. | .cycleBudgetExceeded .. | .coreFaultTake ..
  | .selfTestDone .. | .coreRetire .. | .coreReturn .. | .pupPeekIdxWrite .. | .nop .. | .ldw .. | .ldh .. | .stw .. | .sth .. | .ldp ..
  | .stp .. | .mov .. | .mva .. | .mta .. | .modp .. | .ldim .. | .add2 .. | .sub2 .. | .addw .. | .subw .. | .and .. | .or .. | .xor ..
  | .shift .. | .cmp .. | .ldi .. | .ldip .. | .mac .. | .mac2 .. | .cmac .. | .cmul .. | .accop .. | .norm .. | .exp .. | .acs .. | .br ..
  | .call .. | .jr .. | .reti .. | .rep .. | .trap .. | .interruptTake .. | .coreTimerZero .. | .budgetWarn .. | .coreTruCtrlWrite ..
  | .transferComplete .. | .coreDoorbellWrite .. | .coreIrqSetWrite .. | .outputAccept .. | .macFrameReceive ..
  | .pauseTimerExpire .. | .pauseRefresh .. | .linkUp .. | .linkDown .. | .verifyTimer .. | .macCntClr .. | .macCntHiRead ..
  | .macCntLoRead .. | .macPtpTxSecHiRead .. | .macPtpTxIdRead .. | .fragmentWaitExpire .. | .fragmentEntryExpire .. | .tcamScrub ..
  | .policerWrite .. | .egressFrameStart .. | .egressFrameEnd .. | .gateStateChange .. | .shpVtHiRead .. | .keyLoad .. | .keyClear ..
  | .rootKeyBlow .. | .classLimitWrite .. | .cipherJobStart .. | .cipherJobComplete .. | .cjResultRead .. | .strOwnerWrite .. | .strStart ..
  | .strAbort .. | .strDinWrite .. | .strDoutRead .. | .streamJobEnd .. | .dramRequestIssue .. | .refreshDue .. | .idleRefresh ..
  | .mr4Read .. | .derateWindowClose .. | .patrolScrubRead .. | .calTick .. | .calLiveStep .. | .calShadowStep .. | .calRetryExpire ..
  | .calRun .. | .calStop .. | .calDramIdxWrite .. | .i2cReadTransaction .. | .i2cTimeout .. | .mgmtFrameAuth .. | .replayLogDone ..
  | .read .. | .write .. | .writeMasked .. | .tableWrite .. | .stage .. | .arm .. | .nvmWriteOpen .. | .nvmWriteData .. | .nvmWriteClose ..
  | .nvmPhaseDone .. | .powerEnterVigil .. | .powerEnterDormant .. | .powerDomainOff .. | .powerDomainOn .. | .abort .. | .status ..
  | .drainEnd .. | .domainPowerUpDone .. | .jackWriteMatch .. | .jackRead .. | .wakeStageReady .. | .wakeStageTimeout .. | .aoFailClear ..
  | .gpioInputChange .. | .rtcSecondTick .. | .rtcSecRead .. | .rtcYearRead .. | .rtcSnapshotTimeout .. | .rtcNtSet .. | .rtcNtSetCommit ..
  | .rtcLeapWrite .. | .rtcAlarmWrite .. | .rtcTrimDone .. | .evtLogRec3Read .. | .notifyFrameSend .. | .monWindowEnd .. | .monCfgWrite ..
  | .monStatusRead .. | .monHist31Read .. | .monLatchTimeout .. | .provision .. | .registryRead .. | .delete .. | .release .. | .pilotHold ..
  | .revoke .. | .replace .. | .resetNRelease .. | .aoHoldLoss .. | .pcsLockChange .. | .cageOvercurrent .. | .foldBackRetry ..
  | .carrierEnd .. => true

end Sys2Proof
end

