-- ==== Sys2Proof/Tests/Slice0.lean ====
section
/-! SUPPORT. The model's own tests: ill-formed commands, single steps whose results the spec gives, and states that meet the hypotheses of each statement. -/

namespace Sys2Proof.Tests

set_option Elab.async false

open Sys2Proof Sys2Proof.Machine

/-! ## States -/

abbrev rs : Dev := State.reset.dev
abbrev run : Dev := { State.reset.dev with boot := { State.reset.dev.boot with phase := .run } }
abbrev ofDev (d : Dev) : State := { State.reset with dev := d }
/-- The link n of a device, up and idle. -/
abbrev upLink : Link := { Link.reset with up := true }
abbrev nt0 : Nat := 946684837000000000
/-- A flit of type 3 and number 0 with its CRC. -/
abbrev flitB : Bytes := [0, 0x30, 0, 0] ++ List.replicate 248 5 ++ toLE 4 2876066287
/-- A device with a radio in a state, going to a target. -/
abbrev rad (r state target locked : Nat) (d : Dev) : Dev :=
  ((d.put (R.RAD_STATE r) F.RAD_STATE_state state).put (R.RAD_STATE r) F.RAD_STATE_target target).put (R.RAD_STATE r) F.RAD_STATE_locked locked
/-- A device with one last transmit descriptor i of 68 symbols at sub-channel 0. -/
abbrev desc (r i : Nat) (d : Dev) : Dev := (d.setWord (R.KAL_TXDESC r (8 * i)) 2048).setWord (R.KAL_TXDESC r (8 * i + 2)) 68
/-- A device with one action armed. -/
abbrev arm (i : Nat) (a : Act) (d : Dev) : Dev := { d with acts := [(i, a)], clk := { d.clk with lockedOnce := true } }
abbrev tx0 : TxDesc := ⟨0, 0, 0, 0, 0, 0, 68, true, 0, 0⟩
abbrev car : Carrier := ⟨{ tx0 with k0 := 1535 }, 0, 1, nt0, nt0 + 1000, 0, 0, [], [], [], 0⟩
abbrev stage (d : Dev) (sec ns ty target arg : Nat) : Dev :=
  (((((d.put R.CLK_ACT_TIME_LO F.CLK_ACT_TIME_LO_sec_lo sec).put R.CLK_ACT_TIME_NS F.CLK_ACT_TIME_NS_ns ns).put R.CLK_ACT_SPEC F.CLK_ACT_SPEC_type
    ty).put R.CLK_ACT_SPEC F.CLK_ACT_SPEC_target target).put R.CLK_ACT_SPEC F.CLK_ACT_SPEC_arg arg)
abbrev tsk : Task := ⟨0, 0, 1, 0, false, 0, 0, 0, 0, nt0, [], 0, 0, TaskInfo.empty, .none, 0, ⟨0, 0, 0⟩, ⟨0, 0, 0⟩, 0, 0⟩
abbrev ctx0 : Ctx := { Ctx.free with valid := true, address := 5 }
/-- A core that runs at pc, about to execute the slot given of the bundle whose words are c and xy. -/
abbrev mc (pc slot c xy : Nat) : Core :=
  { Core.reset with running := true, pc := pc, slot := slot, imem := [(2 * pc, BitVec.ofNat 32 xy), (2 * pc + 1, BitVec.ofNat 32 c)] }
abbrev core (n : Nat) (k : Core) : State := ofDev (rs.setMcore n k)
abbrev portOn (n : Nat) (d : Dev) : Dev := (d.put (R.MAC_CTRL n) F.MAC_CTRL_enable 1).put (R.MAC_STATUS n) F.MAC_STATUS_link 1
abbrev rxf : RxFrame := ⟨List.replicate 60 1, 7, nt0, 0⟩
abbrev qf : QFrame := ⟨List.replicate 60 1, 64, false, false, false, 0, 0, false⟩
/-- RFC 3394, 4.2: 128 bits of key data wrapped with a 256-bit key. -/
abbrev kek : Nat := 0x1f1e1d1c1b1a191817161514131211100f0e0d0c0b0a09080706050403020100
abbrev keyData : Bytes := [0x00, 0x11, 0x22, 0x33, 0x44, 0x55, 0x66, 0x77, 0x88, 0x99, 0xaa, 0xbb, 0xcc, 0xdd, 0xee, 0xff]
abbrev keyed (d : Dev) : Dev := [0xf9c3e864, 0xa25b0fce, 0x7977e963, 0x2a8a8105, 0x1e19c893, 0xe78a6e7d].zipIdx.foldl (fun d p => d.setWord (R.CIP_KEY_BUF p.2) p.1) { d with rootKey := kek, rootProgrammed := true }
abbrev slot1 : KeySlot := ⟨List.replicate 16 1, false, 0, 5, false, 0, 0⟩
abbrev jobW (c : Nat) (w : List Word) (d : Dev) : Dev := w.zipIdx.foldl (fun d p => d.setWord (0x105000000 + 0x1000 * c + 4 * p.2) p.1) d
abbrev sj : StreamJob := ⟨1, false, 4, 7, List.replicate 16 1, 4, 0, List.replicate 16 2, [], [], 0⟩
abbrev drcOn (d : Dev) : Dev := d.put R.DRC_CTRL F.DRC_CTRL_en 1
abbrev dreq : DramReq := ⟨7, true, 0xDFFFFFC0, 2 ^ 64 - 1, List.replicate 64 1, 0, 0, false⟩
abbrev calOn (d : Dev) : Dev := ((d.put R.CAL_CTRL F.CAL_CTRL_rad_en 1).put R.CAL_CTRL F.CAL_CTRL_ser_en 1).put R.CAL_CTRL F.CAL_CTRL_dram_en 1
abbrev cr : CalRun := ⟨0, 0, none, (0, 0), 0, (none, none)⟩
abbrev setRun (u : Nat) (x : CalRun) (d : Dev) : Dev := { d with cal := { d.cal with runs := [(u, x)] } }
/-- A boot image of one END record, signed on P-256 with a key made for this test. -/
abbrev imageA : Bytes :=
  [0x44, 0x5a, 0x4d, 0x4f, 0x01, 0x00, 0x00, 0x00, 0xfe, 0xff, 0xff, 0xff, 0x08, 0x00, 0x00, 0x00, 0x24, 0xa8, 0x10, 0xfc, 0x01, 0x00, 0x00, 0x00] ++
  [0x00, 0x00, 0x00, 0x00, 0x00, 0x00, 0x00, 0x00, 0x00, 0x00, 0x00, 0x00, 0x00, 0x00, 0x00, 0x00, 0x00, 0x00, 0x00, 0x00, 0x00, 0x00, 0x00, 0x00] ++
  [0x00, 0x00, 0x00, 0x00, 0x00, 0x00, 0x00, 0x00, 0x00, 0x00, 0x00, 0x00, 0x00, 0x00, 0x00, 0x00, 0xe1, 0x38, 0x00, 0xbe, 0xaf, 0x6a, 0x7d, 0xed] ++
  [0xe4, 0xdd, 0xdf, 0x87, 0x4e, 0x4a, 0xdc, 0xc2, 0x71, 0xbf, 0x06, 0x9e, 0x8c, 0xfc, 0x2c, 0x5e, 0xf9, 0x89, 0x08, 0x4b, 0xec, 0x33, 0xb2, 0x60] ++
  [0x38, 0x09, 0x6b, 0x0e, 0xd8, 0x05, 0x6f, 0x1f, 0x51, 0xc2, 0x36, 0xf8, 0xbe, 0x10, 0x33, 0x27, 0xb6, 0xb3, 0x70, 0x87, 0xbd, 0xd4, 0x01, 0x1e] ++
  [0xdb, 0xe2, 0x24, 0x06, 0xa9, 0x7d, 0x80, 0x16, 0x26, 0xef, 0xce, 0xbd, 0x0e, 0xe9, 0xe3, 0x4a, 0x66, 0x91, 0x87, 0xe1, 0x8b, 0x3a, 0x91, 0x22] ++
  [0xb2, 0xf7, 0x33, 0x94, 0x5b, 0x64, 0x9c, 0xc9, 0xf9, 0xf9, 0x21, 0xe9, 0xf9, 0xda, 0xd8, 0x12, 0x90, 0x23, 0x8b, 0xde, 0x9c, 0xc7, 0xbb, 0x33] ++
  [0x0d, 0x15, 0x0c, 0x67, 0x70, 0x4d, 0xd2, 0x5a, 0xe7, 0x05, 0x52, 0x05, 0x74, 0x4b, 0x6f, 0x31, 0xbf, 0x40, 0x70, 0x74, 0x58, 0x72, 0xd0, 0xe6] ++
  [0x00, 0x00, 0x00, 0x00, 0x00, 0x00, 0x00, 0x00, 0x00, 0x00, 0x00, 0x00, 0x00, 0x00, 0x00, 0x00, 0x00, 0x00, 0x00, 0x00, 0x00, 0x00, 0x00, 0x00] ++
  [0x00, 0x00, 0x00, 0x00, 0x00, 0x00, 0x00, 0x00, 0x00, 0x00, 0x00, 0x00, 0x00, 0x00, 0x00, 0x00, 0x00, 0x00, 0x00, 0x00, 0x00, 0x00, 0x00, 0x00] ++
  [0x00, 0x00, 0x00, 0x00, 0x00, 0x00, 0x00, 0x00, 0x00, 0x00, 0x00, 0x00, 0x00, 0x00, 0x00, 0x00, 0x00, 0x00, 0x00, 0x60, 0x00, 0x00, 0x00, 0x00]
abbrev pubDig : Nat := 0xcbc1cf36f3dc5fe3a7ac195890c4cbb0f81792c3b3d2ae85096d84decf1a8031
abbrev cmd (op addr arg : Nat) (data : Bytes) : Cmd := ⟨false, 0, op, 0xABCD, addr, arg, data, false, false, false, 0, false⟩
abbrev withCmd (c : Cmd) (d : Dev) : State := ofDev { d with cmd := { d.cmd with queue := [c] } }
abbrev busy (b : CmdBusy) (c : Cmd) (d : Dev) : State := ofDev { d with cmd := { d.cmd with queue := [c], busy := some b } }
abbrev wrAct : Cmd := cmd 2 R.CLK_ACT_TIME_LO 2 [1, 2, 3, 4, 5, 0, 0, 0]
abbrev tbAct : Cmd := cmd 4 R.CLK_ACT_TIME_LO 0x00020001 [1, 2, 3, 4, 5, 0, 0, 0]
abbrev wmEn : Cmd := cmd 3 R.CLK_CTRL 0x0000FF01 [0xFF, 0xFF, 0xFF, 0xFF]
abbrev jackDev : Dev := { rs with pwr := { rs.pwr with jack := true } }
abbrev regd : RegEntry := ⟨[], keyData ++ List.replicate 8 0, 0, 0, 0, false, none, [], 0⟩
abbrev regDev (size : Nat) : Dev := (rs.setWord (R.SCH_REG_BUF 0) 5).setWord (R.SCH_REG_BUF 42) (BitVec.ofNat 32 size)
/-- A management frame of no commands that carries a counter and the tag of its bytes under slot1's key. -/
abbrev mfr (n : Nat) : MgmtFrame :=
  let b := toLE 4 1 ++ toLE 8 n
  ⟨[192, 0, 2, 1], 4000, b ++ toBytes ((cmacRun (aesRoundKeys (toNats slot1.key)) (toNats b)).take 8)⟩
/-- A radio 1 in TX at 868 MHz under a sealed profile whose one entry lets everything pass. -/
abbrev onAir (x : Radio) (d : Dev) : Dev :=
  { (rad 1 radTX radTX 1 d).setRadio 1 { x with fc := 868000000 } with
    fuses := smSet (fun _ => 0) (smSet (fun _ => 0) [] (R.RAD_RP_E 1 0 0) 0x80000000) (R.RAD_RP_HDR 1) 0x80000000 }
/-- A stream on sub-channel 1535 of a radio whose phase turns, and a detector there that was over its threshold. -/
abbrev hot (r : Nat) (d : Dev) : Dev :=
  d.setKal r { d.kal r with blocks := [⟨1, List.replicate 1535 [] ++ [List.replicate 28 notRx ++ [(100, 0), (0, 100)]]⟩] }
abbrev primed (r : Nat) (d : Dev) : Dev := d.setKal r { d.kal r with primed := [1535] }
/-- All slots of a radio but the quiet one are transmit slots. -/
abbrev txSlots (r : Nat) (d : Dev) : Dev := (List.range 8).foldl (fun d w => d.setWord (R.SCH_DIR_ACT r w) 0xFFFFFFFF) d
abbrev ctxD : Ctx := { ctx0 with dlG := ⟨0, 1, 0, 59, false, true, 1⟩, ctl := [⟨65535, ⟨3, 0, 0, 0, false, false, 1⟩, 0⟩] }
abbrev ownT : TxOwn := ⟨0, 0, 0, none, [], 0⟩
abbrev taskT : Task :=
  { tsk with kind := 3, state := 4, out := .ready 7 nt0, info := { TaskInfo.empty with start := nt0 + 2000000000, stop := nt0 + 2020000000, radioA := 0, own := some ownT } }
abbrev recT (status : Byte) : Bytes := (List.replicate 64 0).set 15 status
abbrev taskR : Task := { tsk with state := 4, out := .record (recT 0) [] none, info := { TaskInfo.empty with node := 5 } }
abbrev oneCore (d : Dev) : Dev := (List.range 63).foldl (fun d c => d.setPcore (c + 1) { PCore.reset with st := 3 }) d
abbrev jobE (w : Nat) : CipJob := ⟨63, [w, 16, 0, 64, 0, 0, 0, 0, 0, 0], 0, List.replicate 16 1, none, true⟩

/-! ## A boot image in the flash -/

/-- A flash that holds bytes from an address on. -/
abbrev flashAt (a : Nat) (bs : Bytes) : SMap Byte := (bs.zipIdx a).map (fun p => (p.2, p.1))

theorem smGet_flashAt (f : Nat → Byte) (rest : SMap Byte) : ∀ (bs : Bytes) (a i : Nat) (h : i < bs.length),
    smGet f (flashAt a bs ++ rest) (a + i) = bs[i]
  | b :: bs, a, 0, _ => by
    simp only [flashAt, List.zipIdx_cons, List.map_cons, List.cons_append, smGet, Nat.add_zero, if_true, List.getElem_cons_zero]
  | b :: bs, a, i + 1, h => by
    have := smGet_flashAt f rest bs (a + 1) i (by simpa using h)
    rw [show a + (i + 1) = a + 1 + i by omega]
    simp only [flashAt, List.zipIdx_cons, List.map_cons, List.cons_append, smGet, List.getElem_cons_succ] at this ⊢
    rw [if_neg (by omega)]; exact this

theorem smGet_flashAt_skip (f : Nat → Byte) (rest : SMap Byte) : ∀ (bs : Bytes) (a k : Nat), a + bs.length ≤ k →
    smGet f (flashAt a bs ++ rest) k = smGet f rest k
  | [], _, _, _ => rfl
  | b :: bs, a, k, h => by
    have := smGet_flashAt_skip f rest bs (a + 1) k (by simp at h; omega)
    simp only [flashAt, List.zipIdx_cons, List.map_cons, List.cons_append, smGet] at this ⊢
    rw [if_neg (by simp at h; omega)]; exact this

theorem flashBytes_flashAt (d : Dev) (a i n : Nat) (bs : Bytes) (rest : SMap Byte) (hd : d.flash = flashAt a bs ++ rest) (h : i + n ≤ bs.length) :
    d.flashBytes (a + i) n = (bs.drop i).take n := by
  apply List.ext_getElem
  · simp [Dev.flashBytes]; omega
  · intro j h1 h2
    have hj : j < n := by simpa [Dev.flashBytes] using h1
    simp only [Dev.flashBytes, List.getElem_map, List.getElem_range, List.getElem_take, List.getElem_drop]
    rw [hd, Nat.add_assoc, smGet_flashAt _ _ _ _ _ (by omega)]

theorem flashBytes_skip (d : Dev) (k n : Nat) (bs : Bytes) (rest : SMap Byte) (hd : d.flash = flashAt 0 bs ++ rest) (h : bs.length ≤ k) :
    d.flashBytes k n = ({ d with flash := rest }).flashBytes k n := by
  simp only [Dev.flashBytes, List.map_inj_left]
  intro i _; rw [hd, smGet_flashAt_skip _ _ _ _ _ (by omega)]

theorem image_header (d : Dev) (rest : SMap Byte) (hd : d.flash = flashAt 0 imageA ++ rest) : d.header 0 = imageA.take 256 :=
  flashBytes_flashAt d 0 0 256 imageA rest hd (by decide +kernel)

theorem image_body (d : Dev) (rest : SMap Byte) (hd : d.flash = flashAt 0 imageA ++ rest) : d.copyBody 0 = imageA.drop 256 := by
  unfold Dev.copyBody
  rw [image_header d rest hd, show leAt (imageA.take 256) 12 4 = 8 by decide +kernel]
  exact flashBytes_flashAt d 0 256 8 imageA rest hd (by decide +kernel)

theorem image_crc : (crc32 (imageA.drop 256) == leAt (imageA.take 256) 16 4) = true := by decide +kernel
theorem image_digest : ofBE (sha256 (sliceB (imageA.take 256) 128 64)) = pubDig := by decide +kernel
theorem image_signed : ecdsaOk (sliceB (imageA.take 256) 128 64) (sliceB (imageA.take 256) 64 64)
    (signedDigest (imageA.take 256) (imageA.drop 256)) = true := by decide +kernel

theorem bodyCause_ok (d : Dev) (x : Nat) (h body : Bytes) (hh : d.header x = h) (hb : d.copyBody x = body) (c1 : (crc32 body == leAt h 16 4) = true)
    (c2 : ofBE (sha256 (sliceB h 128 64)) = d.pubDigest) (c3 : ecdsaOk (sliceB h 128 64) (sliceB h 64 64) (signedDigest h body) = true)
    (c4 : d.recsOk (wordsOf body).length (wordsOf body) = true)
    (c5 : (List.range 8).any (fun k => (byteAt h 21).testBit k && !d.present k) = false) : d.bodyCause x = 0 := by
  unfold Dev.bodyCause Dev.crcOk
  simp only [hh, hb, c1, c2, c3, c4, c5, Bool.not_true, bne_self_eq_false, Bool.false_eq_true, if_false]

/-- The image passes checks 4 to 8 of R417 from wherever the fused digest is that of its key. -/
theorem image_cause (d : Dev) (rest : SMap Byte) (hd : d.flash = flashAt 0 imageA ++ rest) (hp : d.pubDigest = pubDig) : d.bodyCause 0 = 0 :=
  bodyCause_ok d 0 (imageA.take 256) (imageA.drop 256) (image_header d rest hd) (image_body d rest hd) image_crc (image_digest.trans hp.symm)
    image_signed (by rw [show wordsOf (imageA.drop 256) = [0x60000000, 0] by decide +kernel]; rfl)
    (by rw [show byteAt (imageA.take 256) 21 = 0 by decide +kernel]; simp)

/-- The same image with sequence number 2 and a body that its crc does not fit. -/
abbrev imageB : Bytes := ((imageA.set 4 2).set 8 0xFD).set 260 7
abbrev twoImages : SMap Byte := flashAt 0 imageA ++ (flashAt copySize imageB ++ [])

theorem images_header0 (d : Dev) (hd : d.flash = twoImages) : d.header 0 = imageA.take 256 := image_header d _ hd
theorem images_header1 (d : Dev) (hd : d.flash = twoImages) : d.header 1 = imageB.take 256 :=
  (flashBytes_skip d copySize 256 imageA _ hd (by decide +kernel)).trans
    (flashBytes_flashAt _ copySize 0 256 imageB [] rfl (by decide +kernel))
theorem images_body1 (d : Dev) (hd : d.flash = twoImages) : d.copyBody 1 = imageB.drop 256 := by
  unfold Dev.copyBody
  rw [images_header1 d hd, show leAt (imageB.take 256) 12 4 = 8 by decide +kernel]
  exact (flashBytes_skip d (copySize + 256) 8 imageA _ hd (by decide +kernel)).trans
    (flashBytes_flashAt _ copySize 256 8 imageB [] rfl (by decide +kernel))
theorem images_cause (d : Dev) (hd : d.flash = twoImages) (hp : d.pubDigest = pubDig) : d.bodyCause 0 = 0 := image_cause d _ hd hp

theorem oneImage_goodHeads (d : Dev) (hd : d.flash = flashAt 0 imageA ++ []) : d.goodHeads = [0] := by
  have h1 : d.header 1 = List.replicate 256 0xFF :=
    (flashBytes_skip d copySize 256 imageA _ hd (by decide +kernel)).trans (by simp [Dev.flashBytes, smGet])
  unfold Dev.goodHeads
  simp only [List.range_succ, List.range_zero, List.nil_append, List.cons_append, image_header d _ hd, h1,
    show (headCause (imageA.take 256) == 0) = true by decide +kernel, show (headCause (List.replicate 256 (0xFF : Byte)) == 0) = false by decide +kernel,
    Bool.and_false, Bool.false_eq_true, if_false, List.filter]

/-- A device whose NVM_WRITE of a copy is open, with a command at the head of its queue; the other copy is in force. -/
abbrev closing (copy : Nat) (c : Cmd) : State :=
  withCmd c ({ rs with pubDigest := pubDig, flash := twoImages, nvmCopy := copy, boot := { run.boot with inForce := some (1 - copy) } }.put R.CFG_NVM
    F.CFG_NVM_phase 1)

/-- The wrapped key of RFC 3394, 4.2, unwraps to its key data. -/
theorem key_unwraps : (keyed rs).unwrap (((List.range 10).flatMap (fun w => toLE 4 ((keyed rs).word (R.CIP_KEY_BUF w)).toNat)).take
    (if false then 40 else 24)) = some keyData := by decide +kernel

/-! ## Ill-formed commands, one for each check -/

theorem test_ill_bootStart : Instr.wf (.bootStart [(1, 2), (1, 3)]) = false := by decide
theorem test_ill_flitReceive : Instr.wf (.flitReceive 0 .out [1, 2, 3] none) = false := by decide
theorem test_ill_tempSensorReading : Instr.wf (.tempSensorReading 0 32768 0) = false := by decide
theorem test_ill_slotStart : Instr.wf (.slotStart 0 [(1, 2), (1, 3)] []) = false ∧ Instr.wf (.slotStart 0 [] [⟨.toybox, 8192, true⟩]) = false := by decide
theorem test_ill_ptpMessage : Instr.wf (.ptpMessage ⟨0, 0, 256, 0, 0, .announce⟩ 0) = false ∧
    Instr.wf (.ptpMessage ⟨0, 0, 0, 2 ^ 64, 0, .announce⟩ 0) = false ∧ Instr.wf (.ptpMessage ⟨0, 0, 0, 0, 65536, .announce⟩ 0) = false := by decide
theorem test_ill_actionArm : Instr.wf (.actionArm [⟨.action, 1024, false⟩]) = false := by decide
theorem test_ill_diversityBlock : Instr.wf (.diversityBlock 0 0 [(1, 1)] [] 0) = false := by decide
theorem test_ill_ringFrameComplete : Instr.wf (.ringFrameComplete 0 0 0 [⟨.key, 4096, false⟩]) = false := by decide
theorem test_ill_occMapClose : Instr.wf (.occMapClose 0 0 [(1, 1)] [] 0) = false := by decide
theorem test_ill_coreDoneWrite : Instr.wf (.coreDoneWrite 0 0 (some (.tx ⟨3, 3, 0, 0⟩)) 0) = false := by decide
theorem test_ill_maskCheck : Instr.wf (.maskCheck 0 [(7, 0), (7, 1)] 0) = false ∧ Instr.wf (.maskCheck 0 [(2048, 0)] 0) = false := by decide
theorem test_ill_taskRelease : Instr.wf (.taskRelease 0 [⟨.releaseQueue, 8192, false⟩] 0) = false := by decide
theorem test_ill_classifyFrame : Instr.wf (.classifyFrame 0 [.fragment 2048] 0) = false := by decide
theorem test_ill_rootKeyBlowDone : Instr.wf (.rootKeyBlowDone (2 ^ 256)) = false := by decide
theorem test_ill_cjSubmit : Instr.wf (.cjSubmit 0 [⟨.context, 65536, true⟩]) = false := by decide
theorem test_ill_cipSlotIdxWrite : Instr.wf (.cipSlotIdxWrite (2 ^ 32)) = false := by decide
theorem test_ill_dramRequestArrive : Instr.wf (.dramRequestArrive 0 true 0 1 [1] 0) = false := by decide
theorem test_ill_i2cWriteTransaction : Instr.wf (.i2cWriteTransaction [] [⟨.cmdQueue, 32, false⟩]) = false := by decide
theorem test_ill_rtcFieldStage : Instr.wf (.rtcFieldStage .minute (2 ^ 32)) = false := by decide
theorem test_ill_rtcSecWrite : Instr.wf (.rtcSecWrite (2 ^ 32)) = false := by decide
theorem test_ill_evtLogRec0Read : Instr.wf (.evtLogRec0Read [⟨.logRec, 1024, false⟩]) = false := by decide
theorem test_ill_registerWrite : Instr.wf (.registerWrite 3 0) = false := by decide
theorem test_ill_supplySample : Instr.wf (.supplySample (2 ^ 31)) = false := by decide
theorem test_well_formed : Instr.wf (.tempSensorReading 15 (-32768) 0) = true ∧ Instr.wf (.slotStart 0 [(0, 1), (2, 3)] [⟨.toybox, 8191, true⟩]) = true := by
  decide

/-! ## Algorithms, against the vectors of their standards -/

/-- The check value of CRC-32 over the digits 1 to 9. -/
theorem test_crc32 : crc32 [0x31, 0x32, 0x33, 0x34, 0x35, 0x36, 0x37, 0x38, 0x39] = 0xCBF43926 := by decide +kernel
/-- FIPS 180-4, SHA-256 of "abc". -/
theorem test_sha256 : ofBE (sha256 [0x61, 0x62, 0x63]) = 0xba7816bf8f01cfea414140de5dae2223b00361a396177a9cb410ff61f20015ad := by decide +kernel
/-- FIPS 197, appendix C.1. -/
theorem test_aes128 : aesEncK (aesRoundKeys (List.range 16)) ((List.range 16).map (17 * ·)) =
    [0x69, 0xc4, 0xe0, 0xd8, 0x6a, 0x7b, 0x04, 0x30, 0xd8, 0xcd, 0xb7, 0x80, 0x70, 0xb4, 0xc5, 0x5a] := by decide +kernel
/-- R418's example. -/
theorem test_newer : newer 0x00000001 0xFFFFFFFE = true ∧ newer 0xFFFFFFFE 0x00000001 = false := by decide

/-! ## Single steps -/

/-- The device after a command. -/
def after (c : Instr) (s : State) : Dev := match exec c s with
  | .next t => t.dev
  | .fault _ | .refused _ => s.dev

/-- R447: in RUN Jack's byte shows only its marker; in WAKE_FAIL state 3 and the stage that failed. -/
theorem test_jack_byte : (after .jackRead (ofDev jackDev)).rdata = 1 ∧
    (after .jackRead (ofDev { jackDev with pwr := { jackDev.pwr with mode := .wakeFail, hubOn := false, failStage := 2 } })).rdata = 0xC9 := by decide +kernel
/-- R454: a second tick at 23:59:59 of 28 February rolls over to 29 February of a leap year. -/
theorem test_rtc_leap_day : (after (.rtcSecondTick nt0) (ofDev { rs with rtc := { rs.rtc with now := ⟨24, 2, 28, 23, 59, 59⟩ } })).rtc.now =
    ⟨24, 2, 29, 0, 0, 0⟩ := by decide +kernel
/-- R452: month 13 is out of range: the calendar stays and set_err shows it. -/
theorem test_rtc_set_err : (after (.rtcSecWrite 0) (ofDev { rs with rtc := { rs.rtc with stMonth := some 13 } })).rtc.now = rs.rtc.now ∧
    (after (.rtcSecWrite 0) (ofDev { rs with rtc := { rs.rtc with stMonth := some 13 } })).flag R.RTC_STATUS F.RTC_STATUS_set_err = true := by decide +kernel
/-- R41: slots are 20 ms long, 256 to a superframe. -/
theorem test_slot_grid : slotOf (256 * 20000000 * 5 + 20000000 * 7 + 19999999) = 7 ∧ superOf (256 * 20000000 * 5 + 20000000 * 7) = 5 := by decide
/-- ADD2 saturates each half: 0x7FFF + 1 and 0x8000 + 0xFFFF (R294). -/
theorem test_add2_saturates : seenAt ((after (.add2 0) (core 0 { mc 0 0 0x04808000 0 with regs := [(0, 0x80007FFF), (2, 0xFFFF0001)] })).mcore 0) 1 2 =
    0x80007FFF := by decide +kernel
/-- ADDW wraps (R294). -/
theorem test_addw_wraps : seenAt ((after (.addw 0) (core 0 { mc 0 0 0x0C808000 0 with regs := [(0, 0xFFFFFFFF), (2, 2)] })).mcore 0) 1 2 = 1 := by
  decide +kernel
/-- A jump takes its delay slots: BR to 0x1FFF leaves the pc, and the jump waits (R262). -/
theorem test_br_waits : ((after (.br 0) (core 0 (mc 0 0 0x80001FFF 0))).mcore 0).pc = 0 ∧
    ((after (.br 0) (core 0 (mc 0 0 0x80001FFF 0))).mcore 0).branch = some (3, 0x1FFF, false) := by decide +kernel
/-- R430: a read of the I2C port with no completion waiting gives zeros. -/
theorem test_i2c_idle_read : (after (.i2cReadTransaction 3) (ofDev run)).cmd.i2cOut = [0, 0, 0] := by decide +kernel
/-- R17: a whole flit of 248 bytes takes the next number. -/
theorem test_flit_number : ((after (.flitSend 0 .out 7 (List.replicate 248 1)) (ofDev (rs.setLink 0 upLink))).link 0).out.next = 1 := by decide +kernel
/-- R65: an action that is armed is cancelled, and one that is not armed and has not fired is not found. -/
theorem test_action_cancel : (after (.actionCancel 3) (ofDev { rs with acts := [(3, ⟨nt0, 7, 0, 0⟩)] })).get R.CLK_ACT_RESULT F.CLK_ACT_RESULT_outcome = 7 ∧
    (after (.actionCancel 3) State.reset).get R.CLK_ACT_RESULT F.CLK_ACT_RESULT_outcome = 9 := by decide +kernel
/-- R368: a slot number past 255 is refused with result 4. -/
theorem test_key_slot_range : (after (.keyClear 256) State.reset).get R.CIP_KEY_CMD F.CIP_KEY_CMD_result = 4 := by decide +kernel
/-- R415: NVM_WRITE DATA writes where the copy lies. -/
theorem test_nvm_data : smFind (after (.nvmPhaseDone true) (busy .nvmData (cmd 7 12 1 [1, 2, 3, 4]) { run with nvmCopy := 1 })).flash (0x3800000 + 13) =
    some 2 := by decide +kernel

/-! ## The hypotheses of the statements -/

/-- The hypotheses of Obligations.AnEmptyQueueIdles can be met, clause by clause. -/
theorem wit_AnEmptyQueueIdles :
    ∃ s : State, s.pending = [] := by
  exact ⟨State.reset, rfl⟩

/-- The hypotheses of Obligations.StepsKeepThePinsInAgreement can be met, clause by clause. -/
theorem wit_StepsKeepThePinsInAgreement :
    ∃ s t : State, PinsAgree s ∧ step s = .next t ∧ t.pending = [.rtcYearRead] := by
  exact ⟨{ State.reset with pending := [.rtcSecRead, .rtcYearRead] }, _, ⟨by decide +kernel, rfl⟩, rfl, rfl⟩

/-- The hypotheses of Obligations.TheQueueDrainsInOrder can be met, clause by clause. -/
theorem wit_TheQueueDrainsInOrder :
    ∃ s : State, PinsAgree s ∧ s.pending.length = 2 := by
  exact ⟨{ State.reset with pending := [.rtcSecRead, .rtcYearRead] }, ⟨by decide +kernel, rfl⟩, rfl⟩

/-- The hypotheses of Obligations.PinsFollowTheirRules can be met, clause by clause. -/
theorem wit_PinsFollowTheirRules :
    (∃ (c : Instr) (s t : State), exec c s = .next t ∧ t.dev.hubUp = false ∧ t.dev.pwr.mode ≠ .run) ∧
    (∃ (c : Instr) (s t : State), exec c s = .next t ∧ t.dev.boot.phase = .idle) ∧
    (∃ (c : Instr) (s t : State), exec c s = .next t ∧ t.dev.hubUp = true ∧ t.dev.boot.phase ≠ .idle ∧ t.dev.pwr.mode = .vigil) := by
  refine ⟨?_, ?_, ?_⟩
  · exact ⟨.resetNAssert, ofDev { rs with pwr := { rs.pwr with mode := .wakeFail } }, _, rfl, by decide +kernel, by decide +kernel⟩
  · exact ⟨.rtcSecRead, State.reset, _, rfl, by decide +kernel⟩
  · exact ⟨.rtcSecRead, ofDev { run with pwr := { rs.pwr with mode := .vigil } }, _, rfl, by decide +kernel, by decide +kernel, by decide +kernel⟩

/-- The hypotheses of Obligations.ResetsLeave can be met, clause by clause. -/
theorem wit_ResetsLeave :
    (∃ (s : State), s.dev.pwr.aoOn = true) ∧
    (∃ (s : State), s.dev.pwr.resetLow = true ∧ s.dev.pwr.aoOn = true ∧ s.dev.pwr.brown = false ∧ s.dev.pwr.cause = 2) ∧
    (∃ (s : State), s.dev.pwr.aoOn = true) ∧
    (∃ (s : State), s.dev.pwr.brown = true ∧ s.dev.pwr.resetLow = false) := by
  refine ⟨?_, ?_, ?_, ?_⟩
  · exact ⟨State.reset, by decide +kernel⟩
  · exact ⟨ofDev { rs with pwr := { rs.pwr with resetLow := true, hubOn := false, cause := 2 } }, by decide +kernel⟩
  · exact ⟨State.reset, by decide +kernel⟩
  · exact ⟨ofDev { rs with pwr := { rs.pwr with brown := true, hubOn := false } }, by decide +kernel⟩

/-- The hypotheses of Obligations.FaultsOfTheWholeDeviceShow can be met, clause by clause. -/
theorem wit_FaultsOfTheWholeDeviceShow :
    (∃ (s : State) (out : Bool), s.dev.pwr.aoOn = true ∧ s.dev.pwr.vinOut ≠ out) ∧
    (∃ (s : State) (out : Bool), s.dev.pwr.aoOn = true ∧ s.dev.pwr.vinOut ≠ out) ∧
    (∃ (s : State) (out : Bool), s.dev.pwr.aoOn = true ∧ s.dev.pwr.vinOut ≠ out) ∧
    (∃ (s : State), s.dev.hubUp = true) ∧
    (∃ (s : State), s.dev.hubUp = true) ∧
    (∃ (s : State) (c : ClkDom) (die : Fin 8), s.dev.hubUp = true ∧ s.dev.present die.val = true ∧ die.val ∈ domDies c ∧ (c, die.val) ∉ s.dev.clkOff) ∧
    (∃ (s : State), s.dev.hubUp = true) := by
  refine ⟨?_, ?_, ?_, ?_, ?_, ?_, ?_⟩
  · exact ⟨State.reset, true, by decide +kernel⟩
  · exact ⟨ofDev { rs with pwr := { rs.pwr with vinOut := true } }, false, by decide +kernel⟩
  · exact ⟨ofDev { rs with pwr := { rs.pwr with hubOn := false } }, true, by decide +kernel⟩
  · exact ⟨State.reset, by decide +kernel⟩
  · exact ⟨ofDev run, by decide +kernel⟩
  · exact ⟨State.reset, .conv, 1, by decide +kernel⟩
  · exact ⟨State.reset, by decide +kernel⟩

/-- The hypotheses of Obligations.SensorsPadsAndOutputs can be met, clause by clause. -/
theorem wit_SensorsPadsAndOutputs :
    (∃ (s : State) (n : SensorId) (v : Int), s.dev.dieUp (n.val / 2) = true ∧ tempOk v = true) ∧
    (∃ (s : State) (n : SensorId) (v : Int), s.dev.dieUp (n.val / 2) = true ∧ tempOk v = true) ∧
    (∃ (s : State) (n : SensorId) (v : Int), s.dev.dieUp (n.val / 2) = true ∧ tempOk v = false) ∧
    (∃ (s : State) (n : Fin 32), s.dev.hubUp = true ∧ s.dev.monOn n.val 9 0 = true) ∧
    (∃ (s : State), s.dev.pwr.aoOn = true) ∧
    (∃ (s : State), s.dev.pwr.aoOn = true) := by
  refine ⟨?_, ?_, ?_, ?_, ?_, ?_⟩
  · exact ⟨State.reset, 15, 2400, by decide +kernel⟩
  · exact ⟨State.reset, 0, -880, by decide +kernel⟩
  · exact ⟨State.reset, 3, 2401, by decide +kernel⟩
  · exact ⟨ofDev ((rs.put (R.MON_CFG 31) F.MON_CFG_class 9).put (R.MON_CFG 31) F.MON_CFG_index 0), 31, by decide +kernel⟩
  · exact ⟨State.reset, by decide +kernel⟩
  · exact ⟨ofDev { rs with cagesFolded := 129 }, by decide +kernel⟩

/-- The hypotheses of Obligations.LinksCarryAndRepair can be met, clause by clause. -/
theorem wit_LinksCarryAndRepair :
    (∃ (s : State) (n : LinkId) (k : Dir) (ty : Fin 16) (p : Bytes), s.dev.dieUp (n.val + 1) = true ∧ ty.val < 8 ∧ p ≠ [] ∧ p.length ≤ 248 ∧
      (s.dev.link n.val).isolated = false ∧ (s.dev.link n.val).up = true ∧ (dirOf s.dev n.val k).replay.length < 64 ∧ (dirOf s.dev n.val k).stalled =
      []) ∧
    (∃ (s : State) (n : LinkId) (k : Dir) (raw : Bytes), s.dev.dieUp (n.val + 1) = true ∧ (s.dev.link n.val).up = true ∧ raw.length = 256 ∧ leAt raw
      252 4 = crc32 (raw.take 252) ∧ leAt raw 0 2 % 4096 = (dirOf s.dev n.val k).expect ∧ leAt raw 0 2 / 4096 ≠ 0) ∧
    (∃ (s : State) (n : LinkId) (raw : Bytes), s.dev.dieUp (n.val + 1) = true ∧ (s.dev.link n.val).up = true ∧ raw.length = 256 ∧ leAt raw 252 4 ≠
      crc32 (raw.take 252)) ∧
    (∃ (s : State) (n : LinkId), s.dev.hubUp = true ∧ (s.dev.link n.val).up = true ∧ (s.dev.link n.val).exhausted = true) ∧
    (∃ (s : State) (n : LinkId), s.dev.hubUp = true ∧ (s.dev.link n.val).retraining = true ∧ (s.dev.link n.val).isolated = false) ∧
    (∃ (s : State) (n : LinkId) (lane : Lane), s.dev.hubUp = true ∧ s.dev.present (n.val + 1) = true ∧ (s.dev.link n.val).isolated = false ∧ lane.val
      < 8 ∧ (s.dev.link n.val).spared = none ∧ (s.dev.link n.val).retired.testBit lane.val = false ∧ (s.dev.link n.val).retired.testBit 8 = false) ∧
    (∃ (s : State) (n : LinkId), s.dev.hubUp = true ∧ s.dev.present (n.val + 1) = true ∧ (s.dev.link n.val).isolated = false ∧ (s.dev.link
      n.val).spareUsed = false ∧ (s.dev.link n.val).retired.testBit 8 = false) ∧
    (∃ (s : State) (n : LinkId), s.dev.hubUp = true ∧ s.dev.present (n.val + 1) = true ∧ (s.dev.link n.val).isolated = false ∧ (s.dev.link
      n.val).spareUsed = false ∧ (s.dev.link n.val).retired.testBit 8 = false) := by
  refine ⟨?_, ?_, ?_, ?_, ?_, ?_, ?_, ?_⟩
  · exact ⟨ofDev (rs.setLink 0 upLink), 0, .out, 7, List.replicate 248 1, by decide +kernel⟩
  · exact ⟨ofDev (rs.setLink 6 upLink), 6, .in_, flitB, by decide +kernel⟩
  · exact ⟨ofDev (rs.setLink 6 upLink), 6, List.replicate 256 1, by decide +kernel⟩
  · exact ⟨ofDev (rs.setLink 2 { upLink with out := { LinkDir.reset with replay := [⟨0, 1, [1], 8⟩], next := 1 } }), 2, by decide +kernel⟩
  · exact ⟨ofDev (rs.setLink 5 { Link.reset with retraining := true }), 5, by decide +kernel⟩
  · exact ⟨ofDev (rs.setLink 0 upLink), 0, 7, by decide +kernel⟩
  · exact ⟨ofDev (rs.setLink 4 upLink), 4, by decide +kernel⟩
  · exact ⟨ofDev (rs.setLink 4 { upLink with retired := 3, spared := some 0 }), 4, by decide +kernel⟩

/-- The hypotheses of Obligations.RegistersFollowTheirAccessCodes can be met, clause by clause. -/
theorem wit_RegistersFollowTheirAccessCodes :
    (∃ (s : State) (a : Word), s.dev.hubUp = true ∧ s.dev.evt.pend = [] ∧ s.dev.accessStatus [a.toNat] = 0 ∧ a.toNat < 0x10000 ∧ a.toNat ≠
      R.PWR_AO_STATUS) ∧
    (∃ (s : State) (a : Word), s.dev.hubUp = true ∧ s.dev.evt.pend = [] ∧ s.dev.accessStatus [a.toNat] = 0 ∧ a.toNat < 0x10000 ∧ a.toNat ≠
      R.PWR_AO_STATUS) ∧
    (∃ (s : State) (a : Word), s.dev.hubUp = true ∧ s.dev.evt.pend = [] ∧ s.dev.accessStatus [a.toNat] ≠ 0) ∧
    (∃ (s : State) (a : Word) (w : Word), s.dev.hubUp = true ∧ s.dev.accessStatus [a.toNat] = 0 ∧ (s.dev.busWrite a.toNat w).1.evt.pend = []) := by
  refine ⟨?_, ?_, ?_, ?_⟩
  · exact ⟨ofDev run, BitVec.ofNat 32 R.GPIO_OUT, by decide +kernel⟩
  · exact ⟨ofDev run, BitVec.ofNat 32 R.EVT_ENABLE_LO, by decide +kernel⟩
  · exact ⟨ofDev run, 0xFFFFFFFC, by decide +kernel⟩
  · exact ⟨ofDev run, BitVec.ofNat 32 (R.RAD_CTRL 0), 0xFFFFFFFF, by decide +kernel⟩

/-- The hypotheses of Obligations.CalendarIsSetAndTrimmed can be met, clause by clause. -/
theorem wit_CalendarIsSetAndTrimmed :
    (∃ (s : State), s.dev.hubUp = true) ∧
    (∃ (s : State), s.dev.hubUp = true) ∧
    (∃ (s : State) (v : Nat), s.dev.hubUp = true ∧ (stagedUtc s.dev v).ok = true) ∧
    (∃ (s : State) (v : Nat), s.dev.hubUp = true ∧ (stagedUtc s.dev v).ok = false) ∧
    (∃ (s : State), s.dev.hubUp = true) ∧
    (∃ (s : State) (t : Nat), s.dev.hubUp = true ∧ s.dev.flag R.RTC_CTRL F.RTC_CTRL_nt_set = true ∧ s.dev.nt ≤ t ∧ t % 1000000000 = 0 ∧ 2 ≤
      s.dev.clkState ∧ s.dev.rtc.now.second ≠ 60 ∧ (s.dev.utcAt t).ok = true) ∧
    (∃ (s : State), s.dev.hubUp = true) ∧
    (∃ (s : State), s.dev.hubUp = true) ∧
    (∃ (s : State), s.dev.hubUp = true) ∧
    (∃ (s : State), s.dev.hubUp = true) ∧
    (∃ (s : State) (t : Nat) (start : Nat) (n : Nat), s.dev.hubUp = true ∧ s.dev.rtc.trimAt = some (start, n) ∧ (start + n) * 1000000000 ≤ t) := by
  refine ⟨?_, ?_, ?_, ?_, ?_, ?_, ?_, ?_, ?_, ?_, ?_⟩
  · exact ⟨State.reset, by decide +kernel⟩
  · exact ⟨State.reset, by decide +kernel⟩
  · exact ⟨ofDev { rs with rtc := { rs.rtc with stMin := some 59, stYear := some 199 } }, 59, by decide +kernel⟩
  · exact ⟨ofDev { rs with rtc := { rs.rtc with stMonth := some 13 } }, 0, by decide +kernel⟩
  · exact ⟨State.reset, by decide +kernel⟩
  · exact ⟨ofDev ({ rs with rtc := rs.rtc } |>.put R.RTC_CTRL F.RTC_CTRL_nt_set 1 |>.put R.CLK_STATUS F.CLK_STATUS_state 2), nt0, by decide +kernel⟩
  · exact ⟨ofDev { rs with rtc := { rs.rtc with now := ⟨25, 7, 1, 0, 0, 0⟩ } }, by decide +kernel⟩
  · exact ⟨ofDev rs, by decide +kernel⟩
  · exact ⟨ofDev rs, by decide +kernel⟩
  · exact ⟨ofDev (rs.put (R.RTC_ALM_CTRL 1) ⟨1,0⟩ 3), by decide +kernel⟩
  · exact ⟨ofDev { rs with rtc := { rs.rtc with trimAt := some (5, 16) } }, 21000000000, 5, 16, by decide +kernel⟩

/-- The hypotheses of Obligations.CalendarRunsAndReads can be met, clause by clause. -/
theorem wit_CalendarRunsAndReads :
    (∃ (s : State), s.dev.pwr.aoOn = true ∧ s.dev.rtc.now.second < 58) ∧
    (∃ (s : State), s.dev.hubUp = true) ∧
    (∃ (s : State), s.dev.hubUp = true) ∧
    (∃ (s : State) (t : Nat) (x : Nat) (k : Nat) (u : Utc), s.dev.pwr.aoOn = true ∧ s.dev.rtc.snap = some (u, k, x) ∧ s.dev.nt ≤ t ∧ x + 1000000000 ≤
      (s.dev.at_ t).xo) := by
  refine ⟨?_, ?_, ?_, ?_⟩
  · exact ⟨ofDev { rs with rtc := { rs.rtc with now := ⟨0, 1, 1, 0, 0, 57⟩ } }, by decide +kernel⟩
  · exact ⟨State.reset, by decide +kernel⟩
  · exact ⟨ofDev { rs with rtc := { rs.rtc with snap := some (⟨25, 1, 1, 0, 0, 0⟩, 7, 0) } }, by decide +kernel⟩
  · exact ⟨ofDev { rs with rtc := { rs.rtc with snap := some (⟨25, 1, 1, 0, 0, 0⟩, 7, 0) } }, nt0 + 1000000000, 0, 7, ⟨25, 1, 1, 0, 0, 0⟩, by decide +kernel⟩

/-- The hypotheses of Obligations.LogMonitorsAndSnapshotRead can be met, clause by clause. -/
theorem wit_LogMonitorsAndSnapshotRead :
    (∃ (s : State) (r : LogRec) (rest : List LogRec), s.dev.hubUp = true ∧ s.dev.evt.log = r :: rest) ∧
    (∃ (s : State), s.dev.hubUp = true ∧ s.dev.evt.log = []) ∧
    (∃ (s : State) (r : LogRec), s.dev.hubUp = true ∧ s.dev.evt.pend = [] ∧ s.dev.evt.latch = some r) ∧
    (∃ (s : State), s.dev.hubUp = true ∧ s.dev.evt.pend = [] ∧ s.dev.evt.latch = none) ∧
    (∃ (s : State) (n : Fin 32) (t : Nat), s.dev.hubUp = true ∧ s.dev.nt ≤ t ∧ t % s.dev.monWindow n.val = 0) ∧
    (∃ (s : State), s.dev.hubUp = true) ∧
    (∃ (s : State), s.dev.hubUp = true) ∧
    (∃ (s : State) (n : Fin 32) (r : MonRes) (x : Nat), s.dev.hubUp = true ∧ (s.dev.mon n.val).latch = some (r, x)) ∧
    (∃ (s : State) (n : Fin 32) (t : Nat) (x : Nat) (r : MonRes), s.dev.hubUp = true ∧ (s.dev.mon n.val).latch = some (r, x) ∧ s.dev.nt ≤ t ∧ x +
      1000000000 ≤ (s.dev.at_ t).xo) ∧
    (∃ (s : State), s.dev.hubUp = true) ∧
    (∃ (s : State) (u : Nat) (x : Nat), s.dev.hubUp = true ∧ s.dev.clk.snap = some (u, x)) ∧
    (∃ (s : State), s.dev.hubUp = true ∧ s.dev.clk.snap = none) ∧
    (∃ (s : State) (t : Nat) (u : Nat) (x : Nat), s.dev.hubUp = true ∧ s.dev.clk.snap = some (u, x) ∧ s.dev.nt ≤ t ∧ x + 1000000 ≤ (s.dev.at_ t).xo) ∧
    (∃ (s : State) (t : Nat), s.dev.hubUp = true ∧ s.dev.ppsRuns = true ∧ instantOf s t % 1000000000 = 0 ∧ s.dev.boot.phase ≠ .idle) ∧
    (∃ (s : State) (t : Nat) (r : Nat), s.dev.hubUp = true ∧ s.dev.clk.ppsRise = some r ∧ r + s.dev.ppsWidth ≤ instantOf s t ∧ s.dev.boot.phase ≠
      .idle) := by
  refine ⟨?_, ?_, ?_, ?_, ?_, ?_, ?_, ?_, ?_, ?_, ?_, ?_, ?_, ?_, ?_⟩
  · exact ⟨ofDev { rs with evt := { rs.evt with log := [⟨1, 2, 3, 4⟩] } }, ⟨1, 2, 3, 4⟩, [], by decide +kernel⟩
  · exact ⟨State.reset, by decide +kernel⟩
  · exact ⟨ofDev { rs with evt := { rs.evt with log := [⟨1, 2, 3, 4⟩, ⟨5, 6, 7, 8⟩], latch := some ⟨1, 2, 3, 4⟩ } }, ⟨1, 2, 3, 4⟩, by decide +kernel⟩
  · exact ⟨ofDev { rs with evt := { rs.evt with log := [⟨1, 2, 3, 4⟩] } }, by decide +kernel⟩
  · exact ⟨State.reset, 31, nt0, by decide +kernel⟩
  · exact ⟨State.reset, by decide +kernel⟩
  · exact ⟨ofDev (rs.setMon 31 { Mon.reset with last := ⟨MonStat.empty, 65535, true⟩ }), by decide +kernel⟩
  · exact ⟨ofDev (rs.setMon 0 { Mon.reset with latch := some (⟨{ MonStat.empty with hist := [(31, 9)] }, 1, false⟩, 0) }), 0, ⟨{ MonStat.empty with hist := [(31, 9)] }, 1, false⟩, 0, by decide +kernel⟩
  · exact ⟨ofDev (rs.setMon 0 { Mon.reset with latch := some (⟨MonStat.empty, 1, false⟩, 0) }), 0, nt0 + 1000000000, 0, ⟨MonStat.empty, 1, false⟩, by decide +kernel⟩
  · exact ⟨State.reset, by decide +kernel⟩
  · exact ⟨ofDev { rs with clk := { rs.clk with snap := some (nt0 + 7, 0) } }, nt0 + 7, 0, by decide +kernel⟩
  · exact ⟨State.reset, by decide +kernel⟩
  · exact ⟨ofDev { rs with clk := { rs.clk with snap := some (nt0, 0) } }, nt0 + 1000000, nt0, 0, by decide +kernel⟩
  · exact ⟨ofDev ((run.put R.CLK_PPS_CTRL F.CLK_PPS_CTRL_out_en 1).put R.CLK_STATUS F.CLK_STATUS_state clkLOCKED), nt0, by decide +kernel⟩
  · exact ⟨ofDev { run with clk := { run.clk with ppsRise := some nt0 } }, nt0 + 990000000, nt0, by decide +kernel⟩

/-- The hypotheses of Obligations.ReferencesAreJudged can be met, clause by clause. -/
theorem wit_ReferencesAreJudged :
    (∃ (s : State) (m : PtpMsg), s.dev.hubUp = true ∧ s.dev.refOn .ptp = true ∧ s.dev.get R.CLK_PTP_CTRL F.CLK_PTP_CTRL_port = m.mac.val ∧ s.dev.get
      R.CLK_PTP_CTRL F.CLK_PTP_CTRL_transport = m.transport.val ∧ s.dev.get R.CLK_PTP_CTRL F.CLK_PTP_CTRL_domain = m.domain ∧ s.dev.clk.master = none
      ∧ m.body = .announce) ∧
    (∃ (s : State) (m : PtpMsg) (x : Nat) (o : Int) (i : Int), s.dev.hubUp = true ∧ s.dev.refOn .ptp = true ∧ s.dev.get R.CLK_PTP_CTRL
      F.CLK_PTP_CTRL_port = m.mac.val ∧ s.dev.get R.CLK_PTP_CTRL F.CLK_PTP_CTRL_transport = m.transport.val ∧ s.dev.get R.CLK_PTP_CTRL
      F.CLK_PTP_CTRL_domain = m.domain ∧ s.dev.clk.master = some x ∧ x ≠ m.master ∧ m.body = .sync1 o i) ∧
    (∃ (s : State) (m : PtpMsg) (o : Int) (i : Int), s.dev.hubUp = true ∧ s.dev.refOn .ptp = true ∧ s.dev.get R.CLK_PTP_CTRL F.CLK_PTP_CTRL_port =
      m.mac.val ∧ s.dev.get R.CLK_PTP_CTRL F.CLK_PTP_CTRL_transport = m.transport.val ∧ s.dev.get R.CLK_PTP_CTRL F.CLK_PTP_CTRL_domain = m.domain ∧
      s.dev.clk.master = some m.master ∧ s.dev.clk.ptpSeq = none ∧ s.dev.clk.ptpLead = none ∧ m.body = .sync1 o i) ∧
    (∃ (s : State), s.dev.hubUp = true ∧ s.dev.refOn .pps = true ∧ s.dev.clk.ppsAgree < 3) ∧
    (∃ (s : State) (t : Nat) (l : Int) (x : Int), s.dev.hubUp = true ∧ s.dev.refOn .pps = true ∧ 3 ≤ s.dev.clk.ppsAgree ∧ s.dev.clk.ppsLast = some l ∧
      x = ((s.dev.at_ t).xo : Int) - sext 12 (s.dev.get R.CLK_PPS_CTRL F.CLK_PPS_CTRL_in_delay) ∧ ((nearSec (x - l) < 1 ∨ 2000 < (x - l - nearSec (x -
      l) * 1000000000).natAbs))) ∧
    (∃ (s : State) (t : Nat) (l : Int) (x : Int), s.dev.hubUp = true ∧ s.dev.refOn .pps = true ∧ 3 ≤ s.dev.clk.ppsAgree ∧ s.dev.clk.ppsLast = some l ∧
      x = ((s.dev.at_ t).xo : Int) - sext 12 (s.dev.get R.CLK_PPS_CTRL F.CLK_PPS_CTRL_in_delay) ∧ ((nearSec (x - l) < 1 ∨ 2000 < (x - l - nearSec (x -
      l) * 1000000000).natAbs))) ∧
    (∃ (s : State) (ppb : Int), s.dev.hubUp = true ∧ s.dev.refOn .ref10m = true ∧ ppb.natAbs ≤ 20000) ∧
    (∃ (s : State) (ppb : Int), s.dev.hubUp = true ∧ s.dev.refOn .ref10m = true ∧ 20000 < ppb.natAbs) ∧
    (∃ (s : State) (k : RefId) (t : Nat) (x : Nat), s.dev.hubUp = true ∧ (s.dev.refSt k).at_ = some x ∧ s.dev.nt ≤ t ∧ x + 3000000000 ≤ (s.dev.at_
      t).xo ∧ s.dev.refValid k = true) ∧
    (∃ (s : State), s.dev.hubUp = true) := by
  refine ⟨?_, ?_, ?_, ?_, ?_, ?_, ?_, ?_, ?_, ?_⟩
  · exact ⟨ofDev (((rs.put R.CLK_CTRL F.CLK_CTRL_ptp_en 1).put R.CLK_PTP_CTRL F.CLK_PTP_CTRL_port 7).put R.CLK_PTP_CTRL F.CLK_PTP_CTRL_transport 2), ⟨7, 2, 0, 99, 1, .announce⟩, by decide +kernel⟩
  · exact ⟨ofDev ({ rs with clk := { rs.clk with master := some 98 } } |>.put R.CLK_CTRL F.CLK_CTRL_ptp_en 1 |>.put R.CLK_PTP_CTRL F.CLK_PTP_CTRL_transport 0), ⟨0, 0, 0, 99, 1, .sync1 0 0⟩, 98, 0, 0, by decide +kernel⟩
  · exact ⟨ofDev ({ rs with clk := { rs.clk with master := some 99 } } |>.put R.CLK_CTRL F.CLK_CTRL_ptp_en 1 |>.put R.CLK_PTP_CTRL F.CLK_PTP_CTRL_transport 0), ⟨0, 0, 0, 99, 1, .sync1 0 0⟩, 0, 0, by decide +kernel⟩
  · exact ⟨ofDev (rs.put R.CLK_CTRL F.CLK_CTRL_pps_en 1 |>.put R.CLK_TOD_CTRL F.CLK_TOD_CTRL_load 1), by decide +kernel⟩
  · exact ⟨ofDev ({ rs with clk := { rs.clk with ppsAgree := 3, ppsLast := some (-2001) } } |>.put R.CLK_CTRL F.CLK_CTRL_pps_en 1), nt0 + 1000000000, -2001, 1000000000, by decide +kernel⟩
  · exact ⟨ofDev ({ rs with clk := { rs.clk with ppsAgree := 3, ppsLast := some 0 } } |>.put R.CLK_CTRL F.CLK_CTRL_pps_en 1), nt0 + 499999999, 0, 499999999, by decide +kernel⟩
  · exact ⟨ofDev (rs.put R.CLK_CTRL F.CLK_CTRL_ref10m_en 1), -20000, by decide +kernel⟩
  · exact ⟨ofDev (rs.put R.CLK_CTRL F.CLK_CTRL_ref10m_en 1), 20001, by decide +kernel⟩
  · exact ⟨ofDev ({ rs with clk := { rs.clk with pps := ⟨16, some 0, 0⟩ } } |>.put R.CLK_STATUS (refValidFld .pps) 1), .pps, nt0 + 3000000000, 0, by decide +kernel⟩
  · exact ⟨State.reset, by decide +kernel⟩

/-- The hypotheses of Obligations.GridAndSteps can be met, clause by clause. -/
theorem wit_GridAndSteps :
    (∃ (s : State) (a : Nat), s.dev.hubUp = true ∧ s.dev.nt ≤ a * slotNs ∧ s.dev.slotServed a = false) ∧
    (∃ (s : State) (sf : Nat), s.dev.hubUp = true ∧ s.dev.nt ≤ sf * superNs) ∧
    (∃ (s : State) (t : Nat) (x : Int), s.dev.hubUp = true ∧ s.dev.clk.stepMs = some x ∧ s.dev.nt ≤ t ∧ t % 1000000 = 0) ∧
    (∃ (s : State) (t : Nat) (x : Int), s.dev.hubUp = true ∧ s.dev.clk.stepQuiet = some x ∧ s.dev.nt ≤ t ∧ t % slotNs = 0 ∧ slotOf t = s.dev.quietAt
      t) := by
  refine ⟨?_, ?_, ?_, ?_⟩
  · exact ⟨State.reset, 47334241850, by decide +kernel⟩
  · exact ⟨State.reset, 184899384, by decide +kernel⟩
  · exact ⟨ofDev { rs with clk := { rs.clk with stepMs := some (-5) } }, nt0, -5, by decide +kernel⟩
  · exact ⟨ofDev { rs with clk := { rs.clk with stepQuiet := some 9000000 } }, nt0 + 3940000000, 9000000, by decide +kernel⟩

/-- The hypotheses of Obligations.ActionsAreArmedAndCancelled can be met, clause by clause. -/
theorem wit_ActionsAreArmedAndCancelled :
    (∃ (s : State) (i : Nat), s.dev.hubUp = true ∧ s.dev.armValid s.dev.stagedAct (s.dev.get R.CLK_ACT_TIME_NS F.CLK_ACT_TIME_NS_ns) = true ∧
      smLowestFree s.dev.acts 1024 = some i ∧ s.dev.nt + 2000 ≤ s.dev.stagedAct.time) ∧
    (∃ (s : State), s.dev.hubUp = true ∧ s.dev.armValid s.dev.stagedAct (s.dev.get R.CLK_ACT_TIME_NS F.CLK_ACT_TIME_NS_ns) = false) ∧
    (∃ (s : State), s.dev.hubUp = true ∧ s.dev.armValid s.dev.stagedAct (s.dev.get R.CLK_ACT_TIME_NS F.CLK_ACT_TIME_NS_ns) = false) ∧
    (∃ (s : State), s.dev.hubUp = true ∧ s.dev.armValid s.dev.stagedAct (s.dev.get R.CLK_ACT_TIME_NS F.CLK_ACT_TIME_NS_ns) = true ∧ smLowestFree
      s.dev.acts 1024 = none) ∧
    (∃ (s : State), s.dev.hubUp = true) ∧
    (∃ (s : State), s.dev.hubUp = true) ∧
    (∃ (s : State), s.dev.hubUp = true) := by
  refine ⟨?_, ?_, ?_, ?_, ?_, ?_, ?_⟩
  · exact ⟨ofDev (stage { rs with acts := [(0, ⟨nt0 + 1000000000, 7, 0, 0⟩)] } 946684837 2000 7 23 1), 1, by decide +kernel⟩
  · exact ⟨ofDev (stage rs 946684838 0 7 24 1), by decide +kernel⟩
  · exact ⟨ofDev (stage rs 946684838 1000000000 7 23 1), by decide +kernel⟩
  · exact ⟨ofDev (stage { rs with acts := (List.range 1024).map (fun i => (i, ⟨nt0 + 1000000000, 7, 0, 0⟩)) } 946684838 0 1 2 1023), by decide +kernel⟩
  · exact ⟨ofDev { rs with acts := [(1023, ⟨nt0 + 1000000000, 7, 0, 0⟩)] }, by decide +kernel⟩
  · exact ⟨ofDev { rs with actsFired := [1023] }, by decide +kernel⟩
  · exact ⟨State.reset, by decide +kernel⟩

/-- The hypotheses of Obligations.ActionsFire can be met, clause by clause. -/
theorem wit_ActionsFire :
    (∃ (s : State) (i : ActId) (t : Nat) (a : Act) (r : RadioId), s.dev.radioUp r = true ∧ (s.dev.at_ t).firing i 1 = some a ∧ a.target = r.val ∧
      s.dev.txCheck r = none ∧ (s.dev.burstSet r a.arg).1 ≠ [] ∧ s.dev.canSend r = false) ∧
    (∃ (s : State) (i : ActId) (t : Nat) (p : Nat) (a : Act) (r : RadioId) (x : TxDesc), s.dev.radioUp r = true ∧ (s.dev.at_ t).firing i 1 = some a ∧
      a.target = r.val ∧ s.dev.txCheck r = none ∧ (s.dev.burstSet r a.arg).1 = [x] ∧ s.dev.canSend r = true ∧ s.dev.txPort r = some p ∧ (s.dev.radio
      r).subs + groupOf x.size ≤ s.dev.txShare r ∧ (s.dev.at_ t).rpVerdict r (s.dev.carrierOf r a.arg p (sampleInstant a.time) x) a.time = none) ∧
    (∃ (s : State) (i : ActId) (t : Nat) (a : Act) (r : RadioId) (cause : Nat), s.dev.radioUp r = true ∧ (s.dev.at_ t).firing i 1 = some a ∧ a.target
      = r.val ∧ s.dev.txCheck r = some cause ∧ (s.dev.burstSet r a.arg).1 ≠ []) ∧
    (∃ (s : State) (i : ActId) (t : Nat) (a : Act) (r : RadioId), s.dev.radioUp r = true ∧ (s.dev.at_ t).firing i 2 = some a ∧ a.target = r.val ∧
      a.arg < 4 ∧ s.dev.radInTx r = false) ∧
    (∃ (s : State) (i : ActId) (t : Nat) (a : Act), s.dev.hubUp = true ∧ (s.dev.at_ t).firing i 3 = some a ∧ s.dev.activeGen ≠ a.arg % 2) ∧
    (∃ (s : State) (i : ActId) (t : Nat) (a : Act) (n : MacId), s.dev.hubUp = true ∧ (s.dev.at_ t).firing i 4 = some a ∧ a.target = n.val) ∧
    (∃ (s : State) (i : ActId) (t : Nat) (a : Act), s.dev.hubUp = true ∧ (s.dev.at_ t).firing i 5 = some a ∧ a.arg < 8 ∧ ¬(instantOf s t % slotNs = 0
      ∧ s.dev.clk.lastSlot = some (absSlot (instantOf s t)))) ∧
    (∃ (s : State) (i : ActId) (t : Nat) (a : Act) (r : RadioId), s.dev.radioUp r = true ∧ (s.dev.at_ t).firing i 6 = some a ∧ a.target = r.val ∧
      ((a.arg = 2 ∨ a.arg = 1 ∧ s.dev.vcoDue r = true)) ∧ ((s.dev.radState r = radRX ∨ s.dev.radState r = radTUNE)) ∧ s.dev.radTarget r =
      s.dev.radState r) ∧
    (∃ (s : State) (i : ActId) (t : Nat) (a : Act) (r : RadioId), s.dev.radioUp r = true ∧ (s.dev.at_ t).firing i 6 = some a ∧ a.target = r.val ∧
      ((a.arg = 2 ∨ a.arg = 1 ∧ s.dev.vcoDue r = true)) ∧ ((s.dev.radState r = radRX ∨ s.dev.radState r = radTUNE)) ∧ s.dev.radTarget r =
      s.dev.radState r) ∧
    (∃ (s : State) (i : ActId) (t : Nat) (a : Act), s.dev.hubUp = true ∧ (s.dev.at_ t).firing i 7 = some a ∧ a.target < 24) := by
  refine ⟨?_, ?_, ?_, ?_, ?_, ?_, ?_, ?_, ?_, ?_⟩
  · exact ⟨ofDev (arm 1023 ⟨nt0, 1, 2, 1023⟩ (desc 2 1023 (rad 2 radRX radRX 1 rs))), 1023, nt0, ⟨nt0, 1, 2, 1023⟩, 2, by decide +kernel⟩
  · exact ⟨ofDev (arm 1023 ⟨nt0, 1, 1, 1023⟩ (desc 1 1023 (onAir Radio.reset rs))), 1023, nt0, 0, ⟨nt0, 1, 1, 1023⟩, 1, { tx0 with idx := 1023 }, by decide +kernel⟩
  · exact ⟨ofDev (arm 1023 ⟨nt0, 1, 2, 1023⟩ (desc 2 1023 rs)), 1023, nt0, ⟨nt0, 1, 2, 1023⟩, 2, 5, by decide +kernel⟩
  · exact ⟨ofDev (arm 0 ⟨nt0, 2, 0, 3⟩ rs), 0, nt0, ⟨nt0, 2, 0, 3⟩, 0, by decide +kernel⟩
  · exact ⟨ofDev (arm 0 ⟨nt0, 3, 0, 1⟩ rs), 0, nt0, ⟨nt0, 3, 0, 1⟩, by decide +kernel⟩
  · exact ⟨ofDev (arm 0 ⟨nt0, 4, 7, 3⟩ rs), 0, nt0, ⟨nt0, 4, 7, 3⟩, 7, by decide +kernel⟩
  · exact ⟨ofDev (arm 0 ⟨nt0, 5, 0, 7⟩ rs), 0, nt0, ⟨nt0, 5, 0, 7⟩, by decide +kernel⟩
  · exact ⟨ofDev (arm 0 ⟨nt0, 6, 2, 2⟩ (rad 2 radRX radRX 1 rs)), 0, nt0, ⟨nt0, 6, 2, 2⟩, 2, by decide +kernel⟩
  · exact ⟨ofDev (arm 0 ⟨nt0, 6, 1, 1⟩ ((rad 1 radTUNE radTUNE 1 rs).put (R.RAD_CTRL 1) F.RAD_CTRL_vco_cal_due 1)), 0, nt0, ⟨nt0, 6, 1, 1⟩, 1, by decide +kernel⟩
  · exact ⟨ofDev (arm 0 ⟨nt0, 7, 23, 1⟩ rs), 0, nt0, ⟨nt0, 7, 23, 1⟩, by decide +kernel⟩

/-- The hypotheses of Obligations.BurstsAreCancelledInOff can be met, clause by clause. -/
theorem wit_BurstsAreCancelledInOff :
    ∃ (s : State) (i : ActId) (t : Nat) (a : Act) (r : RadioId), s.dev.radioUp r = true ∧ (s.dev.at_ t).firing i 1 = some a ∧ a.target = r.val ∧
      ((s.dev.radState r = radOFF ∨ s.dev.radTarget r = radOFF)) ∧ (s.dev.burstSet r a.arg).1 ≠ [] := by
  exact ⟨ofDev (arm 1023 ⟨nt0, 1, 2, 1023⟩ (desc 2 1023 rs)), 1023, nt0, ⟨nt0, 1, 2, 1023⟩, 2, by decide +kernel⟩

/-- The hypotheses of Obligations.RadiosTuneAndLock can be met, clause by clause. -/
theorem wit_RadiosTuneAndLock :
    (∃ (s : State) (r : RadioId), s.dev.dieUp (r.val + 1) = true) ∧
    (∃ (s : State) (r : RadioId), s.dev.dieUp (r.val + 1) = true) ∧
    (∃ (s : State) (r : RadioId), s.dev.dieUp (r.val + 1) = true) ∧
    (∃ (s : State) (r : RadioId), s.dev.dieUp (r.val + 1) = true) ∧
    (∃ (s : State) (r : RadioId), s.dev.radioUp r = true ∧ s.dev.radState r ≠ s.dev.radTarget r ∧ s.dev.radState r ≠ radTX ∧ s.dev.radState r ≠ radVCO
      ∧ ((s.dev.radState r = radTUNE → s.dev.radLocked r = true ∨ s.dev.radTarget r ≤ radTUNE)) ∧ s.dev.vcoDue r = false ∧ s.dev.rxBarred r
      (nextRadState (s.dev.radState r) (s.dev.radTarget r)) = false) ∧
    (∃ (s : State) (r : RadioId), s.dev.radioUp r = true ∧ s.dev.radState r ≠ s.dev.radTarget r ∧ s.dev.radState r ≠ radTX ∧ s.dev.radState r ≠ radVCO
      ∧ ((s.dev.radState r = radTUNE → s.dev.radLocked r = true ∨ s.dev.radTarget r ≤ radTUNE)) ∧ s.dev.vcoDue r = false ∧ s.dev.rxBarred r
      (nextRadState (s.dev.radState r) (s.dev.radTarget r)) = false) ∧
    (∃ (s : State) (r : RadioId), s.dev.radioUp r = true ∧ s.dev.radState r ≠ s.dev.radTarget r ∧ s.dev.radState r ≠ radTX ∧ s.dev.radState r ≠ radVCO
      ∧ ((s.dev.radState r = radTUNE → s.dev.radLocked r = true ∨ s.dev.radTarget r ≤ radTUNE)) ∧ s.dev.vcoDue r = false ∧ s.dev.rxBarred r
      (nextRadState (s.dev.radState r) (s.dev.radTarget r)) = false) ∧
    (∃ (s : State) (r : RadioId), s.dev.radioUp r = true ∧ s.dev.radState r = radVCO) ∧
    (∃ (s : State) (r : RadioId), s.dev.radioUp r = true ∧ s.dev.radState r = radVCO) ∧
    (∃ (s : State) (r : RadioId), s.dev.radioUp r = true ∧ s.dev.radLocked r = true ∧ ((s.dev.radState r = radRX ∨ s.dev.radState r = radTX))) ∧
    (∃ (s : State) (r : RadioId), s.dev.radioUp r = true ∧ s.dev.radLocked r = true ∧ ((s.dev.radState r = radRX ∨ s.dev.radState r = radTX))) ∧
    (∃ (s : State) (r : RadioId), s.dev.radioUp r = true ∧ s.dev.radLocked r = false ∧ s.dev.radState r = radTUNE ∧ s.dev.radTarget r = radRX ∧
      s.dev.rxBarred r radRX = false ∧ (s.dev.radio r).held = []) := by
  refine ⟨?_, ?_, ?_, ?_, ?_, ?_, ?_, ?_, ?_, ?_, ?_, ?_⟩
  · exact ⟨State.reset, 0, by decide +kernel⟩
  · exact ⟨State.reset, 2, by decide +kernel⟩
  · exact ⟨State.reset, 1, by decide +kernel⟩
  · exact ⟨State.reset, 2, by decide +kernel⟩
  · exact ⟨ofDev (((rad 2 1 3 0 rs).put (R.RAD_CTRL 2) F.RAD_CTRL_vco_cal_due 0).put (R.RAD_FC 2) F.RAD_FC_fc (fcLow 2)), 2, by decide +kernel⟩
  · exact ⟨ofDev ((rad 1 3 1 1 rs).put (R.RAD_CTRL 1) F.RAD_CTRL_vco_cal_due 0), 1, by decide +kernel⟩
  · exact ⟨ofDev ((rad 1 2 3 1 rs).put (R.RAD_CTRL 1) F.RAD_CTRL_vco_cal_due 0), 1, by decide +kernel⟩
  · exact ⟨ofDev (rad 0 radVCO 3 0 rs), 0, by decide +kernel⟩
  · exact ⟨ofDev (rad 0 radVCO 3 0 rs), 0, by decide +kernel⟩
  · exact ⟨ofDev ((rad 2 radTX radTX 1 rs).setRadio 2 { Radio.reset with air := [car] }), 2, by decide +kernel⟩
  · exact ⟨ofDev (rad 0 radRX radRX 1 rs), 0, by decide +kernel⟩
  · exact ⟨ofDev (rad 1 radTUNE radRX 0 rs), 1, by decide +kernel⟩

/-- The hypotheses of Obligations.TransmissionsStartAndEnd can be met, clause by clause. -/
theorem wit_TransmissionsStartAndEnd :
    (∃ (s : State) (r : RadioId) (t : Nat) (T : Nat), s.dev.radioUp r = true ∧ s.dev.nextTx r = some T ∧ s.dev.radState r ≠ radOFF ∧ s.dev.radTarget r
      ≠ radOFF ∧ s.dev.radInTx r = false ∧ (s.dev.radio r).returning = false ∧ T ≤ instantOf s t + s.dev.lead r (s.dev.radState r)) ∧
    (∃ (s : State) (r : RadioId) (t : Nat) (T : Nat), s.dev.radioUp r = true ∧ s.dev.nextTx r = some T ∧ s.dev.radState r ≠ radOFF ∧ s.dev.radTarget r
      ≠ radOFF ∧ s.dev.radInTx r = false ∧ (s.dev.radio r).returning = false ∧ T ≤ instantOf s t + s.dev.lead r (s.dev.radState r)) ∧
    (∃ (s : State) (r : RadioId) (t : Nat) (T : Nat), s.dev.radioUp r = true ∧ s.dev.nextTx r = some T ∧ s.dev.radState r ≠ radOFF ∧ s.dev.radTarget r
      ≠ radOFF ∧ s.dev.radInTx r = false ∧ (s.dev.radio r).returning = false ∧ T ≤ instantOf s t + s.dev.lead r (s.dev.radState r)) ∧
    (∃ (s : State) (r : RadioId) (t : Nat) (p : Nat) (h : HeldSet) (x : TxDesc), s.dev.radioUp r = true ∧ s.dev.canSend r = true ∧ (s.dev.radio
      r).held = [h] ∧ h.bursts = [x] ∧ h.time ≤ sampleInstant (instantOf s t) ∧ sampleInstant (instantOf s t) ≤ h.time + s.dev.txGuard r ∧
      sampleInstant (instantOf s t) + x.ns + 1000000 ≤ s.dev.burstEnd r h x ∧ s.dev.txPort r = some p ∧ (s.dev.radio r).subs + groupOf x.size ≤
      s.dev.txShare r ∧ (s.dev.at_ t).rpVerdict r (s.dev.carrierOf r h.handle p (sampleInstant (instantOf s t)) x) h.time = none) ∧
    (∃ (s : State) (r : RadioId) (t : Nat) (p : Nat) (h : HeldSet) (x : TxDesc), s.dev.radioUp r = true ∧ s.dev.canSend r = true ∧ (s.dev.radio
      r).held = [h] ∧ h.bursts = [x] ∧ h.time ≤ sampleInstant (instantOf s t) ∧ sampleInstant (instantOf s t) ≤ h.time + s.dev.txGuard r ∧
      sampleInstant (instantOf s t) + x.ns + 1000000 ≤ s.dev.burstEnd r h x ∧ s.dev.txPort r = some p ∧ (s.dev.radio r).subs + groupOf x.size ≤
      s.dev.txShare r ∧ (s.dev.at_ t).rpVerdict r (s.dev.carrierOf r h.handle p (sampleInstant (instantOf s t)) x) h.time = none) ∧
    (∃ (s : State) (r : RadioId) (t : Nat) (h : HeldSet), s.dev.radioUp r = true ∧ s.dev.canSend r = true ∧ (s.dev.radio r).held = [h] ∧ h.bursts ≠ []
      ∧ h.time ≤ sampleInstant (instantOf s t) ∧ sampleInstant (instantOf s t) ≤ h.time + s.dev.txGuard r ∧ (∀ x ∈ h.bursts, s.dev.burstEnd r h x <
      sampleInstant (instantOf s t) + x.ns + 1000000)) ∧
    (∃ (s : State) (r : RadioId) (t : Nat) (h : HeldSet), s.dev.radioUp r = true ∧ (s.dev.radio r).held = [h] ∧ h.time + s.dev.txGuard r ≤ instantOf s
      t ∧ h.bursts ≠ []) ∧
    (∃ (s : State) (r : RadioId) (k0 : Fin 1536) (t : Nat) (c : Carrier), s.dev.radioUp r = true ∧ (s.dev.radio r).air = [c] ∧ c.desc.k0 = k0.val ∧
      c.stop ≤ instantOf s t) ∧
    (∃ (s : State) (r : RadioId) (k0 : Fin 1536) (t : Nat) (c : Carrier), s.dev.radioUp r = true ∧ (s.dev.radio r).air.find? (fun o => o.desc.k0 ==
      k0.val && decide (o.stop ≤ instantOf s t)) = some c ∧ (s.dev.radio r).air.filter (fun o => o.desc.k0 != k0.val) ≠ []) ∧
    (∃ (s : State) (r : RadioId) (p : Fin 2), s.dev.radioUp r = true ∧ (s.dev.radio r).air.any (fun c => c.port == p.val) = true) := by
  refine ⟨?_, ?_, ?_, ?_, ?_, ?_, ?_, ?_, ?_, ?_⟩
  · exact ⟨ofDev (arm 1023 ⟨nt0 + 50000, 1, 2, 0⟩ (rad 2 radRX radRX 1 rs)), 2, nt0, nt0 + 50000, by decide +kernel⟩
  · exact ⟨ofDev (arm 1023 ⟨nt0, 1, 0, 0⟩ (rad 0 radREADY radREADY 1 rs)), 0, nt0, nt0, by decide +kernel⟩
  · exact ⟨ofDev (arm 1023 ⟨nt0, 1, 0, 0⟩ ((rad 0 radREADY radTUNE 1 rs).setRadio 0 { Radio.reset with commanded := true })), 0, nt0, nt0, by decide +kernel⟩
  · exact ⟨ofDev (onAir { Radio.reset with held := [⟨0, nt0, [tx0]⟩] } rs), 1, nt0, 0, ⟨0, nt0, [tx0]⟩, tx0, by decide +kernel⟩
  · exact ⟨ofDev (onAir { Radio.reset with held := [⟨0, nt0, [tx0]⟩] } rs), 1, nt0 + 100000, 0, ⟨0, nt0, [tx0]⟩, tx0, by decide +kernel⟩
  · exact ⟨ofDev (rad 1 radTX radTX 1 rs |>.setRadio 1 { Radio.reset with held := [⟨0, nt0 + 2300000, [tx0]⟩] }), 1, nt0 + 2340000, ⟨0, nt0 + 2300000, [tx0]⟩, by decide +kernel⟩
  · exact ⟨ofDev (rs.setRadio 0 { Radio.reset with held := [⟨0, nt0, [tx0, tx0]⟩] }), 0, nt0 + 5000000, ⟨0, nt0, [tx0, tx0]⟩, by decide +kernel⟩
  · exact ⟨ofDev ((rad 2 radTX radTX 1 rs).setRadio 2 { Radio.reset with air := [car] }), 2, 1535, nt0 + 1000, car, by decide +kernel⟩
  · exact ⟨ofDev ((rad 2 radTX radTX 1 rs).setRadio 2 { Radio.reset with air := [{ car with desc := tx0 }, car] }), 2, 1535, nt0 + 1000, car, by decide +kernel⟩
  · exact ⟨ofDev ((rad 2 radTX radTX 1 rs).setRadio 2 { Radio.reset with air := [{ car with port := 0 }, car] }), 2, 1, by decide +kernel⟩

/-- The hypotheses of Obligations.BoosterDutyAndRegionProfile can be met, clause by clause. -/
theorem wit_BoosterDutyAndRegionProfile :
    (∃ (s : State) (r : RadioId) (t : Nat) (T : Nat), s.dev.radioUp r = true ∧ s.dev.xampOn r = true ∧ (s.dev.radio r).release = none ∧ s.dev.radState
      r ≠ radOFF ∧ s.dev.radTarget r ≠ radOFF ∧ s.dev.xampT r = some T ∧ (s.dev.radio r).xamp.testBit 0 = false ∧ T ≤ instantOf s t + s.dev.tBs r +
      s.dev.tSe r + s.dev.tLead r) ∧
    (∃ (s : State) (r : RadioId) (t : Nat) (T : Nat), s.dev.radioUp r = true ∧ s.dev.xampOn r = true ∧ (s.dev.radio r).release = none ∧ s.dev.radState
      r ≠ radOFF ∧ s.dev.radTarget r ≠ radOFF ∧ s.dev.xampT r = some T ∧ (s.dev.radio r).xamp.testBit 0 = true ∧ (s.dev.radio r).xamp.testBit 1 =
      false ∧ T ≤ instantOf s t + s.dev.tSe r + s.dev.tLead r) ∧
    (∃ (s : State) (r : RadioId) (t : Nat) (T : Nat), s.dev.radioUp r = true ∧ s.dev.xampOn r = true ∧ (s.dev.radio r).release = none ∧ s.dev.radState
      r ≠ radOFF ∧ s.dev.radTarget r ≠ radOFF ∧ s.dev.xampT r = some T ∧ (s.dev.radio r).xamp.testBit 0 = true ∧ (s.dev.radio r).xamp.testBit 1 = true
      ∧ (s.dev.radio r).xamp.testBit 2 = false ∧ T ≤ instantOf s t + s.dev.tLead r) ∧
    (∃ (s : State) (r : RadioId) (t : Nat) (e : Nat) (early : Bool), s.dev.radioUp r = true ∧ s.dev.xampOn r = true ∧ (s.dev.radio r).release = some
      (e, early) ∧ (s.dev.radio r).xamp.testBit 2 = true ∧ e + (if early then 0 else s.dev.tLag r) ≤ instantOf s t) ∧
    (∃ (s : State) (r : RadioId) (t : Nat) (e : Nat) (early : Bool), s.dev.radioUp r = true ∧ s.dev.xampOn r = true ∧ (s.dev.radio r).release = some
      (e, early) ∧ (s.dev.radio r).xamp.testBit 2 = true ∧ e + (if early then 0 else s.dev.tLag r) ≤ instantOf s t) ∧
    (∃ (s : State) (r : RadioId) (t : Nat) (e : Nat) (early : Bool), s.dev.radioUp r = true ∧ s.dev.xampOn r = true ∧ (s.dev.radio r).release = some
      (e, early) ∧ (s.dev.radio r).xamp.testBit 2 = false ∧ (s.dev.radio r).xamp.testBit 1 = true ∧ e + (if early then 0 else s.dev.tLag r) +
      s.dev.tSe r ≤ instantOf s t) ∧
    (∃ (s : State) (r : RadioId) (t : Nat) (e : Nat) (early : Bool), s.dev.radioUp r = true ∧ s.dev.xampOn r = true ∧ (s.dev.radio r).release = some
      (e, early) ∧ (s.dev.radio r).xamp.testBit 2 = false ∧ (s.dev.radio r).xamp.testBit 1 = false ∧ e + (if early then 0 else s.dev.tLag r) +
      s.dev.tSe r + s.dev.tBs r ≤ instantOf s t) ∧
    (∃ (s : State) (r : RadioId), s.dev.radioUp r = true ∧ s.dev.xampOn r = true ∧ (s.dev.radio r).xamp.testBit 0 = true) ∧
    (∃ (s : State) (r : RadioId) (last : Nat) (t : Nat) (x : Nat), s.dev.hubUp = true ∧ (s.dev.radio r).fltAt = some x ∧ x + s.dev.get
      (R.RAD_XAMP_CTRL r) F.RAD_XAMP_CTRL_flt_hold * 1000000 ≤ xoOf s t ∧ last + s.dev.get (R.RAD_XAMP_CTRL r) F.RAD_XAMP_CTRL_flt_hold * 1000000 ≤
      instantOf s t) ∧
    (∃ (s : State) (r : RadioId) (t : Nat) (e : Fin 32), s.dev.radioUp r = true ∧ s.dev.get (R.RAD_DUTY_CTRL r) F.RAD_DUTY_CTRL_warn ≠ 0 ∧
      (s.dev.rpEntry r e).used = true ∧ (s.dev.radio r).warned.testBit e = false ∧ (s.dev.rpEntry r e).duty * 3600000 * min (s.dev.get
      (R.RAD_DUTY_CTRL r) F.RAD_DUTY_CTRL_warn) 100 < (s.dev.at_ t).dutyUs r e * 100) ∧
    (∃ (s : State) (r : RadioId), let w := s.dev.get (R.RAD_RP_PROG r) F.RAD_RP_PROG_word; let e := s.dev.get (R.RAD_RP_PROG r) F.RAD_RP_PROG_entry;
      let bits := s.dev.get (R.RAD_RP_BITS r) F.RAD_RP_BITS_bits; s.dev.dieUp (r.val + 1) = true ∧ (s.dev.radio r).blow = none ∧ bits &&& (if
      s.dev.rpSealed r then rpAfterSeal w else rpFields w) = bits ∧ ((s.dev.rpSealed r = true → w = 3 ∨ (s.dev.rpEntry r e).used = true))) ∧
    (∃ (s : State) (r : RadioId), let w := s.dev.get (R.RAD_RP_PROG r) F.RAD_RP_PROG_word; let e := s.dev.get (R.RAD_RP_PROG r) F.RAD_RP_PROG_entry;
      let bits := s.dev.get (R.RAD_RP_BITS r) F.RAD_RP_BITS_bits; s.dev.dieUp (r.val + 1) = true ∧ (s.dev.radio r).blow = none ∧ (bits &&& (if
      s.dev.rpSealed r then rpAfterSeal w else rpFields w) ≠ bits ∨ s.dev.rpSealed r = true ∧ w ≠ 3 ∧ (s.dev.rpEntry r e).used = false)) ∧
    (∃ (s : State) (r : RadioId) (a : Nat) (bits : Nat), s.dev.dieUp (r.val + 1) = true ∧ (s.dev.radio r).blow = some (a, bits) ∧ bits < 2 ^ 32) ∧
    (∃ (s : State) (r : RadioId) (a : Nat) (bits : Nat), s.dev.dieUp (r.val + 1) = true ∧ (s.dev.radio r).blow = some (a, bits) ∧ bits < 2 ^ 32) := by
  refine ⟨?_, ?_, ?_, ?_, ?_, ?_, ?_, ?_, ?_, ?_, ?_, ?_, ?_, ?_⟩
  · exact ⟨ofDev (arm 0 ⟨nt0 + 2000, 1, 1, 0⟩ (rad 1 radRX radRX 1 rs |>.put (R.RAD_XAMP_CTRL 1) F.RAD_XAMP_CTRL_enable 1)), 1, nt0, nt0 + 2000, by decide +kernel⟩
  · exact ⟨ofDev (arm 0 ⟨nt0, 1, 1, 0⟩ (rad 1 radRX radRX 1 rs |>.put (R.RAD_XAMP_CTRL 1) F.RAD_XAMP_CTRL_enable 1 |>.setRadio 1 { Radio.reset with xamp := 1 })), 1, nt0, nt0, by decide +kernel⟩
  · exact ⟨ofDev (arm 0 ⟨nt0, 1, 1, 0⟩ (rad 1 radRX radRX 1 rs |>.put (R.RAD_XAMP_CTRL 1) F.RAD_XAMP_CTRL_enable 1 |>.setRadio 1 { Radio.reset with xamp := 3 })), 1, nt0, nt0, by decide +kernel⟩
  · exact ⟨ofDev ((rs.put (R.RAD_XAMP_CTRL 1) F.RAD_XAMP_CTRL_enable 1).setRadio 1 { Radio.reset with release := some (nt0 - 1000, false), xamp := 7 }), 1, nt0 + 300000000, nt0 - 1000, false, by decide +kernel⟩
  · exact ⟨ofDev ((rs.put (R.RAD_XAMP_CTRL 1) F.RAD_XAMP_CTRL_enable 1).setRadio 1 { Radio.reset with release := some (nt0, true), xamp := 7 }), 1, nt0, nt0, true, by decide +kernel⟩
  · exact ⟨ofDev ((rs.put (R.RAD_XAMP_CTRL 1) F.RAD_XAMP_CTRL_enable 1).setRadio 1 { Radio.reset with release := some (nt0 - 1000, false), xamp := 3 }), 1, nt0 + 300000000, nt0 - 1000, false, by decide +kernel⟩
  · exact ⟨ofDev ((rs.put (R.RAD_XAMP_CTRL 1) F.RAD_XAMP_CTRL_enable 1).setRadio 1 { Radio.reset with release := some (nt0 - 1000, false), xamp := 1 }), 1, nt0 + 300000000, nt0 - 1000, false, by decide +kernel⟩
  · exact ⟨ofDev ((rs.put (R.RAD_XAMP_CTRL 1) F.RAD_XAMP_CTRL_enable 1).setRadio 1 { Radio.reset with xamp := 1, air := [car] }), 1, by decide +kernel⟩
  · exact ⟨ofDev (rs.setRadio 2 { Radio.reset with fltAt := some 0 }), 2, nt0, nt0 + 1000000000, 0, by decide +kernel⟩
  · exact ⟨ofDev ({ rs with fuses := [(R.RAD_RP_E 2 31 0, 0x80000000), (R.RAD_RP_E 2 31 1, 0xF9BFFFFF)] } |>.put (R.RAD_DUTY_CTRL 2) F.RAD_DUTY_CTRL_warn 100 |>.setRadio 2 { Radio.reset with duty := [(31, 0, 7200001)] }), 2, nt0 + 7200001000, 31, by decide +kernel⟩
  · exact ⟨ofDev ((rs.put (R.RAD_RP_PROG 0) F.RAD_RP_PROG_word 3).put (R.RAD_RP_BITS 0) F.RAD_RP_BITS_bits 0x803FFFFF), 0, by decide +kernel⟩
  · exact ⟨ofDev ({ rs with fuses := [(R.RAD_RP_HDR 1, 0x80000000)] } |>.put (R.RAD_RP_PROG 1) F.RAD_RP_PROG_entry 31 |>.put (R.RAD_RP_PROG 1) F.RAD_RP_PROG_word 0), 1, by decide +kernel⟩
  · exact ⟨ofDev (rs.setRadio 2 { Radio.reset with blow := some (R.RAD_RP_HDR 2, 0x80000001) }), 2, R.RAD_RP_HDR 2, 0x80000001, by decide +kernel⟩
  · exact ⟨ofDev ({ rs with fuses := [(R.RAD_RP_HDR 2, 0x00000002)] } |>.setRadio 2 { Radio.reset with blow := some (R.RAD_RP_HDR 2, 0x80000001) }), 2, R.RAD_RP_HDR 2, 0x80000001, by decide +kernel⟩

/-- The hypotheses of Obligations.KaleidoscopeMeasuresAndStores can be met, clause by clause. -/
theorem wit_KaleidoscopeMeasuresAndStores :
    (∃ (s : State) (r : RadioId), s.dev.radioUp r = true) ∧
    (∃ (s : State) (r : RadioId), s.dev.radioUp r = true) ∧
    (∃ (s : State) (r : RadioId) (c0 : Nat) (c1 : Nat), s.dev.radioUp r = true ∧ ((s.dev.get (R.KAL_OVL r) F.KAL_OVL_ovl_thr < c0 ∨ s.dev.get
      (R.KAL_OVL r) F.KAL_OVL_ovl_thr < c1))) ∧
    (∃ (s : State) (r : RadioId) (bins : List (Nat × Int)), s.dev.radioUp r = true ∧ s.dev.flag (R.KAL_MASK_CTRL r) F.KAL_MASK_CTRL_mask_en = true ∧
      s.dev.radState r = radTX ∧ bins.any (fun b => decide (b.1 < 2048) && s.dev.binOver r b.1 b.2) = true) ∧
    (∃ (s : State) (r : RadioId) (bins : List (Nat × Int)), s.dev.radioUp r = true ∧ s.dev.flag (R.KAL_MASK_CTRL r) F.KAL_MASK_CTRL_mask_en = true ∧
      s.dev.radState r = radTX ∧ bins.any (fun b => decide (b.1 < 2048) && s.dev.binOver r b.1 b.2) = true) ∧
    (∃ (s : State) (r : RadioId), s.dev.radioUp r = true) ∧
    (∃ (s : State) (r : RadioId) (a : Nat), s.dev.ringOn r = true ∧ (s.dev.slotRec r a).bond.length = 48 ∧ s.dev.dramOk (s.dev.frameAddr r a) (256 +
      ((s.dev.kal r).frameIq a (s.dev.slotRec r a).bond).length) = true) ∧
    (∃ (s : State) (r : RadioId) (a : Nat), s.dev.radioUp r = true ∧ ((∀ m, smFind (s.dev.kal r).maps (a % 4) = some m → m.1 ≠ a))) ∧
    (∃ (s : State) (r : RadioId) (k : Fin 1536) (gain : Nat) (t : Nat), s.dev.radioUp r = true ∧ s.dev.radState r = radRX ∧ s.dev.detMode r k ≠ 0 ∧
      (s.dev.at_ t).detDue r k = true ∧ s.dev.detThr r ≤ s.dev.detMetric r k gain ∧ k.val ∉ (s.dev.kal r).primed) ∧
    (∃ (s : State) (r : RadioId) (k : Fin 1536) (gain : Nat) (t : Nat), s.dev.radioUp r = true ∧ s.dev.radState r = radRX ∧ s.dev.detMode r k = 2 ∧
      (s.dev.at_ t).detDue r k = true ∧ s.dev.detThr r ≤ s.dev.detMetric r k gain ∧ k.val ∈ (s.dev.kal r).primed) ∧
    (∃ (s : State) (r : RadioId) (k : Fin 1536) (gain : Nat) (t : Nat) (c : Nat) (i : Nat), s.dev.radioUp r = true ∧ s.dev.radState r = radRX ∧
      s.dev.detMode r k = 1 ∧ (s.dev.at_ t).detDue r k = true ∧ s.dev.detThr r ≤ s.dev.detMetric r k gain ∧ k.val ∈ (s.dev.kal r).primed ∧ smGet (fun
      _ => 0) (s.dev.kal r).deaf k < instantOf s t ∧ smLowestFree (s.dev.kal r).caps (s.dev.capCount r) = some c ∧ smLowestFree s.dev.pup.tasks 8192 =
      some i) ∧
    (∃ (s : State) (r : RadioId) (k : Fin 1536) (gain : Nat) (t : Nat), s.dev.radioUp r = true ∧ s.dev.radState r = radRX ∧ s.dev.detMode r k ≠ 0 ∧
      (s.dev.at_ t).detDue r k = true ∧ s.dev.detMetric r k gain < s.dev.detThr r) ∧
    (∃ (s : State) (r : RadioId) (c : Fin 256) (x : Capture), s.dev.radioUp r = true ∧ smFind (s.dev.kal r).caps c = some x ∧ s.dev.dramOk
      (s.dev.capAddr r c) (x.header ++ x.bytes).length = true) ∧
    (∃ (s : State) (r : RadioId) (c : Fin 256) (x : Capture), s.dev.radioUp r = true ∧ smFind (s.dev.kal r).caps c = some x ∧ s.dev.dramOk
      (s.dev.capAddr r c) (x.header ++ x.bytes).length = true) := by
  refine ⟨?_, ?_, ?_, ?_, ?_, ?_, ?_, ?_, ?_, ?_, ?_, ?_, ?_, ?_⟩
  · exact ⟨State.reset, 0, by decide +kernel⟩
  · exact ⟨ofDev (rad 0 radRX radRX 1 rs), 0, by decide +kernel⟩
  · exact ⟨State.reset, 1, 0, 65536, by decide +kernel⟩
  · exact ⟨ofDev (((rad 2 radTX radTX 1 { rs with fuses := [(R.RAD_RP_E 2 31 0, 0x80000000)] }).setWord (R.KAL_MASK_BP 2 (64 * 31)) 0xBFC00000 |>.setWord (R.KAL_MASK_BP 2 (64 * 31 + 63)) 0xBFFFFFFF).put (R.KAL_MASK_CTRL 2) F.KAL_MASK_CTRL_mask_en 1 |>.setRadio 2 { Radio.reset with air := [car] }), 2, [(1023, 0)], by decide +kernel⟩
  · exact ⟨ofDev (((rad 2 radTX radTX 1 { rs with fuses := [(R.RAD_RP_E 2 31 0, 0x80000000)] }).setWord (R.KAL_MASK_BP 2 (64 * 31)) 0xBFC00000 |>.setWord (R.KAL_MASK_BP 2 (64 * 31 + 63)) 0xBFFFFFFF).put (R.KAL_MASK_CTRL 2) F.KAL_MASK_CTRL_mask_en 1 |>.put (R.KAL_MASK_STAT 2) F.KAL_MASK_STAT_atten 20 |>.setRadio 2 { Radio.reset with air := [car] }), 2, [(1023, 0)], by decide +kernel⟩
  · exact ⟨ofDev (desc 0 1023 rs), 0, by decide +kernel⟩
  · exact ⟨ofDev (rs.put (R.KAL_RING_BASE 2) F.KAL_RING_BASE_ring_en 1), 2, 49, by decide +kernel, by decide +kernel, by rw [frameIq_length _ _ _ (by decide +kernel)]; decide +kernel⟩
  · exact ⟨State.reset, 2, 47334241850, by decide +kernel⟩
  · exact ⟨ofDev ((rad 1 radRX radRX 1 rs).setWord (R.KAL_DET_MAP 1 95) 0x80000000 |> hot 1), 1, 1535, 4294967296, nt0, by decide +kernel⟩
  · exact ⟨ofDev (((rad 1 radRX radRX 1 rs).setWord (R.KAL_DET_MAP 1 95) 0x80000000)|> hot 1 |> primed 1), 1, 1535, 4294967296, nt0, by decide +kernel⟩
  · exact ⟨ofDev (((rad 1 radRX radRX 1 rs).setWord (R.KAL_DET_MAP 1 95) 0x40000000).put (R.KAL_CAP_CTRL 1) F.KAL_CAP_CTRL_count 1 |> hot 1 |> primed 1), 1, 1535, 4294967296, nt0, 0, 0, by decide +kernel⟩
  · exact ⟨ofDev (((rad 1 radRX radRX 1 rs).setWord (R.KAL_DET_MAP 1 95) 0x40000000).setKal 1 { Kal.reset with primed := [1535] }), 1, 1535, 0, nt0, by decide +kernel⟩
  · exact ⟨ofDev (rs.setKal 0 { Kal.reset with caps := [(255, ⟨0, 0, nt0, 2, none, []⟩)] }), 0, 255, ⟨0, 0, nt0, 2, none, []⟩, by decide +kernel⟩
  · exact ⟨ofDev ((rad 0 radRX radRX 1 rs).setKal 0 { Kal.reset with caps := [(255, ⟨0, 0, nt0 - 1000000, 29, none, []⟩)] }), 0, 255, ⟨0, 0, nt0 - 1000000, 29, none, []⟩, by decide +kernel⟩

/-- The hypotheses of Obligations.TasksAreCreatedAndEnd can be met, clause by clause. -/
theorem wit_TasksAreCreatedAndEnd :
    (∃ (s : State) (a : Nat), s.dev.hubUp = true ∧ s.dev.sched.served = some a ∧ s.dev.sched.overrun = false) ∧
    (∃ (s : State) (i : Fin 65536) (t : Nat) (j : Nat) (p : JoinResp) (x : Ctx), s.dev.hubUp = true ∧ s.dev.flag R.SCH_CTRL F.SCH_CTRL_en = true ∧
      s.dev.pwr.mode = .run ∧ s.dev.pwr.entry = none ∧ s.dev.sched.resps = [p] ∧ p.ctx = i.val ∧ p.start ≤ instantOf s t + s.dev.dlLead ∧ instantOf s
      t < p.start ∧ s.dev.txRunServed p.radio p.start 131 = true ∧ s.dev.ctx i = some x ∧ smLowestFree s.dev.pup.tasks 8192 = some j) ∧
    (∃ (s : State) (i : Fin 65536) (t : Nat) (j : Nat) (T : Nat) (g : Grant) (x : Ctx) (es : List CtlEntry), s.dev.hubUp = true ∧ s.dev.flag
      R.SCH_CTRL F.SCH_CTRL_en = true ∧ s.dev.pwr.mode = .run ∧ s.dev.pwr.entry = none ∧ s.dev.sched.resps = [] ∧ s.dev.ctx i = some x ∧
      s.dev.windowAt x (instantOf s t) = some (T, g) ∧ (i.val, T) ∉ s.dev.sched.windows ∧ s.dev.radioUp g.radio = true ∧ x.dq = [] ∧ x.dlCount <
      0xFFFFFFFF ∧ (s.dev.at_ t).dutyBlocks g = false ∧ s.dev.carriedOf x.ctl (superOf T) (entriesFit g.mode) = es ∧ es ≠ [] ∧ smLowestFree
      s.dev.pup.tasks 8192 = some j) ∧
    (∃ (s : State) (i : Fin 8192) (t : Nat) (x : Task), s.dev.hubUp = true ∧ s.dev.task i = some x ∧ x.state = 1 ∧ x.deadline ≤ instantOf s t ∧
      x.enough = false) ∧
    (∃ (s : State) (i : Fin 8192) (t : Nat) (x : Task), s.dev.hubUp = true ∧ s.dev.task i = some x ∧ x.state = 1 ∧ x.deadline ≤ instantOf s t ∧
      x.enough = true) ∧
    (∃ (s : State) (i : Fin 8192) (x : Task), s.dev.hubUp = true ∧ s.dev.task i = some x ∧ s.dev.releasable x = true) ∧
    (∃ (s : State) (i : Fin 8192) (x : Task), s.dev.hubUp = true ∧ s.dev.task i = some x ∧ s.dev.releasable x = true) ∧
    (∃ (s : State) (i : Fin 8192) (t : Nat) (h : Nat) (done : Nat) (k : Nat) (x : Task) (o : TxOwn), s.dev.hubUp = true ∧ s.dev.task i = some x ∧
      s.dev.releasable x = true ∧ x.out = .ready h done ∧ x.info.own = some o ∧ ((o.kind = 2 ∨ s.dev.txRunInDir x.info.radioA x.info.start
      ((x.info.stop - x.info.start) / slotNs) = true)) ∧ done + armLead ≤ x.info.start ∧ smLowestFree s.dev.acts 1024 = some k ∧ instantOf s t + 2000
      ≤ x.info.start) ∧
    (∃ (s : State) (i : Fin 8192) (h : Nat) (done : Nat) (x : Task) (o : TxOwn), s.dev.hubUp = true ∧ s.dev.task i = some x ∧ s.dev.releasable x =
      true ∧ x.out = .ready h done ∧ x.info.own = some o ∧ ((o.kind = 2 ∨ s.dev.txRunInDir x.info.radioA x.info.start ((x.info.stop - x.info.start) /
      slotNs) = true)) ∧ x.info.start < done + armLead) ∧
    (∃ (s : State) (i : Fin 8192) (x : Task) (c : Ctx) (rec : Bytes) (payload : Bytes) (fw : Option FwCounts), s.dev.hubUp = true ∧ s.dev.task i =
      some x ∧ s.dev.releasable x = true ∧ x.kind < 2 ∧ x.out = .record rec payload fw ∧ recPilotReq rec = 0 ∧ s.dev.ctx x.flow = some c ∧ c.address =
      x.info.node) ∧
    (∃ (s : State) (i : Fin 8192) (x : Task) (c : Ctx) (rec : Bytes) (payload : Bytes) (fw : Option FwCounts), s.dev.hubUp = true ∧ s.dev.task i =
      some x ∧ s.dev.releasable x = true ∧ x.kind < 2 ∧ x.out = .record rec payload fw ∧ recPilotReq rec = 0 ∧ s.dev.ctx x.flow = some c ∧ c.address =
      x.info.node) ∧
    (∃ (s : State) (i : Fin 8192) (x : Task), s.dev.hubUp = true ∧ s.dev.task i = some x) := by
  refine ⟨?_, ?_, ?_, ?_, ?_, ?_, ?_, ?_, ?_, ?_, ?_, ?_⟩
  · exact ⟨ofDev { rs with sched := { rs.sched with served := some 7 } }, 7, by decide +kernel⟩
  · exact ⟨ofDev ({ run with sched := { run.sched with resps := [⟨65535, 0, 0, nt0 + 3000000, [1, 2, 3], 0⟩], ctxs := [(65535, ctx0)] } } |>.put R.SCH_CTRL F.SCH_CTRL_en 1 |> txSlots 0), 65535, nt0, 0, ⟨65535, 0, 0, nt0 + 3000000, [1, 2, 3], 0⟩, ctx0, by decide +kernel⟩
  · exact ⟨ofDev ({ run with sched := { run.sched with ctxs := [(65535, ctxD)] } } |>.put R.SCH_CTRL F.SCH_CTRL_en 1 |> txSlots 0), 65535, nt0, 0, ((ofDev ({ run with sched := { run.sched with ctxs := [(65535, ctxD)] } } |>.put R.SCH_CTRL F.SCH_CTRL_en 1 |> txSlots 0) : State).dev.windowAt (ctxD : Ctx) (instantOf (ofDev ({ run with sched := { run.sched with ctxs := [(65535, ctxD)] } } |>.put R.SCH_CTRL F.SCH_CTRL_en 1 |> txSlots 0) : State) (nt0 : Nat))).elim 0 (·.1), ((ofDev ({ run with sched := { run.sched with ctxs := [(65535, ctxD)] } } |>.put R.SCH_CTRL F.SCH_CTRL_en 1 |> txSlots 0) : State).dev.windowAt (ctxD : Ctx) (instantOf (ofDev ({ run with sched := { run.sched with ctxs := [(65535, ctxD)] } } |>.put R.SCH_CTRL F.SCH_CTRL_en 1 |> txSlots 0) : State) (nt0 : Nat))).elim Grant.none (·.2), ctxD, (ofDev ({ run with sched := { run.sched with ctxs := [(65535, ctxD)] } } |>.put R.SCH_CTRL F.SCH_CTRL_en 1 |> txSlots 0) : State).dev.carriedOf (ctxD : Ctx).ctl (superOf (((ofDev ({ run with sched := { run.sched with ctxs := [(65535, ctxD)] } } |>.put R.SCH_CTRL F.SCH_CTRL_en 1 |> txSlots 0) : State).dev.windowAt (ctxD : Ctx) (instantOf (ofDev ({ run with sched := { run.sched with ctxs := [(65535, ctxD)] } } |>.put R.SCH_CTRL F.SCH_CTRL_en 1 |> txSlots 0) : State) (nt0 : Nat))).elim 0 (·.1) : Nat)) (entriesFit (((ofDev ({ run with sched := { run.sched with ctxs := [(65535, ctxD)] } } |>.put R.SCH_CTRL F.SCH_CTRL_en 1 |> txSlots 0) : State).dev.windowAt (ctxD : Ctx) (instantOf (ofDev ({ run with sched := { run.sched with ctxs := [(65535, ctxD)] } } |>.put R.SCH_CTRL F.SCH_CTRL_en 1 |> txSlots 0) : State) (nt0 : Nat))).elim Grant.none (·.2) : Grant).mode), by decide +kernel⟩
  · exact ⟨ofDev (rs.setTask 8191 tsk), 8191, nt0, tsk, by decide +kernel⟩
  · exact ⟨ofDev (rs.setTask 8191 { tsk with kind := 1, ops := [1, 2, 0, 0] }), 8191, nt0, { tsk with kind := 1, ops := [1, 2, 0, 0] }, by decide +kernel⟩
  · exact ⟨ofDev (rs.setTask 8191 { tsk with state := 4, out := .record (List.replicate 64 0) [] none }), 8191, { tsk with state := 4, out := .record (List.replicate 64 0) [] none }, by decide +kernel⟩
  · exact ⟨ofDev (rs.setTask 8191 { tsk with state := 4 }), 8191, { tsk with state := 4 }, by decide +kernel⟩
  · exact ⟨ofDev (txSlots 0 (rs.setTask 8191 taskT)), 8191, nt0, 7, nt0, 0, taskT, ownT, by decide +kernel⟩
  · exact ⟨ofDev (txSlots 0 (rs.setTask 8191 { taskT with out := .ready 7 (nt0 + 4000000000) })), 8191, 7, nt0 + 4000000000, { taskT with out := .ready 7 (nt0 + 4000000000) }, ownT, by decide +kernel⟩
  · exact ⟨ofDev ({ rs with sched := { rs.sched with ctxs := [(0, ctx0)] } }.setTask 8191 taskR), 8191, taskR, ctx0, recT 0, [], none, by decide +kernel⟩
  · exact ⟨ofDev ({ rs with sched := { rs.sched with ctxs := [(0, ctx0)] } }.setTask 8191 { taskR with out := .record (recT 4) [] none }), 8191, { taskR with out := .record (recT 4) [] none }, ctx0, recT 4, [], none, by decide +kernel⟩
  · exact ⟨ofDev (rs.setTask 8191 tsk), 8191, tsk, by decide +kernel⟩

/-- The hypotheses of Obligations.CoresFaultAndRetire can be met, clause by clause. -/
theorem wit_CoresFaultAndRetire :
    (∃ (s : State) (c : CoreId), s.dev.coreRuns c = true ∧ (s.dev.pcore c).done = none) ∧
    (∃ (s : State) (c : CoreId), s.dev.hubUp = true ∧ (s.dev.pcore c).fault ≠ 0) ∧
    (∃ (s : State) (c : CoreId) (i : Nat) (x : Task), s.dev.hubUp = true ∧ (s.dev.pcore c).fault ≠ 0 ∧ (s.dev.pcore c).run = some i ∧ (s.dev.pcore
      c).queued = none ∧ s.dev.task i = some x ∧ s.dev.pup.redo = [] ∧ x.attempt = 0) ∧
    (∃ (s : State) (c : CoreId) (i : Nat) (x : Task), s.dev.hubUp = true ∧ (s.dev.pcore c).fault ≠ 0 ∧ (s.dev.pcore c).run = some i ∧ (s.dev.pcore
      c).queued = none ∧ s.dev.task i = some x ∧ s.dev.pup.redo = [] ∧ x.attempt ≠ 0) ∧
    (∃ (s : State) (c : CoreId) (j : Nat) (x : Task) (desc : Bytes), s.dev.hubUp = true ∧ (s.dev.pcore c).fault ≠ 0 ∧ (s.dev.pcore c).run = none ∧
      (s.dev.pcore c).queued = some (j, desc) ∧ s.dev.task j = some x ∧ x.attempt = 0) ∧
    (∃ (s : State) (c : CoreId), s.dev.hubUp = true ∧ (s.dev.pcore c).st = 2 ∧ (s.dev.pcore c).returning = true) ∧
    (∃ (s : State) (c : CoreId), s.dev.hubUp = true ∧ (s.dev.pcore c).st = 2 ∧ (s.dev.pcore c).returning = true) ∧
    (∃ (s : State) (c : CoreId), s.dev.hubUp = true ∧ (s.dev.pcore c).st = 2 ∧ (s.dev.pcore c).returning = false ∧ (s.dev.pcore c).retiring = false ∧
      ((s.dev.pcore c).faults.filter (fun x => decide (s.dev.xo < x + 1000000000))).length < 3) ∧
    (∃ (s : State) (c : CoreId), s.dev.hubUp = true ∧ (s.dev.pcore c).st = 2 ∧ (s.dev.pcore c).returning = false ∧ 3 ≤ ((s.dev.pcore c).faults.filter
      (fun x => decide (s.dev.xo < x + 1000000000))).length) ∧
    (∃ (s : State) (c : CoreId), s.dev.hubUp = true ∧ (s.dev.pcore c).st = 2 ∧ (s.dev.pcore c).returning = false) ∧
    (∃ (s : State) (c : CoreId), s.dev.hubUp = true ∧ s.dev.coreActive c = false) ∧
    (∃ (s : State) (c : CoreId), s.dev.hubUp = true ∧ s.dev.coreActive c = true ∧ ((List.range 64).filter s.dev.coreActive).length ≠ 1 ∧ (s.dev.pcore
      c).run = none) ∧
    (∃ (s : State) (c : CoreId) (i : Nat), s.dev.hubUp = true ∧ s.dev.coreActive c = true ∧ ((List.range 64).filter s.dev.coreActive).length ≠ 1 ∧
      (s.dev.pcore c).run = some i) ∧
    (∃ (s : State) (c : CoreId), s.dev.hubUp = true ∧ s.dev.coreActive c = true ∧ ((List.range 64).filter s.dev.coreActive).length = 1) ∧
    (∃ (s : State) (c : CoreId), s.dev.hubUp = true ∧ (s.dev.pcore c).st = 3 ∧ s.dev.coreDieUp c = true) := by
  refine ⟨?_, ?_, ?_, ?_, ?_, ?_, ?_, ?_, ?_, ?_, ?_, ?_, ?_, ?_, ?_⟩
  · exact ⟨ofDev (rs.setMcore 63 { Core.reset with running := true }), 63, by decide +kernel⟩
  · exact ⟨ofDev (rs.setPcore 63 { PCore.reset with fault := 3 }), 63, by decide +kernel⟩
  · exact ⟨ofDev (rs.setPcore 63 { PCore.reset with fault := 3, run := some 8191 } |>.setTask 8191 { tsk with state := 3, core := 63 }), 63, 8191, { tsk with state := 3, core := 63 }, by decide +kernel⟩
  · exact ⟨ofDev (rs.setPcore 63 { PCore.reset with fault := 3, run := some 8191 } |>.setTask 8191 { tsk with state := 3, core := 63, attempt := 1 }), 63, 8191, { tsk with state := 3, core := 63, attempt := 1 }, by decide +kernel⟩
  · exact ⟨ofDev (rs.setPcore 63 { PCore.reset with fault := 3, queued := some (8191, []) } |>.setTask 8191 { tsk with state := 3, core := 63 }), 63, 8191, { tsk with state := 3, core := 63 }, [], by decide +kernel⟩
  · exact ⟨ofDev (rs.setPcore 32 { PCore.reset with st := 2, returning := true }), 32, by decide +kernel⟩
  · exact ⟨ofDev (rs.setPcore 32 { PCore.reset with st := 2, returning := true }), 32, by decide +kernel⟩
  · exact ⟨ofDev (rs.setPcore 32 { PCore.reset with st := 2, faults := [0, 0] }), 32, by decide +kernel⟩
  · exact ⟨ofDev (rs.setPcore 32 { PCore.reset with st := 2, faults := [0, 0, 0] }), 32, by decide +kernel⟩
  · exact ⟨ofDev (rs.setPcore 0 { PCore.reset with st := 2 }), 0, by decide +kernel⟩
  · exact ⟨ofDev (rs.setPcore 0 { PCore.reset with st := 3 }), 0, by decide +kernel⟩
  · exact ⟨State.reset, 0, by decide +kernel⟩
  · exact ⟨ofDev (rs.setPcore 0 { PCore.reset with run := some 0 } |>.setTask 0 { tsk with state := 3 }), 0, 0, by decide +kernel⟩
  · exact ⟨ofDev (oneCore rs), 0, by decide +kernel⟩
  · exact ⟨ofDev (rs.setPcore 31 { PCore.reset with st := 3 }), 31, by decide +kernel⟩

/-- The hypotheses of Obligations.MarionetteComputes can be met, clause by clause. -/
theorem wit_MarionetteComputes :
    (∃ (s : State) (c : CoreId), Ready s.dev c true 0x09) ∧
    (∃ (s : State) (c : CoreId), Ready s.dev c true 0x0A) ∧
    (∃ (s : State) (c : CoreId), Ready s.dev c true 0x0A) ∧
    (∃ (s : State) (c : CoreId), Ready s.dev c true 0x0A) ∧
    (∃ (s : State) (c : CoreId), Ready s.dev c true 0x0A) ∧
    (∃ (s : State) (c : CoreId), Ready s.dev c true 0x0B) ∧
    (∀ op ∈ [0x01, 0x02, 0x03, 0x04, 0x05, 0x06, 0x07, 0x08], Ready (core 63 (mc 8191 0 (op * 2 ^ 26) 0)).dev 63 true op) := by
  refine ⟨?_, ?_, ?_, ?_, ?_, ?_, ?_⟩
  · exact ⟨core 63 (mc 8191 0 0x24000000 0), 63, by decide +kernel⟩
  · exact ⟨core 63 (mc 8191 0 0x28308000 0), 63, by decide +kernel⟩
  · exact ⟨core 0 (mc 0 0 0x28008000 0), 0, by decide +kernel⟩
  · exact ⟨core 0 (mc 0 0 0x28108000 0), 0, by decide +kernel⟩
  · exact ⟨core 0 (mc 0 0 0x28208000 0), 0, by decide +kernel⟩
  · exact ⟨core 63 (mc 8191 0 0x2E0FFFFF 0), 63, by decide +kernel⟩
  · exact by decide +kernel

/-- The hypotheses of Obligations.MarionetteMultiplies can be met, clause by clause. -/
theorem wit_MarionetteMultiplies :
    (∃ (s : State) (c : CoreId), Ready s.dev c true 0x13) ∧
    (∃ (s : State) (c : CoreId), Ready s.dev c true 0x16) ∧
    (∃ (s : State) (c : CoreId), Ready s.dev c true 0x17 ∧ (s.dev.mcore c).slot = 0) ∧
    (∀ op ∈ [0x10, 0x11, 0x12, 0x14, 0x15], Ready (core 63 (mc 8191 0 (op * 2 ^ 26) 0)).dev 63 true op) := by
  refine ⟨?_, ?_, ?_, ?_⟩
  · exact ⟨core 0 (mc 0 0 0x4C000000 0), 0, by decide +kernel⟩
  · exact ⟨core 0 (mc 0 0 0x58000000 0), 0, by decide +kernel⟩
  · exact ⟨core 0 (mc 0 0 0x5C000400 0), 0, by decide +kernel⟩
  · exact by decide +kernel

/-- The hypotheses of Obligations.MarionetteMoves can be met, clause by clause. -/
theorem wit_MarionetteMoves :
    (∃ (s : State) (c : CoreId), let k := s.dev.mcore c; let w := k.slotWord; Ready s.dev c false 0x1 ∧ inLocal (k.ptr (xP w)) = true) ∧
    (∃ (s : State) (c : CoreId), let k := s.dev.mcore c; let w := k.slotWord; Ready s.dev c false 0x1 ∧ inLocal (k.ptr (xP w)) = true) ∧
    (∃ (s : State) (c : CoreId), let k := s.dev.mcore c; Ready s.dev c false 0x1 ∧ inShared (k.ptr (xP k.slotWord)) = true) ∧
    (∃ (s : State) (c : CoreId), let k := s.dev.mcore c; let w := k.slotWord; Ready s.dev c false 0x2 ∧ inLocal (k.ptr (xP w)) = true) ∧
    (∃ (s : State) (c : CoreId), let k := s.dev.mcore c; let w := k.slotWord; Ready s.dev c false 0x5 ∧ inLocal (k.ptr (xP w)) = true ∧ xStill w =
      true) ∧
    (∃ (s : State) (c : CoreId), let k := s.dev.mcore c; let w := k.slotWord; Ready s.dev c false 0x3 ∧ inLocal (k.ptr (xP w)) = true ∧ k.ptr (xP w) %
      4 = 0 ∧ k.slot = 2 ∧ k.stores = []) ∧
    (∃ (s : State) (c : CoreId), let k := s.dev.mcore c; let w := k.slotWord; Ready s.dev c false 0x3 ∧ inLocal (k.ptr (xP w)) = true ∧ k.slot = 1) ∧
    (∃ (s : State) (c : CoreId), let k := s.dev.mcore c; let w := k.slotWord; Ready s.dev c false 0x4 ∧ inLocal (k.ptr (xP w)) = true ∧ k.slot = 1) ∧
    (∃ (s : State) (c : CoreId), let k := s.dev.mcore c; let w := k.slotWord; Ready s.dev c false 0x6 ∧ inLocal (k.ptr (xP w)) = true ∧ k.slot = 1) ∧
    (∃ (s : State) (c : CoreId), let k := s.dev.mcore c; let w := k.slotWord; Ready s.dev c false 0x6 ∧ inLocal (k.ptr (xP w)) = true ∧ k.slot = 1) ∧
    (∃ (s : State) (c : CoreId), Ready s.dev c false 0x7) ∧
    (∃ (s : State) (c : CoreId), Ready s.dev c false 0x7) ∧
    (∃ (s : State) (c : CoreId), Ready s.dev c false 0x7) ∧
    (∃ (s : State) (c : CoreId), Ready s.dev c false 0x8) ∧
    (∃ (s : State) (c : CoreId), Ready s.dev c false 0x8) ∧
    (∃ (s : State) (c : CoreId), Ready s.dev c false 0x8) ∧
    (∃ (s : State) (c : CoreId), Ready s.dev c false 0x9) ∧
    (∃ (s : State) (c : CoreId), let k := s.dev.mcore c; let w := k.slotWord; Ready s.dev c false 0xA ∧ xStill w = false) ∧
    (∃ (s : State) (c : CoreId), Ready s.dev c false 0xB) := by
  refine ⟨?_, ?_, ?_, ?_, ?_, ?_, ?_, ?_, ?_, ?_, ?_, ?_, ?_, ?_, ?_, ?_, ?_, ?_, ?_⟩
  · exact ⟨core 0 (mc 0 1 0 0x10000000), 0, by decide +kernel⟩
  · exact ⟨core 63 (mc 0 1 0 0x10000000), 63, by decide +kernel⟩
  · exact ⟨core 0 { mc 0 1 0 0x10000000 with regs := [(16, 0x80000)] }, 0, by decide +kernel⟩
  · exact ⟨core 0 (mc 0 1 0 0x20100000), 0, by decide +kernel⟩
  · exact ⟨core 0 { mc 0 1 0 0x50080000 with regs := [(16, 0x207FC)] }, 0, by decide +kernel⟩
  · exact ⟨core 0 { mc 0 2 0 0x3000 with regs := [(0, 0xDEADBEEF), (16, 0x1FFFC)] }, 0, by decide +kernel⟩
  · exact ⟨core 0 (mc 0 1 0 0x30000000), 0, by decide +kernel⟩
  · exact ⟨core 0 (mc 0 1 0 0x40000000), 0, by decide +kernel⟩
  · exact ⟨core 0 (mc 0 1 0 0x60000000), 0, by decide +kernel⟩
  · exact ⟨core 0 { mc 0 1 0 0x68000000 with regs := [(24, 0xFFFFF)] }, 0, by decide +kernel⟩
  · exact ⟨core 0 (mc 0 1 0 0x73C00000), 0, by decide +kernel⟩
  · exact ⟨core 0 { mc 0 1 0 0x77C00000 with regs := [(0, 0xFFFFFFFF)] }, 0, by decide +kernel⟩
  · exact ⟨core 0 { mc 0 1 0 0x78400000 with regs := [(0, 0xFFFFFFFF)] }, 0, by decide +kernel⟩
  · exact ⟨core 0 (mc 0 1 0 0x80000000), 0, by decide +kernel⟩
  · exact ⟨core 0 (mc 0 1 0 0x80100000), 0, by decide +kernel⟩
  · exact ⟨core 0 (mc 0 1 0 0x80200000), 0, by decide +kernel⟩
  · exact ⟨core 0 (mc 0 2 0 0x9000), 0, by decide +kernel⟩
  · exact ⟨core 0 (mc 0 1 0 0xA0090000), 0, by decide +kernel⟩
  · exact ⟨core 0 (mc 0 1 0 0xB0800000), 0, by decide +kernel⟩

/-- The hypotheses of Obligations.MarionetteFlows can be met, clause by clause. -/
theorem wit_MarionetteFlows :
    (∃ (s : State) (c : CoreId), Ready s.dev c (decide ((s.dev.mcore c).slot = 0)) 0 ∧ (s.dev.mcore c).slot < 2) ∧
    (∃ (s : State) (c : CoreId), Ready s.dev c (decide ((s.dev.mcore c).slot = 0)) 0 ∧ (s.dev.mcore c).slot < 2) ∧
    (∃ (s : State) (c : CoreId), let k := s.dev.mcore c; Ready s.dev c false 0 ∧ k.slot = 2 ∧ k.loops = [] ∧ k.branch = none ∧ k.stores = [] ∧ k.pc +
      1 < 8192) ∧
    (∃ (s : State) (c : CoreId) (target : Nat), let k := s.dev.mcore c; Ready s.dev c false 0 ∧ k.slot = 2 ∧ k.loops = [] ∧ k.branch = some (1,
      target, false) ∧ target < 8192) ∧
    (∃ (s : State) (c : CoreId) (target : Nat), let k := s.dev.mcore c; Ready s.dev c false 0 ∧ k.slot = 2 ∧ k.loops = [] ∧ k.stores = [] ∧ k.branch =
      some (1, target, true)) ∧
    (∃ (s : State) (c : CoreId), Ready s.dev c true 0x20) ∧
    (∃ (s : State) (c : CoreId), Ready s.dev c true 0x21) ∧
    (∃ (s : State) (c : CoreId), Ready s.dev c true 0x22) ∧
    (∃ (s : State) (c : CoreId), Ready s.dev c true 0x23) ∧
    (∃ (s : State) (c : CoreId), Ready s.dev c true 0x24) ∧
    (∃ (s : State) (c : CoreId), Ready s.dev c true 0x24) ∧
    (∃ (s : State) (c : CoreId), let k := (s.dev.mcore c).landed; s.dev.slotReady c = true ∧ (s.dev.mcore c).holds true 0x25 = true ∧ k.traps
      (s.dev.coreKind c) = [8]) := by
  refine ⟨?_, ?_, ?_, ?_, ?_, ?_, ?_, ?_, ?_, ?_, ?_, ?_⟩
  · exact ⟨core 0 (mc 0 0 0 0), 0, by decide +kernel⟩
  · exact ⟨core 0 (mc 0 1 0 0), 0, by decide +kernel⟩
  · exact ⟨core 63 (mc 8190 2 0 0), 63, by decide +kernel⟩
  · exact ⟨core 63 { mc 8191 2 0 0 with branch := some (1, 8191, false) }, 63, 8191, by decide +kernel⟩
  · exact ⟨core 63 { mc 8191 2 0 0 with branch := some (1, 8191, true), shadow := true, regs := [(35, 77)] }, 63, 8191, by decide +kernel⟩
  · exact ⟨core 63 (mc 0 0 0x80001FFF 0), 63, by decide +kernel⟩
  · exact ⟨core 63 (mc 0 0 0x84001FFF 0), 63, by decide +kernel⟩
  · exact ⟨core 63 (mc 0 0 0x88000000 0), 63, by decide +kernel⟩
  · exact ⟨core 63 { mc 0 0 0x8C000000 0 with shadow := true }, 63, by decide +kernel⟩
  · exact ⟨core 63 (mc 0 0 0x90000000 0), 63, by decide +kernel⟩
  · exact ⟨core 63 (mc 0 0 0x9000FFFF 0), 63, by decide +kernel⟩
  · exact ⟨core 63 (mc 5 0 0x94000000 0), 63, by decide +kernel⟩

/-- The hypotheses of Obligations.MarionetteInterruptsAndEnds can be met, clause by clause. -/
theorem wit_MarionetteInterruptsAndEnds :
    (∃ (s : State) (c : CoreId) (n : Nat), s.dev.coreRuns c = true ∧ (s.dev.pcore c).done = none ∧ s.dev.interruptDue c = some n) ∧
    (∃ (s : State) (c : CoreId), s.dev.coreDieUp c = true ∧ s.dev.get (R.CORE_TIMER c) F.CORE_TIMER_count ≠ 0) ∧
    (∃ (s : State) (c : CoreId), s.dev.coreRuns c = true) ∧
    (∃ (s : State) (c : CoreId), s.dev.coreRuns c = true ∧ (s.dev.mcore c).tru.length < 8 ∧ (s.dev.mcore c).truWait = none) ∧
    (∃ (s : State) (c : CoreId), s.dev.coreRuns c = true ∧ (s.dev.mcore c).tru.length = 8 ∧ (s.dev.mcore c).truWait = none) ∧
    (∃ (s : State) (c : CoreId) (x : Transfer) (rest : List Transfer), s.dev.coreDieUp c = true ∧ (s.dev.mcore c).tru = x :: rest) ∧
    (∃ (s : State) (c : CoreId) (x : Transfer) (rest : List Transfer), s.dev.coreDieUp c = true ∧ (s.dev.mcore c).tru = x :: rest) ∧
    (∃ (s : State) (c : CoreId) (x : Transfer) (rest : List Transfer), s.dev.coreDieUp c = true ∧ (s.dev.mcore c).tru = x :: rest) ∧
    (∃ (s : State) (c : CoreId), s.dev.coreRuns c = true) ∧
    (∃ (s : State) (c : CoreId) (w : Word), s.dev.coreRuns c = true ∧ w.getLsbD 7 = true) ∧
    (∃ (s : State) (c : CoreId) (v : Word), s.dev.coreRuns c = true ∧ (s.dev.pcore c).done = none ∧ 3 ≤ s.dev.coreKind c ∧ v.toNat / 2 ^ 28 = 2) ∧
    (∃ (s : State) (c : CoreId) (v : Word), s.dev.coreRuns c = true ∧ (s.dev.pcore c).done = none ∧ ((v.toNat / 2 ^ 28 = 0 ∨ 3 < v.toNat / 2 ^ 28))) ∧
    (∃ (s : State) (c : CoreId) (v : Word), s.dev.coreRuns c = true ∧ (s.dev.pcore c).done = none ∧ ((v.toNat / 2 ^ 28 = 0 ∨ 3 < v.toNat / 2 ^ 28))) ∧
    (∃ (s : State) (c : CoreId) (i : Nat) (out : TaskOut) (x : Task), s.dev.hubUp = true ∧ (s.dev.pcore c).done = some out ∧ (s.dev.pcore c).run =
      some i ∧ s.dev.task i = some x ∧ (s.dev.mcore c).tru = [] ∧ s.dev.jobsOf c = 0 ∧ (s.dev.mcore c).slot = 0) ∧
    (∃ (s : State) (c : CoreId) (i : Nat) (out : TaskOut) (x : Task), s.dev.hubUp = true ∧ (s.dev.pcore c).done = some out ∧ (s.dev.pcore c).run =
      some i ∧ s.dev.task i = some x ∧ (s.dev.mcore c).tru = [] ∧ s.dev.jobsOf c = 0 ∧ (s.dev.mcore c).slot = 0) := by
  refine ⟨?_, ?_, ?_, ?_, ?_, ?_, ?_, ?_, ?_, ?_, ?_, ?_, ?_, ?_, ?_⟩
  · exact ⟨ofDev ((rs.setMcore 63 { mc 9 0 0 0 with regs := [(34, 0x8000)] }).put (R.CORE_IRQ_PEND 63) F.CORE_IRQ_PEND_pend 0xC0 |>.put (R.CORE_IRQ_EN 63) F.CORE_IRQ_EN_en 0x80 |>.put (R.CORE_IRQ_VEC 63 7) F.CORE_IRQ_VEC_vec 8191), 63, 7, by decide +kernel⟩
  · exact ⟨ofDev (rs.put (R.CORE_TIMER 63) F.CORE_TIMER_count 1), 63, by decide +kernel⟩
  · exact ⟨core 63 (mc 0 0 0 0), 63, by decide +kernel⟩
  · exact ⟨core 63 { mc 0 0 0 0 with tru := List.replicate 7 ⟨4, 0, 0⟩ }, 63, by decide +kernel⟩
  · exact ⟨core 63 { mc 0 0 0 0 with tru := List.replicate 8 ⟨4, 0, 0⟩ }, 63, by decide +kernel⟩
  · exact ⟨core 63 { mc 0 0 0 0 with tru := [⟨0x80000004, 0, 0⟩], dmem := [(0, 7), (3, 9)] }, 63, ⟨0x80000004, 0, 0⟩, [], by decide +kernel⟩
  · exact ⟨core 63 { mc 0 0 0 0 with tru := [⟨0x80000003, 0, 0⟩], dmem := [(0, 7), (3, 9)] }, 63, ⟨0x80000003, 0, 0⟩, [], by decide +kernel⟩
  · exact ⟨ofDev { (rs.setMcore 63 { mc 0 0 0 0 with tru := [⟨4, 64, 8⟩], truWait := some ⟨4, 0, 0⟩ }) with dram := [(64, 7), (66, 9)] }, 63, ⟨4, 64, 8⟩, [], by decide +kernel⟩
  · exact ⟨core 40 (mc 0 0 0 0), 40, by decide +kernel⟩
  · exact ⟨core 63 (mc 0 0 0 0), 63, 0x80, by decide +kernel⟩
  · exact ⟨ofDev ((rs.setMcore 63 (mc 0 0 0 0)).setPcore 63 { PCore.reset with run := some 0 } |>.setTask 0 { tsk with kind := 3 }), 63, 0x200003FF, by decide +kernel⟩
  · exact ⟨core 63 (mc 0 0 0 0), 63, 0, by decide +kernel⟩
  · exact ⟨core 63 (mc 0 0 0 0), 63, 0x40000000, by decide +kernel⟩
  · exact ⟨ofDev ((rs.setMcore 63 { mc 0 0 0 0 with running := false }).setPcore 63 { PCore.reset with run := some 8191, done := some (.record [] [] none) } |>.setTask 8191 { tsk with state := 3 }), 63, 8191, .record [] [] none, { tsk with state := 3 }, by decide +kernel⟩
  · exact ⟨ofDev ((rs.setMcore 63 { mc 0 0 0 0 with running := false }).setPcore 63 { PCore.reset with run := some 8191, done := some (.ready 7 nt0) } |>.setTask 8191 { tsk with state := 3, kind := 3 }), 63, 8191, .ready 7 nt0, { tsk with state := 3, kind := 3 }, by decide +kernel⟩

/-- The hypotheses of Obligations.MacsReceiveCountAndLink can be met, clause by clause. -/
theorem wit_MacsReceiveCountAndLink :
    (∃ (s : State) (n : MacId) (w : WireRx), s.dev.portUp n = true ∧ w.kind = .whole ∧ w.good = true ∧ w.codeErr = false ∧ 64 ≤ w.data.length + 4 ∧
      w.data.length + 4 ≤ s.dev.macMax n ∧ beAt w.data 12 2 ≠ 0x8808 ∧ s.dev.rxUsed n + (w.data.length + 4) ≤ rxBufSize n) ∧
    (∃ (s : State) (n : MacId) (w : WireRx), s.dev.portUp n = true ∧ w.kind = .whole ∧ w.good = false) ∧
    (∃ (s : State) (n : MacId) (w : WireRx), s.dev.portUp n = true ∧ w.kind = .whole ∧ w.good = false) ∧
    (∃ (s : State) (n : MacId) (w : WireRx), s.dev.portUp n = true ∧ w.kind = .whole ∧ w.good = false) ∧
    (∃ (s : State) (n : MacId) (t : Nat) (u : Nat), s.dev.hubUp = true ∧ (s.dev.mac n).pauseUntil = some u ∧ u ≤ xoOf s t) ∧
    (∃ (s : State) (n : MacId) (t : Nat) (x : Nat), s.dev.hubUp = true ∧ (s.dev.mac n).pauseSent = some x ∧ x + s.dev.quantaNs n (max 1 (s.dev.get
      (R.MAC_PAUSE n) F.MAC_PAUSE_refresh)) ≤ xoOf s t ∧ s.dev.loWm n < s.dev.rxUsed n ∧ s.dev.txPauseOn n = true) ∧
    (∃ (s : State), s.dev.hubUp = true) ∧
    (∃ (s : State), s.dev.hubUp = true) ∧
    (∃ (s : State) (n : MacId) (c : Fin 64) (v : Nat), s.dev.hubUp = true ∧ smFind (s.dev.mac n).cntLatch c = some v) ∧
    (∃ (s : State) (n : MacId) (x : Nat × Nat × Nat), s.dev.hubUp = true ∧ (s.dev.mac n).ptpTx = some x) ∧
    (∃ (s : State) (n : MacId) (x : Nat × Nat × Nat), s.dev.hubUp = true ∧ (s.dev.mac n).ptpLatch = some x) ∧
    (∃ (s : State), s.dev.hubUp = true) ∧
    (∃ (s : State), s.dev.hubUp = true) ∧
    (∃ (s : State) (n : MacId) (an : Option (Bool × Bool)) (t : Nat), s.dev.serOn n = true ∧ s.dev.macOn n = true ∧ s.dev.macLink n = false ∧
      (s.dev.mac n).lock = true ∧ (s.dev.mac n).lockAt + max 1 (s.dev.get (R.MAC_LINK n) F.MAC_LINK_up_hold) * 1000000 ≤ xoOf s t ∧ ((s.dev.macAn n =
      true → an ≠ none))) ∧
    (∃ (s : State) (n : MacId) (t : Nat), s.dev.hubUp = true ∧ s.dev.macLink n = true ∧ (s.dev.mac n).lock = false ∧ (s.dev.mac n).lockAt + max 1
      (s.dev.get (R.MAC_LINK n) F.MAC_LINK_down_hold) * 1000 ≤ xoOf s t) ∧
    (∃ (s : State) (n : MacId) (t : Nat), s.dev.portUp n = true ∧ (s.dev.mac n).verifies ≠ 0 ∧ (s.dev.mac n).verifies < 3 ∧ (s.dev.mac n).verifyAt +
      min 128 (max 1 (s.dev.get (R.MAC_PE_CTRL n) F.MAC_PE_CTRL_verify_time)) * 1000000 ≤ xoOf s t) ∧
    (∃ (s : State) (n : MacId) (t : Nat), s.dev.portUp n = true ∧ (s.dev.mac n).verifies = 3 ∧ (s.dev.mac n).verifyAt + min 128 (max 1 (s.dev.get
      (R.MAC_PE_CTRL n) F.MAC_PE_CTRL_verify_time)) * 1000000 ≤ xoOf s t) := by
  refine ⟨?_, ?_, ?_, ?_, ?_, ?_, ?_, ?_, ?_, ?_, ?_, ?_, ?_, ?_, ?_, ?_, ?_⟩
  · exact ⟨ofDev (portOn 7 rs), 7, ⟨.whole, List.replicate 60 1, true, false, 0, 0, 100⟩, by decide +kernel⟩
  · exact ⟨ofDev (portOn 7 rs), 7, ⟨.whole, List.replicate 60 1, false, false, 0, 0, 100⟩, by decide +kernel⟩
  · exact ⟨ofDev (portOn 7 rs), 7, ⟨.whole, List.replicate 5 1, false, true, 0, 0, 100⟩, by decide +kernel⟩
  · exact ⟨ofDev (portOn 7 rs), 7, ⟨.whole, List.replicate 9999 1, false, true, 0, 0, 100⟩, by decide +kernel⟩
  · exact ⟨ofDev (rs.setMac 7 { Mac.reset with pauseUntil := some 100 }), 7, nt0 + 100, 100, by decide +kernel⟩
  · exact ⟨ofDev ((portOn 7 rs).put (R.MAC_CTRL 7) F.MAC_CTRL_tx_pause_en 1 |>.setMac 7 { Mac.reset with pauseSent := some 0, rx := List.replicate 2000 rxf } |>.put (R.MAC_PAUSE 7) F.MAC_PAUSE_refresh 1 |>.put (R.MAC_WM 7) F.MAC_WM_lo_wm 1), 7, nt0 + 1000000, 0, by decide +kernel⟩
  · exact ⟨ofDev (rs.setMac 7 { Mac.reset with cnt := [(63, 5)] }), by decide +kernel⟩
  · exact ⟨ofDev (rs.setMac 7 { Mac.reset with cnt := [(63, 2 ^ 48 - 1)] }), by decide +kernel⟩
  · exact ⟨ofDev (rs.setMac 7 { Mac.reset with cntLatch := [(63, 2 ^ 32 - 1)] }), 7, 63, 2 ^ 32 - 1, by decide +kernel⟩
  · exact ⟨ofDev (rs.setMac 7 { Mac.reset with ptpTx := some (nt0, 15, 65535) }), 7, (nt0, 15, 65535), by decide +kernel⟩
  · exact ⟨ofDev (rs.setMac 7 { Mac.reset with ptpLatch := some (nt0, 15, 65535) }), 7, (nt0, 15, 65535), by decide +kernel⟩
  · exact ⟨ofDev rs, by decide +kernel⟩
  · exact ⟨ofDev (rs.put (R.MAC_CTRL 0) F.MAC_CTRL_fec 2), by decide +kernel⟩
  · exact ⟨ofDev ((rs.put (R.MAC_CTRL 1) F.MAC_CTRL_enable 1).setMac 1 { Mac.reset with lock := true }), 1, none, nt0 + 4095000000, by decide +kernel⟩
  · exact ⟨ofDev ((portOn 7 rs).setMac 7 { Mac.reset with lock := false }), 7, nt0 + 4095000000, by decide +kernel⟩
  · exact ⟨ofDev ((portOn 7 rs).setMac 7 { Mac.reset with verifies := 2 }), 7, nt0 + 128000000, by decide +kernel⟩
  · exact ⟨ofDev ((portOn 7 rs).setMac 7 { Mac.reset with verifies := 3 }), 7, nt0 + 128000000, by decide +kernel⟩

/-- The hypotheses of Obligations.ClassifierRuns can be met, clause by clause. -/
theorem wit_ClassifierRuns :
    (∃ (s : State) (n : MacId) (f : RxFrame) (rest : List RxFrame) (a : ClsAct), s.dev.hubUp = true ∧ smFind s.dev.cls.passes n.val = none ∧
      (s.dev.mac n).rx = f :: rest ∧ ((∀ b, b < 8 → (s.dev.parseAs b 192 f.data).frag = 0 ∧ s.dev.decide_ s.dev.activeGen ((s.dev.parseAs b 192
      f.data).key f.port 0) f.port = a))) ∧
    (∃ (s : State) (n : MacId) (f : RxFrame) (rest : List RxFrame) (a : ClsAct), s.dev.hubUp = true ∧ smFind s.dev.cls.passes n.val = none ∧
      (s.dev.mac n).rx = f :: rest ∧ ((∀ b, b < 8 → (s.dev.parseAs b 192 f.data).frag = 0 ∧ s.dev.decide_ s.dev.activeGen ((s.dev.parseAs b 192
      f.data).key f.port 0) f.port = a))) ∧
    (∃ (s : State) (n : MacId) (x : SecondPass) (a : ClsAct), s.dev.hubUp = true ∧ smFind s.dev.cls.passes n.val = some x ∧ ((∀ b, b < 8 →
      s.dev.decide_ x.gen ((s.dev.parseAs b x.lim x.data).key n.val 1) n.val = a))) ∧
    (∃ (s : State), s.dev.hubUp = true) ∧
    (∃ (s : State), s.dev.hubUp = true) ∧
    (∃ (s : State), s.dev.hubUp = true) ∧
    (∃ (s : State) (errs : List TcamErr), s.dev.hubUp = true ∧ errs ≠ [] ∧ (∀ e ∈ errs, e.lost = false)) ∧
    (∃ (s : State), s.dev.hubUp = true) ∧
    (∃ (s : State), s.dev.hubUp = true) ∧
    (∃ (s : State), s.dev.hubUp = true) ∧
    (∃ (s : State), s.dev.hubUp = true) := by
  refine ⟨?_, ?_, ?_, ?_, ?_, ?_, ?_, ?_, ?_, ?_, ?_⟩
  · exact ⟨ofDev (rs.setMac 7 { Mac.reset with rx := [rxf] }), 7, rxf, [], ⟨0, 0, 0⟩, by decide +kernel⟩
  · exact ⟨ofDev (rs.setMac 7 { Mac.reset with rx := [rxf] } |>.setWord (R.CLS_MISS 7) 0x17E00000), 7, rxf, [], ⟨0x17E00000, 0, 0⟩, by decide +kernel⟩
  · exact ⟨ofDev { (rs.setWord (R.CLS_MISS 7) 0x20000000) with cls := ⟨[(7, ⟨rxf.data, 192, 0, 0⟩)], [], []⟩ }, 7, ⟨rxf.data, 192, 0, 0⟩, ⟨0x20000000, 0, 0⟩, by decide +kernel⟩
  · exact ⟨ofDev { rs with cls := ⟨[], [], [([1], rxf, 0), ([2], rxf, 1)]⟩ }, by decide +kernel⟩
  · exact ⟨ofDev { rs with cls := ⟨[], [⟨[1], ⟨0, 0, 0⟩, 0⟩, ⟨[2], ⟨0, 0, 0⟩, 1⟩], []⟩ }, by decide +kernel⟩
  · exact ⟨State.reset, by decide +kernel⟩
  · exact ⟨State.reset, [⟨0, false⟩, ⟨8191, false⟩], by decide +kernel⟩
  · exact ⟨State.reset, by decide +kernel⟩
  · exact ⟨State.reset, by decide +kernel⟩
  · exact ⟨State.reset, by decide +kernel⟩
  · exact ⟨State.reset, by decide +kernel⟩

/-- The hypotheses of Obligations.PortsSend can be met, clause by clause. -/
theorem wit_PortsSend :
    (∃ (s : State) (n : MacId) (q : Fin 8) (t : Nat) (h : QFrame), s.dev.portUp n = true ∧ s.dev.gatesRun n = false ∧ (s.dev.port n).now = none ∧
      (s.dev.port n).held = none ∧ (s.dev.mac n).pauseOut = [] ∧ (s.dev.at_ t).paused n = false ∧ (s.dev.queue (8 * n.val + q.val)).frames = [h] ∧
      (s.dev.queue (8 * n.val + q.val)).busy = false ∧ h.len ≤ s.dev.macMax n ∧ ((∀ j : Fin 8, j ≠ q → (s.dev.queue (8 * n.val + j.val)).frames =
      []))) ∧
    (∃ (s : State) (n : MacId) (t : Nat) (x : TxNow), s.dev.hubUp = true ∧ (s.dev.port n).now = some x ∧ x.stop ≤ xoOf s t ∧ x.sent = 0 ∧ x.upTo =
      x.frame.len ∧ x.ctrl = false ∧ x.bad = false ∧ (s.dev.mac n).pauseOut = []) ∧
    (∃ (s : State), s.dev.hubUp = true) ∧
    (∃ (s : State), s.dev.hubUp = true) := by
  refine ⟨?_, ?_, ?_, ?_⟩
  · exact ⟨ofDev ((portOn 7 rs).setQueue 63 { EQueue.reset with frames := [qf] }), 7, 7, nt0, qf, by decide +kernel⟩
  · exact ⟨ofDev ((portOn 7 rs).setQueue 63 { EQueue.reset with frames := [qf], busy := true } |>.setPort 7 { Port.reset with now := some ⟨7, qf, 0, 672, false, 0, 64, false, false⟩ }), 7, nt0 + 672, ⟨7, qf, 0, 672, false, 0, 64, false, false⟩, by decide +kernel⟩
  · exact ⟨ofDev (portOn 7 rs), by decide +kernel⟩
  · exact ⟨ofDev (rs.setPort 7 { Port.reset with v := 2 ^ 64 - 1 }), by decide +kernel⟩

/-- The hypotheses of Obligations.KeysAreKept can be met, clause by clause. -/
theorem wit_KeysAreKept :
    (∃ (s : State) (slot : Nat) (big : Bool) (key : Bytes), s.dev.hubUp = true ∧ slot ≤ 255 ∧ s.dev.unwrap (((List.range 10).flatMap (fun w => toLE 4
      (s.dev.word (R.CIP_KEY_BUF w)).toNat)).take (if big then 40 else 24)) = some key) ∧
    (∃ (s : State) (slot : Nat) (big : Bool), s.dev.hubUp = true ∧ ((255 < slot ∨ s.dev.unwrap (((List.range 10).flatMap (fun w => toLE 4 (s.dev.word
      (R.CIP_KEY_BUF w)).toNat)).take (if big then 40 else 24)) = none))) ∧
    (∃ (s : State) (slot : Nat) (big : Bool), s.dev.hubUp = true ∧ ((255 < slot ∨ s.dev.unwrap (((List.range 10).flatMap (fun w => toLE 4 (s.dev.word
      (R.CIP_KEY_BUF w)).toNat)).take (if big then 40 else 24)) = none))) ∧
    (∃ (s : State), s.dev.hubUp = true) ∧
    (∃ (s : State), s.dev.hubUp = true) ∧
    (∃ (s : State), s.dev.hubUp = true ∧ s.dev.rootBlow = none) ∧
    (∃ (s : State), s.dev.hubUp = true ∧ s.dev.rootBlow = none) ∧
    (∃ (s : State) (key : Nat), s.dev.hubUp = true ∧ s.dev.rootBlow = some key) ∧
    (∃ (s : State) (key : Nat), s.dev.hubUp = true ∧ s.dev.rootBlow = some key) ∧
    (∃ (s : State), s.dev.hubUp = true) ∧
    (∃ (s : State) (n : Nat) (k : KeySlot), s.dev.hubUp = true ∧ n < 4096 ∧ s.dev.keySlot n = some k ∧ k.uses < 2 ^ 25) ∧
    (∃ (s : State) (n : Nat) (k : KeySlot), s.dev.hubUp = true ∧ n < 4096 ∧ s.dev.keySlot n = some k ∧ k.uses < 2 ^ 25) := by
  refine ⟨?_, ?_, ?_, ?_, ?_, ?_, ?_, ?_, ?_, ?_, ?_, ?_⟩
  · exact ⟨ofDev (keyed rs), 255, false, keyData, by decide +kernel, by decide +kernel, key_unwraps⟩
  · exact ⟨ofDev (keyed rs), 256, false, by decide +kernel⟩
  · exact ⟨State.reset, 0, false, by decide +kernel⟩
  · exact ⟨ofDev { rs with cip := { rs.cip with slots := [(255, slot1)] } }, by decide +kernel⟩
  · exact ⟨State.reset, by decide +kernel⟩
  · exact ⟨ofDev (rs.setWord (R.CIP_ROOT_KEY 7) 0x80000000), by decide +kernel⟩
  · exact ⟨ofDev { rs with rootProgrammed := true }, by decide +kernel⟩
  · exact ⟨ofDev { rs with rootBlow := some kek }, kek, by decide +kernel⟩
  · exact ⟨ofDev { rs with rootBlow := some kek }, kek, by decide +kernel⟩
  · exact ⟨State.reset, by decide +kernel⟩
  · exact ⟨ofDev { rs with cip := { rs.cip with slots := [(255, slot1)] } }, 255, slot1, by decide +kernel⟩
  · exact ⟨ofDev { rs with cip := { rs.cip with slots := [(4095, { slot1 with uses := 2 ^ 25 - 1, locked := true })] } }, 4095, { slot1 with uses := 2 ^ 25 - 1, locked := true }, by decide +kernel⟩

/-- The hypotheses of Obligations.CipherJobsAndStreamRun can be met, clause by clause. -/
theorem wit_CipherJobsAndStreamRun :
    (∃ (s : State) (c : CoreId) (k : KeySlot), s.dev.hubUp = true ∧ s.dev.jobsOf c < 4 ∧ s.dev.jobOk (s.dev.stagedJob c) = true ∧ jobNode
      (s.dev.stagedJob c) = false ∧ jobKey (s.dev.stagedJob c) ≤ 255 ∧ s.dev.keySlot (jobKey (s.dev.stagedJob c)) = some k ∧ k.locked = false ∧ ((∀ j
      ∈ s.dev.cip.jobs, j.who = c.val → j.early = none))) ∧
    (∃ (s : State) (c : CoreId) (k : KeySlot), s.dev.hubUp = true ∧ s.dev.jobsOf c < 4 ∧ s.dev.jobOk (s.dev.stagedJob c) = true ∧ jobNode
      (s.dev.stagedJob c) = false ∧ jobKey (s.dev.stagedJob c) ≤ 255 ∧ s.dev.keySlot (jobKey (s.dev.stagedJob c)) = some k ∧ k.locked = false ∧ ((∀ j
      ∈ s.dev.cip.jobs, j.who = c.val → j.early = none))) ∧
    (∃ (s : State) (i : Nat) (j : CipJob), s.dev.hubUp = true ∧ (s.dev.cip.jobs.filter (·.started)).length < 16 ∧ s.dev.cip.jobs.findIdx? (fun j =>
      !j.started && j.early.isNone) = some i ∧ s.dev.cip.jobs[i]? = some j) ∧
    (∃ (s : State) (c : CoreId) (j : CipJob), s.dev.hubUp = true ∧ s.dev.cip.jobs = [j] ∧ j.who = c.val ∧ j.started = true ∧ smGet (fun _ => [])
      s.dev.cip.results c = []) ∧
    (∃ (s : State) (c : CoreId) (j : CipJob), s.dev.hubUp = true ∧ s.dev.cip.jobs = [j] ∧ j.who = c.val ∧ j.started = true ∧ s.dev.jobOk j.desc = true
      ∧ jobDram j.desc 0 = false ∧ jobDram j.desc 1 = false ∧ jobDram j.desc 2 = false ∧ smGet (fun _ => []) s.dev.cip.results c = []) ∧
    (∃ (s : State) (c : CoreId) (j : CipJob), s.dev.hubUp = true ∧ s.dev.cip.jobs = [j] ∧ j.who = c.val ∧ j.started = true ∧ s.dev.jobOk j.desc = true
      ∧ jobDram j.desc 0 = false ∧ jobDram j.desc 1 = false ∧ jobDram j.desc 2 = false ∧ smGet (fun _ => []) s.dev.cip.results c = []) ∧
    (∃ (s : State) (c : CoreId) (j : CipJob), s.dev.hubUp = true ∧ s.dev.cip.jobs = [j] ∧ j.who = c.val ∧ j.started = true ∧ s.dev.jobOk j.desc = true
      ∧ jobDram j.desc 0 = false ∧ jobDram j.desc 1 = false ∧ jobDram j.desc 2 = false ∧ smGet (fun _ => []) s.dev.cip.results c = []) ∧
    (∃ (s : State) (c : CoreId) (e : Nat) (rest : List Nat), s.dev.hubUp = true ∧ smGet (fun _ => []) s.dev.cip.results c = e :: rest) ∧
    (∃ (s : State) (c : CoreId), s.dev.hubUp = true ∧ smGet (fun _ => []) s.dev.cip.results c = []) ∧
    (∃ (s : State), s.dev.hubUp = true ∧ s.dev.get R.STR_OWNER F.STR_OWNER_owner = 0) ∧
    (∃ (s : State), s.dev.hubUp = true ∧ s.dev.get R.STR_OWNER F.STR_OWNER_owner = 0) ∧
    (∃ (s : State) (who : Fin 65), s.dev.hubUp = true ∧ s.dev.get R.STR_OWNER F.STR_OWNER_owner = strCode who) ∧
    (∃ (s : State) (who : Fin 65), s.dev.hubUp = true ∧ s.dev.get R.STR_OWNER F.STR_OWNER_owner = strCode who) ∧
    (∃ (s : State) (who : Fin 65), s.dev.hubUp = true ∧ s.dev.strMay who = false) ∧
    (∃ (s : State) (who : Fin 65), s.dev.hubUp = true ∧ s.dev.strMay who = false) ∧
    (∃ (s : State) (who : Fin 65) (w : Word) (k : KeySlot), s.dev.hubUp = true ∧ s.dev.strMay who = true ∧ s.dev.flag R.STR_STATUS F.STR_STATUS_busy =
      false ∧ (⟨F.STR_CTRL_mode.of w, F.STR_CTRL_dir.of w == 1, F.STR_CTRL_tag_len.of w + 1, F.STR_CTRL_n_len.of w⟩ : CipSpec).ok (s.dev.get R.STR_LEN
      F.STR_LEN_len) (s.dev.get R.STR_LEN F.STR_LEN_aad_len) = true ∧ s.dev.keySlot (F.STR_CTRL_slot.of w) = some k ∧ k.locked = false) ∧
    (∃ (s : State) (who : Fin 65) (j : StreamJob), s.dev.hubUp = true ∧ s.dev.strMay who = true ∧ s.dev.cip.stream = some j ∧ s.dev.flag R.STR_STATUS
      F.STR_STATUS_busy = true ∧ j.all = false ∧ s.dev.strFree ≠ 0) ∧
    (∃ (s : State) (who : Fin 65) (j : StreamJob), s.dev.hubUp = true ∧ s.dev.strMay who = true ∧ s.dev.cip.stream = some j ∧ s.dev.strOut ≠ []) ∧
    (∃ (s : State) (j : StreamJob), s.dev.hubUp = true ∧ s.dev.cip.stream = some j ∧ s.dev.flag R.STR_STATUS F.STR_STATUS_busy = true ∧ j.all = true) ∧
    (∃ (s : State) (j : StreamJob), s.dev.hubUp = true ∧ s.dev.cip.stream = some j ∧ s.dev.flag R.STR_STATUS F.STR_STATUS_busy = true ∧ j.all = true) ∧
    (∃ (s : State) (j : StreamJob), s.dev.hubUp = true ∧ s.dev.cip.stream = some j ∧ s.dev.flag R.STR_STATUS F.STR_STATUS_busy = true ∧ j.all = true) ∧
    (∃ (s : State) (who : Fin 65), s.dev.hubUp = true ∧ s.dev.strMay who = true ∧ s.dev.flag R.STR_STATUS F.STR_STATUS_busy = true) := by
  refine ⟨?_, ?_, ?_, ?_, ?_, ?_, ?_, ?_, ?_, ?_, ?_, ?_, ?_, ?_, ?_, ?_, ?_, ?_, ?_, ?_, ?_, ?_⟩
  · exact ⟨ofDev (jobW 63 [0x100000FF, 16, 0, 0x1FFF0] { rs with cip := { rs.cip with slots := [(255, slot1)] } }), 63, slot1, by decide +kernel⟩
  · exact ⟨ofDev (jobW 63 [0x100000FF, 16, 0, 0x1FFF0] { rs with cip := { rs.cip with slots := [(255, slot1)] } } |>.put (R.CIP_CLASS 0) F.CIP_CLASS_limit 6), 63, slot1, by decide +kernel⟩
  · exact ⟨ofDev { rs with cip := { rs.cip with jobs := [⟨5, [0x10000000, 16, 0, 64], 0, List.replicate 16 1, none, false⟩] } }, 0, ⟨5, [0x10000000, 16, 0, 64], 0, List.replicate 16 1, none, false⟩, by decide +kernel⟩
  · exact ⟨ofDev { rs with cip := { rs.cip with jobs := [⟨63, [0x10000000, 16, 0, 64, 0, 0, 0, 0, 0, 0], 0, List.replicate 16 1, none, true⟩] } }, 63, ⟨63, [0x10000000, 16, 0, 64, 0, 0, 0, 0, 0, 0], 0, List.replicate 16 1, none, true⟩, by decide +kernel⟩
  · exact ⟨ofDev { rs with cip := { rs.cip with jobs := [jobE 0x10000000] } }, 63, jobE 0x10000000, by decide +kernel⟩
  · exact ⟨ofDev { rs with cip := { rs.cip with jobs := [jobE 0x58370000] } }, 63, jobE 0x58370000, by decide +kernel⟩
  · exact ⟨ofDev { rs with cip := { rs.cip with jobs := [jobE 0x50370000] } }, 63, jobE 0x50370000, by decide +kernel⟩
  · exact ⟨ofDev { rs with cip := { rs.cip with results := [(63, [7, 8])] } }, 63, 7, [8], by decide +kernel⟩
  · exact ⟨State.reset, 63, by decide +kernel⟩
  · exact ⟨State.reset, by decide +kernel⟩
  · exact ⟨State.reset, by decide +kernel⟩
  · exact ⟨ofDev (rs.put R.STR_OWNER F.STR_OWNER_owner 1), 64, by decide +kernel⟩
  · exact ⟨ofDev (rs.put R.STR_OWNER F.STR_OWNER_owner 65), 63, by decide +kernel⟩
  · exact ⟨ofDev (rs.put R.STR_OWNER F.STR_OWNER_owner 65), 64, by decide +kernel⟩
  · exact ⟨ofDev (rs.put R.STR_OWNER F.STR_OWNER_owner 65), 64, by decide +kernel⟩
  · exact ⟨ofDev ({ rs with cip := { rs.cip with slots := [(255, slot1)] } } |>.put R.STR_LEN F.STR_LEN_len 65535), 64, 0x1000FF01, slot1, by decide +kernel⟩
  · exact ⟨ofDev ({ rs with cip := { rs.cip with stream := some sj } } |>.put R.STR_STATUS F.STR_STATUS_busy 1), 64, sj, by decide +kernel⟩
  · exact ⟨ofDev ({ rs with cip := { rs.cip with stream := some { sj with input := [1, 2, 3, 4] } } }), 64, { sj with input := [1, 2, 3, 4] }, by decide +kernel⟩
  · exact ⟨ofDev ({ rs with cip := { rs.cip with stream := some { sj with input := [1, 2, 3, 4] } } } |>.put R.STR_STATUS F.STR_STATUS_busy 1), { sj with input := [1, 2, 3, 4] }, by decide +kernel⟩
  · exact ⟨ofDev ({ rs with cip := { rs.cip with stream := some { sj with mode := 5, dec := true, input := [1, 2, 3, 4], tag := [1, 2, 3, 4] } } } |>.put R.STR_STATUS F.STR_STATUS_busy 1), { sj with mode := 5, dec := true, input := [1, 2, 3, 4], tag := [1, 2, 3, 4] }, by decide +kernel⟩
  · exact ⟨ofDev ({ rs with cip := { rs.cip with stream := some { sj with mode := 2, dec := true, len := 16, input := List.replicate 16 1, tag := [1, 2, 3, 4] } } } |>.put R.STR_STATUS F.STR_STATUS_busy 1), { sj with mode := 2, dec := true, len := 16, input := List.replicate 16 1, tag := [1, 2, 3, 4] }, by decide +kernel⟩
  · exact ⟨ofDev ({ rs with cip := { rs.cip with stream := some sj } } |>.put R.STR_STATUS F.STR_STATUS_busy 1), 64, by decide +kernel⟩

/-- The hypotheses of Obligations.DramServesRefreshesAndScrubs can be met, clause by clause. -/
theorem wit_DramServesRefreshesAndScrubs :
    (∃ (s : State) (burst : Fin 67108864), s.dev.drcServes = true ∧ 64 * burst.val < 0xE0000000 ∧ s.dev.drc.ports = [] ∧ (s.dev.chan (dramChan (64 *
      burst.val))).length < 128) ∧
    (∃ (s : State) (burst : Fin 67108864), s.dev.hubUp = true ∧ ((s.dev.memUp = false ∨ 0xE0000000 ≤ 64 * burst.val))) ∧
    (∃ (s : State) (burst : Fin 67108864), s.dev.hubUp = true ∧ ((s.dev.memUp = false ∨ 0xE0000000 ≤ 64 * burst.val))) ∧
    (∃ (s : State) (ch : ChanId) (r : DramReq), s.dev.drcServes = true ∧ s.dev.chan ch = [r] ∧ s.dev.drc.ports = [] ∧ r.write = true ∧ r.mask = 2 ^ 64
      - 1 ∧ r.addr % 64 = 0 ∧ r.addr < 0xE0000000 ∧ r.data.length = 64) ∧
    (∃ (s : State) (ch : ChanId) (r : DramReq), s.dev.drcServes = true ∧ s.dev.chan ch = [r] ∧ s.dev.drc.ports = [] ∧ r.write = false ∧
      s.dev.drc.poison = []) ∧
    (∃ (s : State) (ch : ChanId) (b : BankId), s.dev.memUp = true ∧ s.dev.refMult = 1 ∧ s.dev.owed ch b < 8) ∧
    (∃ (s : State) (ch : ChanId) (b : BankId), s.dev.memUp = true ∧ s.dev.refMult = 1 ∧ s.dev.owed ch b < 8) ∧
    (∃ (s : State) (ch : ChanId) (b : BankId), s.dev.memUp = true ∧ s.dev.refMult = 1 ∧ 8 ≤ s.dev.owed ch b) ∧
    (∃ (s : State) (ch : ChanId) (b : BankId), s.dev.memUp = true ∧ s.dev.bankIdle ch b = true) ∧
    (∃ (s : State), s.dev.memUp = true ∧ (s.dev.link 5).up = true ∧ s.dev.derateHeld = false ∧ 1 ≤ s.dev.refMult) ∧
    (∃ (s : State) (t : Nat) (w : Nat), s.dev.hubUp = true ∧ s.dev.drc.window = some w ∧ w ≤ xoOf s t) ∧
    (∃ (s : State), s.dev.drcServes = true ∧ s.dev.flag R.DRC_SCRUB F.DRC_SCRUB_en = true) := by
  refine ⟨?_, ?_, ?_, ?_, ?_, ?_, ?_, ?_, ?_, ?_, ?_, ?_⟩
  · exact ⟨ofDev (drcOn rs), 58720255, by decide +kernel⟩
  · exact ⟨ofDev (drcOn rs), 58720256, by decide +kernel⟩
  · exact ⟨ofDev (rs.setDom 7 0), 0, by decide +kernel⟩
  · exact ⟨ofDev (drcOn { rs with drc := { rs.drc with ch1 := [dreq] } }), 1, dreq, by decide +kernel⟩
  · exact ⟨ofDev (drcOn { rs with drc := { rs.drc with ch0 := [{ dreq with write := false, addr := 0 }] } }), 0, { dreq with write := false, addr := 0 }, by decide +kernel⟩
  · exact ⟨ofDev ({ rs with drc := { rs.drc with owed := [(31, 7)], ch1 := [{ dreq with addr := 0xDFFFFFC0 }] } } |>.put R.DRC_STATUS F.DRC_STATUS_mult 1), 1, 15, by decide +kernel⟩
  · exact ⟨ofDev (rs.put R.DRC_STATUS F.DRC_STATUS_mult 1), 1, 15, by decide +kernel⟩
  · exact ⟨ofDev ({ rs with drc := { rs.drc with owed := [(31, 8)] } } |>.put R.DRC_STATUS F.DRC_STATUS_mult 1), 1, 15, by decide +kernel⟩
  · exact ⟨ofDev { rs with drc := { rs.drc with owed := [(30, 1), (31, 8)] } }, 1, 15, by decide +kernel⟩
  · exact ⟨ofDev ((rs.setLink 5 upLink).put R.DRC_STATUS F.DRC_STATUS_mult 1), by decide +kernel⟩
  · exact ⟨ofDev ({ rs with drc := { rs.drc with window := some 0, owed := [(1, 2)] } } |>.put R.DRC_STATUS F.DRC_STATUS_window 1), nt0, 0, by decide +kernel⟩
  · exact ⟨ofDev ((drcOn rs).put R.DRC_SCRUB F.DRC_SCRUB_en 1 |>.put R.DRC_SCRUB_POS F.DRC_SCRUB_POS_pos 58720255), by decide +kernel⟩

/-- The hypotheses of Obligations.DramKeepsItsForm can be met, clause by clause. -/
theorem wit_DramKeepsItsForm :
    (∃ (s : State), Memory.wf 0 s.dev.dram) ∧
    (∃ (s : State) (ch : ChanId) (r : DramReq) (i : Nat), s.dev.drcServes = true ∧ s.dev.chan ch = [r] ∧ s.dev.drc.ports = [] ∧ r.write = true ∧
      r.addr % 64 = 0 ∧ r.addr < 0xE0000000 ∧ r.data.length = 64 ∧ s.dev.drc.poison = [] ∧ i < 64) ∧
    (∃ (s : State) (ch : ChanId) (r : DramReq) (i : Nat), s.dev.drcServes = true ∧ s.dev.chan ch = [r] ∧ s.dev.drc.ports = [] ∧ r.write = true ∧
      r.addr % 64 = 0 ∧ r.addr < 0xE0000000 ∧ r.data.length = 64 ∧ s.dev.drc.poison = [] ∧ i < 64) := by
  refine ⟨?_, ?_, ?_⟩
  · exact ⟨ofDev (drcOn { rs with drc := { rs.drc with ch1 := [dreq] } }), by decide +kernel⟩
  · exact ⟨ofDev (drcOn { rs with drc := { rs.drc with ch1 := [{ dreq with mask := 1 }] } }), 1, { dreq with mask := 1 }, 63, by decide +kernel⟩
  · exact ⟨ofDev (drcOn { rs with drc := { rs.drc with ch1 := [{ dreq with mask := 1 }] } }), 1, { dreq with mask := 1 }, 0, by decide +kernel⟩

/-- The hypotheses of Obligations.CalibrationRunsAndMeasures can be met, clause by clause. -/
theorem wit_CalibrationRunsAndMeasures :
    (∃ (s : State) (u : CalUnit), s.dev.hubUp = true ∧ calValid u.val = true ∧ calVco u.val = true ∧ s.dev.calServes u.val = true) ∧
    (∃ (s : State) (u : CalUnit), s.dev.hubUp = true ∧ calValid u.val = true ∧ calVco u.val = false ∧ s.dev.calEnabled u.val = true ∧ s.dev.calServes
      u.val = true ∧ s.dev.calRun u.val = none ∧ u.val ∉ s.dev.cal.waiting ∧ (∀ v ∈ calGroup u.val, s.dev.calRun v = none)) ∧
    (∃ (s : State) (u : CalUnit), s.dev.hubUp = true ∧ calValid u.val = true ∧ calVco u.val = false ∧ s.dev.calEnabled u.val = true ∧ s.dev.calServes
      u.val = true ∧ s.dev.calRun u.val = none ∧ u.val ∉ s.dev.cal.waiting ∧ (∀ v ∈ calGroup u.val, s.dev.calRun v = none)) ∧
    (∃ (s : State) (u : CalUnit), s.dev.hubUp = true ∧ calValid u.val = true ∧ calVco u.val = false ∧ s.dev.calEnabled u.val = true ∧ s.dev.calServes
      u.val = true ∧ (s.dev.calRun u.val).isSome = true) ∧
    (∃ (s : State) (u : CalUnit), s.dev.hubUp = true ∧ calValid u.val = false) ∧
    (∃ (s : State) (u : CalUnit), s.dev.hubUp = true ∧ calValid u.val = false) ∧
    (∃ (s : State) (u : CalUnit) (x : CalRun), s.dev.hubUp = true ∧ calValid u.val = true ∧ calVco u.val = false ∧ s.dev.calEnabled u.val = true ∧
      s.dev.calServes u.val = true ∧ s.dev.calRun u.val = some x) ∧
    (∃ (s : State) (u : CalUnit) (x : CalRun), s.dev.hubUp = true ∧ calValid u.val = true ∧ calVco u.val = false ∧ s.dev.calEnabled u.val = true ∧
      s.dev.calServes u.val = true ∧ s.dev.calRun u.val = some x) ∧
    (∃ (s : State) (u : CalUnit) (x : CalRun), s.dev.hubUp = true ∧ calValid u.val = true ∧ calVco u.val = false ∧ s.dev.calEnabled u.val = true ∧
      s.dev.calServes u.val = true ∧ s.dev.calRun u.val = some x) ∧
    (∃ (s : State) (u : CalUnit) (t : Nat) (t0 : Nat), s.dev.hubUp = true ∧ smFind s.dev.cal.retryAt u.val = some t0 ∧ t0 ≤ xoOf s t ∧
      s.dev.calEnabled u.val = true ∧ s.dev.calServes u.val = true ∧ s.dev.calRun u.val = none ∧ u.val ∉ s.dev.cal.waiting ∧ (∀ v ∈ calGroup u.val,
      s.dev.calRun v = none)) ∧
    (∃ (s : State) (u : CalUnit) (x : CalRun), s.dev.hubUp = true ∧ calFam u.val = 0 ∧ calKind u.val ≤ 2 ∧ s.dev.calRun u.val = some x ∧ x.dir = 0 ∧
      x.steps < 64 ∧ codeIn u.val (s.dev.codeOf u.val x.item + 1) = true) ∧
    (∃ (s : State) (u : CalUnit) (x : CalRun), s.dev.hubUp = true ∧ calFam u.val = 0 ∧ calKind u.val ≤ 2 ∧ s.dev.calRun u.val = some x ∧ x.dir = 0 ∧
      x.steps < 64 ∧ codeIn u.val (s.dev.codeOf u.val x.item + 1) = true) ∧
    (∃ (s : State) (u : CalUnit) (x : CalRun) (f : Int) (fig : Int), s.dev.hubUp = true ∧ calFam u.val = 0 ∧ calKind u.val ≤ 2 ∧ s.dev.calRun u.val =
      some x ∧ x.dir = 1 ∧ x.fig = some f ∧ calBetter u.val fig f = false ∧ codeIn u.val (s.dev.codeOf u.val x.item - 1) = true ∧ codeIn u.val
      (s.dev.codeOf u.val x.item - 2) = true ∧ x.steps < 64) ∧
    (∃ (s : State) (u : CalUnit) (x : CalRun) (lo : Int) (hi : Int) (v : Int) (w : Nat) (h : Nat) (w' : Nat) (h' : Nat), s.dev.hubUp = true ∧ calFam
      u.val = 1 ∧ s.dev.calRun u.val = some x ∧ x.item < 5 ∧ towardCentre lo hi (s.dev.dfe (u.val % 8) x.item) = some v ∧ w ≤ w' ∧ h ≤ h' ∧ -32 ≤ v ∧
      v ≤ 31) ∧
    (∃ (s : State) (u : CalUnit) (x : CalRun) (lo : Fin 256) (hi : Fin 256) (v : Int), s.dev.hubUp = true ∧ calFam u.val = 2 ∧ u.val / 2 % 2 = 0 ∧
      s.dev.calRun u.val = some x ∧ towardCentre lo.val hi.val ((s.dev.dqBit (32 * (u.val % 2) + x.item)).1 : Int) = some v) ∧
    (∃ (s : State) (u : Nat), s.dev.hubUp = true ∧ u ∈ calUnits ∧ s.dev.calEnabled u = true ∧ s.dev.calServes u = true ∧ s.dev.calTemp u = (none,
      none) ∧ u ∉ s.dev.cal.blind) ∧
    (∃ (s : State) (u : Nat) (old : CalTemps), s.dev.hubUp = true ∧ u ∈ calUnits ∧ s.dev.calEnabled u = true ∧ s.dev.calServes u = true ∧ smFind
      s.dev.cal.temps u = some old ∧ s.dev.calMoved old (s.dev.calTemp u) = true) ∧
    (∃ (s : State) (ch : ChanId) (b : Fin 32) (rt : Nat) (rw : Nat) (wt : Nat) (ww : Nat), s.dev.hubUp = true ∧ s.dev.dqBit (32 * ch.val + b.val) =
      (rt, rw, wt, ww)) := by
  refine ⟨?_, ?_, ?_, ?_, ?_, ?_, ?_, ?_, ?_, ?_, ?_, ?_, ?_, ?_, ?_, ?_, ?_, ?_⟩
  · exact ⟨State.reset, 35, by decide +kernel⟩
  · exact ⟨ofDev (calOn rs), 0, by decide +kernel⟩
  · exact ⟨ofDev (calOn rs), 131, by decide +kernel⟩
  · exact ⟨ofDev (calOn (setRun 0 cr rs)), 0, by decide +kernel⟩
  · exact ⟨ofDev (calOn rs), 255, by decide +kernel⟩
  · exact ⟨ofDev (calOn rs), 255, by decide +kernel⟩
  · exact ⟨ofDev (calOn (setRun 0 cr rs)), 0, cr, by decide +kernel⟩
  · exact ⟨ofDev (calOn (setRun 131 cr rs)), 131, cr, by decide +kernel⟩
  · exact ⟨ofDev ((calOn (setRun 71 cr rs)).put (R.MAC_STATUS 7) F.MAC_STATUS_link 1), 71, cr, by decide +kernel⟩
  · exact ⟨ofDev (calOn { rs with cal := { rs.cal with retryAt := [(128, 0)] } }), 128, nt0, 0, by decide +kernel⟩
  · exact ⟨ofDev (calOn (setRun 0 cr rs)), 0, cr, by decide +kernel⟩
  · exact ⟨ofDev (calOn (setRun 42 { cr with steps := 63 } rs)), 42, { cr with steps := 63 }, by decide +kernel⟩
  · exact ⟨ofDev (calOn (setRun 0 { cr with dir := 1, fig := some 5 } rs)), 0, { cr with dir := 1, fig := some 5 }, 5, 4, by decide +kernel⟩
  · exact ⟨ofDev ((calOn (setRun 71 { cr with item := 4 } rs)).put (R.MAC_STATUS 7) F.MAC_STATUS_link 1), 71, { cr with item := 4 }, -64, 20, -1, 5, 6, 5, 7, by decide +kernel⟩
  · exact ⟨ofDev (calOn (setRun 129 { cr with item := 31 } rs)), 129, { cr with item := 31 }, 0, 255, 1, by decide +kernel⟩
  · exact ⟨ofDev (calOn rs), 131, by decide +kernel⟩
  · exact ⟨ofDev (calOn { rs with cal := { rs.cal with temps := [(0, (some 0, none))] }, temps := [(2, 800), (3, 800)] }), 0, (some 0, none), by decide +kernel⟩
  · exact ⟨ofDev { rs with cal := { rs.cal with bits := [(63, (1, 2, 3, 255))] } }, 1, 31, 1, 2, 3, 255, by decide +kernel⟩

/-- The hypotheses of Obligations.RegistersAreReachedByCommand can be met, clause by clause. -/
theorem wit_RegistersAreReachedByCommand :
    (∃ (s : State) (c : Cmd) (n : Nat) (e : Dev) (bs : Bytes), s.dev.hubUp = true ∧ s.dev.cmd.busy = none ∧ s.dev.headCmd = some c ∧ c.op = 1 ∧
      s.dev.accessStatus c.covers = 0 ∧ c.arg ≤ n ∧ readRun s.dev c.covers = some (e, bs) ∧ e.pwr.hubOn = true) ∧
    (∃ (s : State) (c : Cmd) (n : Nat), s.dev.hubUp = true ∧ s.dev.cmd.busy = none ∧ s.dev.headCmd = some c ∧ c.op = 1 ∧ n ≠ 0 ∧ s.dev.accessStatus
      c.covers = 2) ∧
    (∃ (s : State) (c : Cmd) (n : Nat) (e : Dev), s.dev.hubUp = true ∧ s.dev.cmd.busy = none ∧ s.dev.headCmd = some c ∧ c.op = 2 ∧ s.dev.accessStatus
      c.covers = 0 ∧ c.arg ≤ n ∧ writeRun s.dev (c.covers.zip (wordsOf c.data)) = some e ∧ e.pwr.hubOn = true ∧ e.cmd.queue = [c]) ∧
    (∃ (s : State) (c : Cmd) (n : Nat) (e : Dev), s.dev.hubUp = true ∧ s.dev.cmd.busy = none ∧ s.dev.headCmd = some c ∧ c.op = 4 ∧ s.dev.accessStatus
      c.covers = 0 ∧ c.count ≤ n ∧ writeRun s.dev (c.covers.zip (wordsOf c.data)) = some e ∧ e.pwr.hubOn = true ∧ e.cmd.queue = [c]) ∧
    (∃ (s : State) (c : Cmd) (n : Nat), s.dev.hubUp = true ∧ s.dev.cmd.busy = none ∧ s.dev.headCmd = some c ∧ n ≠ 0 ∧ s.dev.accessStatus c.covers ≠ 0
      ∧ c.op = 2) ∧
    (∃ (s : State) (c : Cmd) (n : Nat), s.dev.hubUp = true ∧ s.dev.cmd.busy = none ∧ s.dev.headCmd = some c ∧ n ≠ 0 ∧ s.dev.accessStatus c.covers ≠ 0
      ∧ c.op = 4) ∧
    (∃ (s : State) (c : Cmd) (e : Dev) (g : Dev) (old : Word), s.dev.hubUp = true ∧ s.dev.cmd.busy = none ∧ s.dev.headCmd = some c ∧ c.op = 3 ∧
      s.dev.accessStatus [c.addr] = 0 ∧ s.dev.readWaits c.addr = false ∧ s.dev.writeWaits c.addr = false ∧ s.dev.busRead c.addr = (e, some old) ∧
      e.busWrite c.addr ((old &&& ~~~(BitVec.ofNat 32 c.arg) &&& ~~~(actingBits c.addr)) ||| (BitVec.ofNat 32 (leAt c.data 0 4) &&& BitVec.ofNat 32
      c.arg)) = (g, true) ∧ g.pwr.hubOn = true ∧ g.cmd.queue = [c]) ∧
    (∃ (s : State) (c : Cmd), s.dev.hubUp = true ∧ s.dev.cmd.busy = none ∧ s.dev.headCmd = some c ∧ c.op = 3 ∧ s.dev.accessStatus [c.addr] ≠ 0) := by
  refine ⟨?_, ?_, ?_, ?_, ?_, ?_, ?_, ?_⟩
  · exact ⟨withCmd (cmd 1 R.CLK_ACT_TIME_HI 2 []) run, cmd 1 R.CLK_ACT_TIME_HI 2 [], 2, ((readRun (withCmd (cmd 1 R.CLK_ACT_TIME_HI 2 []) run : State).dev (cmd 1 R.CLK_ACT_TIME_HI 2 [] : Cmd).covers).getD (rs, [])).1, ((readRun (withCmd (cmd 1 R.CLK_ACT_TIME_HI 2 []) run : State).dev (cmd 1 R.CLK_ACT_TIME_HI 2 [] : Cmd).covers).getD (rs, [])).2, by decide +kernel⟩
  · exact ⟨withCmd (cmd 1 0xFFFFFFFC 1 []) run, cmd 1 0xFFFFFFFC 1 [], 1, by decide +kernel⟩
  · exact ⟨withCmd wrAct run, wrAct, 2, (writeRun (withCmd wrAct run : State).dev ((wrAct : Cmd).covers.zip (wordsOf (wrAct : Cmd).data))).getD rs, by decide +kernel⟩
  · exact ⟨withCmd tbAct run, tbAct, 2, (writeRun (withCmd tbAct run : State).dev ((tbAct : Cmd).covers.zip (wordsOf (tbAct : Cmd).data))).getD rs, by decide +kernel⟩
  · exact ⟨withCmd (cmd 2 0xFFFFFFFC 1 [1, 2, 3, 4]) run, cmd 2 0xFFFFFFFC 1 [1, 2, 3, 4], 1, by decide +kernel⟩
  · exact ⟨withCmd (cmd 4 0xFFFFFFFC 0x00010001 [1, 2, 3, 4]) run, cmd 4 0xFFFFFFFC 0x00010001 [1, 2, 3, 4], 1, by decide +kernel⟩
  · exact ⟨withCmd wmEn run, wmEn, ((withCmd wmEn run : State).dev.busRead (wmEn : Cmd).addr).1, ((((withCmd wmEn run : State).dev.busRead (wmEn : Cmd).addr).1 : Dev).busWrite (wmEn : Cmd).addr ((((((withCmd wmEn run : State).dev.busRead (wmEn : Cmd).addr).2).getD 0 : Word) &&& ~~~(BitVec.ofNat 32 (wmEn : Cmd).arg) &&& ~~~(actingBits (wmEn : Cmd).addr)) ||| (BitVec.ofNat 32 (leAt (wmEn : Cmd).data 0 4) &&& BitVec.ofNat 32 (wmEn : Cmd).arg))).1, (((withCmd wmEn run : State).dev.busRead (wmEn : Cmd).addr).2).getD 0, by decide +kernel⟩
  · exact ⟨withCmd (cmd 3 0xFFFFFFFC 1 [1, 2, 3, 4]) run, cmd 3 0xFFFFFFFC 1 [1, 2, 3, 4], by decide +kernel⟩

/-- The hypotheses of Obligations.MaskedWritesMerge can be met, clause by clause. -/
theorem wit_MaskedWritesMerge :
    ∃ (s : State) (c : Cmd) (e : Dev) (g : Dev) (old : Word) (mask : Word) (value : Word) (acting : Word), s.dev.hubUp = true ∧ s.dev.cmd.busy = none
      ∧ s.dev.headCmd = some c ∧ c.op = 3 ∧ s.dev.accessStatus [c.addr] = 0 ∧ s.dev.readWaits c.addr = false ∧ s.dev.writeWaits c.addr = false ∧
      s.dev.busRead c.addr = (e, some old) ∧ mask = BitVec.ofNat 32 c.arg ∧ value = BitVec.ofNat 32 (leAt c.data 0 4) ∧ acting = accMask (fun x => x =
      .w1c || x = .w1s || x = .rwsc || x = .wo) c.addr ∧ e.busWrite c.addr (((old &&& ~~~acting) &&& ~~~mask) ||| (value &&& mask)) = (g, true) ∧
      g.pwr.hubOn = true ∧ g.cmd.queue = [c] := by
  exact ⟨withCmd wmEn run, wmEn, ((withCmd wmEn run : State).dev.busRead (wmEn : Cmd).addr).1, ((((withCmd wmEn run : State).dev.busRead (wmEn : Cmd).addr).1 : Dev).busWrite (wmEn : Cmd).addr (((((((withCmd wmEn run : State).dev.busRead (wmEn : Cmd).addr).2).getD 0 : Word) &&& ~~~(accMask (fun x => x = .w1c || x = .w1s || x = .rwsc || x = .wo) (wmEn : Cmd).addr : Word)) &&& ~~~(BitVec.ofNat 32 (wmEn : Cmd).arg : Word)) ||| ((BitVec.ofNat 32 (leAt (wmEn : Cmd).data 0 4) : Word) &&& (BitVec.ofNat 32 (wmEn : Cmd).arg : Word)))).1, (((withCmd wmEn run : State).dev.busRead (wmEn : Cmd).addr).2).getD 0, BitVec.ofNat 32 (wmEn : Cmd).arg, BitVec.ofNat 32 (leAt (wmEn : Cmd).data 0 4), accMask (fun x => x = .w1c || x = .w1s || x = .rwsc || x = .wo) (wmEn : Cmd).addr, by decide +kernel⟩

/-- The hypotheses of Obligations.CommandsStageArmAndAbort can be met, clause by clause. -/
theorem wit_CommandsStageArmAndAbort :
    (∃ (s : State) (c : Cmd), s.dev.hubUp = true ∧ s.dev.cmd.busy = none ∧ s.dev.headCmd = some c ∧ c.op = 5 ∧ (∀ p ∈ c.pairs, s.dev.accessRefused p.1
      = false) ∧ (s.dev.stage c.addr).armed = false ∧ (if c.arg.testBit 31 then [] else (s.dev.stage c.addr).pairs).length + c.pairs.length ≤ 256) ∧
    (∃ (s : State) (c : Cmd), s.dev.hubUp = true ∧ s.dev.cmd.busy = none ∧ s.dev.headCmd = some c ∧ c.op = 5 ∧ (∀ p ∈ c.pairs, s.dev.accessRefused p.1
      = false) ∧ (s.dev.stage c.addr).armed = false ∧ (if c.arg.testBit 31 then [] else (s.dev.stage c.addr).pairs).length + c.pairs.length ≤ 256) ∧
    (∃ (s : State) (c : Cmd), s.dev.hubUp = true ∧ s.dev.cmd.busy = none ∧ s.dev.headCmd = some c ∧ c.op = 5 ∧ (∀ p ∈ c.pairs, s.dev.accessRefused p.1
      = false) ∧ (s.dev.stage c.addr).armed = true) ∧
    (∃ (s : State) (c : Cmd) (e : Dev), s.dev.hubUp = true ∧ s.dev.cmd.busy = none ∧ s.dev.headCmd = some c ∧ c.op = 6 ∧ e = ((((s.dev.rawWrite
      R.CLK_ACT_TIME_HI (BitVec.ofNat 32 (leAt c.data 0 4))).rawWrite R.CLK_ACT_TIME_LO (BitVec.ofNat 32 (leAt c.data 4 4))).rawWrite
      R.CLK_ACT_TIME_NS (BitVec.ofNat 32 (leAt c.data 8 4))).rawWrite R.CLK_ACT_SPEC (BitVec.ofNat 32 (leAt c.data 12 4))).actionArm) ∧
    (∃ (s : State) (c : Cmd) (e : Dev), s.dev.hubUp = true ∧ s.dev.cmd.busy = none ∧ s.dev.headCmd = some c ∧ c.op = 6 ∧ e = ((((s.dev.rawWrite
      R.CLK_ACT_TIME_HI (BitVec.ofNat 32 (leAt c.data 0 4))).rawWrite R.CLK_ACT_TIME_LO (BitVec.ofNat 32 (leAt c.data 4 4))).rawWrite
      R.CLK_ACT_TIME_NS (BitVec.ofNat 32 (leAt c.data 8 4))).rawWrite R.CLK_ACT_SPEC (BitVec.ofNat 32 (leAt c.data 12 4))).actionArm) ∧
    (∃ (s : State) (c : Cmd), s.dev.hubUp = true ∧ s.dev.cmd.busy = none ∧ s.dev.headCmd = some c ∧ c.op = 10) ∧
    (∃ (s : State) (c : Cmd), s.dev.hubUp = true ∧ s.dev.cmd.busy = none ∧ s.dev.headCmd = some c ∧ c.op = 9) ∧
    (∃ (s : State) (bs : Bytes) (c : Cmd) (x : Cmd), s.dev.portAnswers = true ∧ bs ≠ [] ∧ c = parseCmd false 0 bs ∧ c.op = 9 ∧ s.dev.cmdGate c = none
      ∧ c.malformed = false ∧ s.dev.cmd.queue = [x] ∧ s.dev.cmd.busy = none ∧ s.dev.heldRecs false < 32 ∧ x.mgmt = false ∧ x.op ≠ 9 ∧ x.tag = c.addr ∧
      x.targeted = false ∧ x.lost = false) ∧
    (∃ (s : State) (c : Cmd) (r : MgmtReply), s.dev.hubUp = true ∧ s.dev.cmd.busy = none ∧ s.dev.headCmd = some c ∧ c.op = 10 ∧ c.mgmt = true ∧
      s.dev.cmd.queue = [c] ∧ s.dev.cmd.replies = [r] ∧ r.frame = c.frame ∧ r.left = 1) := by
  refine ⟨?_, ?_, ?_, ?_, ?_, ?_, ?_, ?_, ?_⟩
  · exact ⟨withCmd (cmd 5 7 0x80000001 (toLE 4 R.CLK_CTRL ++ [1, 2, 3, 4])) { run with stages := [(7, ⟨[(0, 0)], false⟩)] }, cmd 5 7 0x80000001 (toLE 4 R.CLK_CTRL ++ [1, 2, 3, 4]), by decide +kernel⟩
  · exact ⟨withCmd (cmd 5 7 1 (toLE 4 R.CLK_CTRL ++ [1, 2, 3, 4])) { run with stages := [(7, ⟨List.replicate 255 (0, 0), false⟩)] }, cmd 5 7 1 (toLE 4 R.CLK_CTRL ++ [1, 2, 3, 4]), by decide +kernel⟩
  · exact ⟨withCmd (cmd 5 7 0x80000001 (toLE 4 R.CLK_CTRL ++ [1, 2, 3, 4])) { run with stages := [(7, ⟨[], true⟩)] }, cmd 5 7 0x80000001 (toLE 4 R.CLK_CTRL ++ [1, 2, 3, 4]), by decide +kernel⟩
  · exact ⟨withCmd (cmd 6 0 0 (toLE 4 0 ++ toLE 4 946684838 ++ toLE 4 0 ++ [0, 0, 0, 0])) run, cmd 6 0 0 (toLE 4 0 ++ toLE 4 946684838 ++ toLE 4 0 ++ [0, 0, 0, 0]), (((((withCmd (cmd 6 0 0 (toLE 4 0 ++ toLE 4 946684838 ++ toLE 4 0 ++ [0, 0, 0, 0])) run : State).dev.rawWrite R.CLK_ACT_TIME_HI (BitVec.ofNat 32 (leAt (cmd 6 0 0 (toLE 4 0 ++ toLE 4 946684838 ++ toLE 4 0 ++ [0, 0, 0, 0]) : Cmd).data 0 4))).rawWrite R.CLK_ACT_TIME_LO (BitVec.ofNat 32 (leAt (cmd 6 0 0 (toLE 4 0 ++ toLE 4 946684838 ++ toLE 4 0 ++ [0, 0, 0, 0]) : Cmd).data 4 4))).rawWrite R.CLK_ACT_TIME_NS (BitVec.ofNat 32 (leAt (cmd 6 0 0 (toLE 4 0 ++ toLE 4 946684838 ++ toLE 4 0 ++ [0, 0, 0, 0]) : Cmd).data 8 4))).rawWrite R.CLK_ACT_SPEC (BitVec.ofNat 32 (leAt (cmd 6 0 0 (toLE 4 0 ++ toLE 4 946684838 ++ toLE 4 0 ++ [0, 0, 0, 0]) : Cmd).data 12 4))).actionArm, by decide +kernel⟩
  · exact ⟨withCmd (cmd 6 0 0 (toLE 4 0 ++ toLE 4 946684838 ++ toLE 4 0 ++ toLE 4 (F.CLK_ACT_SPEC_type.into 0 7).toNat)) run, cmd 6 0 0 (toLE 4 0 ++ toLE 4 946684838 ++ toLE 4 0 ++ toLE 4 (F.CLK_ACT_SPEC_type.into 0 7).toNat), (((((withCmd (cmd 6 0 0 (toLE 4 0 ++ toLE 4 946684838 ++ toLE 4 0 ++ toLE 4 (F.CLK_ACT_SPEC_type.into 0 7).toNat)) run : State).dev.rawWrite R.CLK_ACT_TIME_HI (BitVec.ofNat 32 (leAt (cmd 6 0 0 (toLE 4 0 ++ toLE 4 946684838 ++ toLE 4 0 ++ toLE 4 (F.CLK_ACT_SPEC_type.into 0 7).toNat) : Cmd).data 0 4))).rawWrite R.CLK_ACT_TIME_LO (BitVec.ofNat 32 (leAt (cmd 6 0 0 (toLE 4 0 ++ toLE 4 946684838 ++ toLE 4 0 ++ toLE 4 (F.CLK_ACT_SPEC_type.into 0 7).toNat) : Cmd).data 4 4))).rawWrite R.CLK_ACT_TIME_NS (BitVec.ofNat 32 (leAt (cmd 6 0 0 (toLE 4 0 ++ toLE 4 946684838 ++ toLE 4 0 ++ toLE 4 (F.CLK_ACT_SPEC_type.into 0 7).toNat) : Cmd).data 8 4))).rawWrite R.CLK_ACT_SPEC (BitVec.ofNat 32 (leAt (cmd 6 0 0 (toLE 4 0 ++ toLE 4 946684838 ++ toLE 4 0 ++ toLE 4 (F.CLK_ACT_SPEC_type.into 0 7).toNat) : Cmd).data 12 4))).actionArm, by decide +kernel⟩
  · exact ⟨withCmd (cmd 10 0 0 []) run, cmd 10 0 0 [], by decide +kernel⟩
  · exact ⟨withCmd { cmd 9 7 0 [] with outcome := 4 } run, { cmd 9 7 0 [] with outcome := 4 }, by decide +kernel⟩
  · exact ⟨withCmd (cmd 2 R.CLK_CTRL 1 [1, 2, 3, 4]) run, [9, 0, 1, 0, 0xCD, 0xAB, 0, 0, 0, 0, 0, 0], parseCmd false 0 ([9, 0, 1, 0, 0xCD, 0xAB, 0, 0, 0, 0, 0, 0] : Bytes), cmd 2 R.CLK_CTRL 1 [1, 2, 3, 4], by decide +kernel⟩
  · exact ⟨ofDev ({ run with cip := { run.cip with slots := [(255, slot1)] }, cmd := { run.cmd with queue := [{ cmd 10 0 0 [] with mgmt := true, frame := 3 }], replies := [⟨3, 1, [], [192, 0, 2, 1], 4000⟩] } } |>.put R.CMD_MGMT F.CMD_MGMT_key_slot 255), { cmd 10 0 0 [] with mgmt := true, frame := 3 }, ⟨3, 1, [], [192, 0, 2, 1], 4000⟩, by decide +kernel⟩

/-- The hypotheses of Obligations.I2cCarriesCommands can be met, clause by clause. -/
theorem wit_I2cCarriesCommands :
    (∃ (s : State) (bs : Bytes) (c : Cmd), s.dev.portAnswers = true ∧ bs ≠ [] ∧ c = parseCmd false 0 bs ∧ c.op ≠ 9 ∧ s.dev.cmd.queue = [] ∧
      s.dev.preStatus c = none) ∧
    (∃ (s : State) (bs : Bytes) (c : Cmd) (st : Nat), s.dev.portAnswers = true ∧ bs ≠ [] ∧ c = parseCmd false 0 bs ∧ c.op ≠ 9 ∧ s.dev.cmd.queue = [] ∧
      s.dev.cmd.busy = none ∧ s.dev.heldRecs false < 32 ∧ s.dev.preStatus c = some st) ∧
    (∃ (s : State) (bs : Bytes) (c : Cmd) (st : Nat), s.dev.portAnswers = true ∧ bs ≠ [] ∧ c = parseCmd false 0 bs ∧ c.op ≠ 9 ∧ s.dev.cmd.queue = [] ∧
      s.dev.cmd.busy = none ∧ s.dev.heldRecs false < 32 ∧ s.dev.preStatus c = some st) ∧
    (∃ (s : State), s.dev.portAnswers = true ∧ 32 ≤ s.dev.cmd.queue.length) ∧
    (∃ (s : State) (r : CmdRec) (rest : List CmdRec), s.dev.portAnswers = true ∧ s.dev.cmd.i2c = r :: rest ∧ s.dev.cmd.queue = [] ∧ s.dev.evt.pend =
      []) ∧
    (∃ (s : State) (r : CmdRec) (rest : List CmdRec), s.dev.portAnswers = true ∧ s.dev.cmd.i2c = r :: rest ∧ s.dev.cmd.queue = [] ∧ s.dev.evt.pend =
      []) ∧
    (∃ (s : State), s.dev.portAnswers = true ∧ s.dev.cmd.i2c = []) ∧
    (∃ (s : State), s.dev.portAnswers = true) := by
  refine ⟨?_, ?_, ?_, ?_, ?_, ?_, ?_, ?_⟩
  · exact ⟨ofDev run, [10, 0, 1, 0, 0, 0, 0, 0, 0, 0, 0, 0], parseCmd false 0 ([10, 0, 1, 0, 0, 0, 0, 0, 0, 0, 0, 0] : Bytes), by decide +kernel⟩
  · exact ⟨ofDev run, [11, 0, 1, 0, 0, 0, 0, 0, 0, 0, 0, 0], parseCmd false 0 ([11, 0, 1, 0, 0, 0, 0, 0, 0, 0, 0, 0] : Bytes), 3, by decide +kernel⟩
  · exact ⟨ofDev run, [1], parseCmd false 0 ([1] : Bytes), 3, by decide +kernel⟩
  · exact ⟨ofDev { run with cmd := { run.cmd with queue := List.replicate 32 (cmd 10 0 0 []) } }, by decide +kernel⟩
  · exact ⟨ofDev { run with cmd := { run.cmd with i2c := [⟨false, 10, 0, 7, false, false, 5, [1, 2, 3, 4]⟩] } }, ⟨false, 10, 0, 7, false, false, 5, [1, 2, 3, 4]⟩, [], by decide +kernel⟩
  · exact ⟨ofDev { run with cmd := { run.cmd with i2c := [⟨false, 10, 0, 7, false, false, 5, [1, 2, 3, 4]⟩] } }, ⟨false, 10, 0, 7, false, false, 5, [1, 2, 3, 4]⟩, [], by decide +kernel⟩
  · exact ⟨ofDev run, by decide +kernel⟩
  · exact ⟨ofDev run, by decide +kernel⟩

/-- The hypotheses of Obligations.ManagementFramesAreJudged can be met, clause by clause. -/
theorem wit_ManagementFramesAreJudged :
    (∃ (s : State) (f : MgmtFrame) (rest : List MgmtFrame), s.dev.hubUp = true ∧ s.dev.mgmtIn = f :: rest ∧ ((f.body.length < 20 ∨ leAt f.body 0 4 ≠
      1))) ∧
    (∃ (s : State) (f : MgmtFrame) (rest : List MgmtFrame), s.dev.hubUp = true ∧ s.dev.mgmtIn = f :: rest ∧ ((f.body.length < 20 ∨ leAt f.body 0 4 ≠
      1))) ∧
    (∃ (s : State) (f : MgmtFrame) (rest : List MgmtFrame), s.dev.hubUp = true ∧ s.dev.mgmtIn = f :: rest ∧ 20 ≤ f.body.length ∧ leAt f.body 0 4 = 1 ∧
      (({ s.dev with mgmtIn := rest }).cmacOf (s.dev.get R.CMD_MGMT F.CMD_MGMT_key_slot) (f.body.take (f.body.length - 8))).2 = some (f.body.drop
      (f.body.length - 8)) ∧ s.dev.cmd.logging = none ∧ s.dev.cmd.replay < leAt f.body 4 8) ∧
    (∃ (s : State) (f : MgmtFrame) (rest : List MgmtFrame), s.dev.hubUp = true ∧ s.dev.mgmtIn = f :: rest ∧ 20 ≤ f.body.length ∧ leAt f.body 0 4 = 1 ∧
      (({ s.dev with mgmtIn := rest }).cmacOf (s.dev.get R.CMD_MGMT F.CMD_MGMT_key_slot) (f.body.take (f.body.length - 8))).2 = some (f.body.drop
      (f.body.length - 8)) ∧ s.dev.cmd.logging = none ∧ leAt f.body 4 8 ≤ s.dev.cmd.replay) ∧
    (∃ (s : State) (v : Nat), s.dev.hubUp = true ∧ s.dev.cmd.logging = some v) ∧
    (∃ (s : State), s.dev.hubUp = true ∧ s.dev.evt.pend = [] ∧ s.dev.flag R.CMD_MGMT F.CMD_MGMT_mgmt_en = false) ∧
    (∃ (s : State) (e : Dev) (body : Bytes), s.dev.hubUp = true ∧ s.dev.flag R.CMD_MGMT F.CMD_MGMT_mgmt_en = true ∧ s.dev.evt.mgmtOut ≠ [] ∧
      s.dev.evt.mgmtOut.length ≤ 32 ∧ (s.dev.template (s.dev.get R.EVT_NOTIFY F.EVT_NOTIFY_tmpl)).getD 0 0 / 2 ^ 28 < 8 ∧ ({ s.dev with evt := {
      s.dev.evt with mgmtOut := [] } }).ownFrame (s.dev.evt.mgmtOut.flatMap (fun (p : Nat × LogRec) => CmdRec.bytes ⟨true, 64, 0, p.1, false, false,
      p.2.seq, p.2.bytes⟩)) = (e, some body)) := by
  refine ⟨?_, ?_, ?_, ?_, ?_, ?_, ?_⟩
  · exact ⟨ofDev { run with mgmtIn := [⟨[192, 0, 2, 1], 4000, List.replicate 19 0⟩] }, ⟨[192, 0, 2, 1], 4000, List.replicate 19 0⟩, [], by decide +kernel⟩
  · exact ⟨ofDev { run with mgmtIn := [⟨[192, 0, 2, 1], 4000, List.replicate 20 0⟩] }, ⟨[192, 0, 2, 1], 4000, List.replicate 20 0⟩, [], by decide +kernel⟩
  · exact ⟨ofDev ({ run with cip := { run.cip with slots := [(0, slot1)] }, mgmtIn := [mfr 65537], cmd := { run.cmd with replay := 65536 } }), mfr 65537, [], by decide +kernel⟩
  · exact ⟨ofDev ({ run with cip := { run.cip with slots := [(0, slot1)] }, mgmtIn := [mfr 65536], cmd := { run.cmd with replay := 65536 } }), mfr 65536, [], by decide +kernel⟩
  · exact ⟨ofDev { run with cmd := { run.cmd with logging := some 65536, logNo := 1 } }, 65536, by decide +kernel⟩
  · exact ⟨ofDev { run with evt := { run.evt with mgmtOut := [(3, ⟨1, 2, 3, 4⟩)] } }, by decide +kernel⟩
  · exact ⟨ofDev ({ run with cip := { run.cip with slots := [(0, slot1)] }, evt := { run.evt with mgmtOut := [(3, ⟨1, 2, 3, 4⟩)] } } |>.put R.CMD_MGMT F.CMD_MGMT_mgmt_en 1), (({ (ofDev ({ run with cip := { run.cip with slots := [(0, slot1)] }, evt := { run.evt with mgmtOut := [(3, ⟨1, 2, 3, 4⟩)] } } |>.put R.CMD_MGMT F.CMD_MGMT_mgmt_en 1) : State).dev with evt := { (ofDev ({ run with cip := { run.cip with slots := [(0, slot1)] }, evt := { run.evt with mgmtOut := [(3, ⟨1, 2, 3, 4⟩)] } } |>.put R.CMD_MGMT F.CMD_MGMT_mgmt_en 1) : State).dev.evt with mgmtOut := [] } }).ownFrame ((ofDev ({ run with cip := { run.cip with slots := [(0, slot1)] }, evt := { run.evt with mgmtOut := [(3, ⟨1, 2, 3, 4⟩)] } } |>.put R.CMD_MGMT F.CMD_MGMT_mgmt_en 1) : State).dev.evt.mgmtOut.flatMap (fun (p : Nat × LogRec) => CmdRec.bytes ⟨true, 64, 0, p.1, false, false, p.2.seq, p.2.bytes⟩))).1, ((({ (ofDev ({ run with cip := { run.cip with slots := [(0, slot1)] }, evt := { run.evt with mgmtOut := [(3, ⟨1, 2, 3, 4⟩)] } } |>.put R.CMD_MGMT F.CMD_MGMT_mgmt_en 1) : State).dev with evt := { (ofDev ({ run with cip := { run.cip with slots := [(0, slot1)] }, evt := { run.evt with mgmtOut := [(3, ⟨1, 2, 3, 4⟩)] } } |>.put R.CMD_MGMT F.CMD_MGMT_mgmt_en 1) : State).dev.evt with mgmtOut := [] } }).ownFrame ((ofDev ({ run with cip := { run.cip with slots := [(0, slot1)] }, evt := { run.evt with mgmtOut := [(3, ⟨1, 2, 3, 4⟩)] } } |>.put R.CMD_MGMT F.CMD_MGMT_mgmt_en 1) : State).dev.evt.mgmtOut.flatMap (fun (p : Nat × LogRec) => CmdRec.bytes ⟨true, 64, 0, p.1, false, false, p.2.seq, p.2.bytes⟩))).2).getD [], by decide +kernel⟩

/-- The hypotheses of Obligations.NvmWriteHasPhases can be met, clause by clause. -/
theorem wit_NvmWriteHasPhases :
    (∃ (s : State) (c : Cmd), s.dev.hubUp = true ∧ s.dev.cmd.busy = none ∧ s.dev.headCmd = some c ∧ c.op = 7 ∧ c.arg = 0) ∧
    (∃ (s : State) (c : Cmd), s.dev.hubUp = true ∧ s.dev.cmd.busy = none ∧ s.dev.headCmd = some c ∧ c.op = 7 ∧ c.arg = 1 ∧ s.dev.nvmOpenNow = true) ∧
    (∃ (s : State) (c : Cmd), s.dev.hubUp = true ∧ s.dev.cmd.busy = none ∧ s.dev.headCmd = some c ∧ c.op = 7 ∧ c.arg = 1 ∧ s.dev.nvmOpenNow = false) ∧
    (∃ (s : State) (c : Cmd), s.dev.hubUp = true ∧ s.dev.cmd.busy = none ∧ s.dev.headCmd = some c ∧ c.op = 7 ∧ c.arg = 2 ∧ s.dev.nvmOpenNow = true ∧
      s.dev.boot.phase = .run ∧ s.dev.boot.inForce = some (1 - s.dev.nvmCopy) ∧ newer c.addr (headSeq (s.dev.header (1 - s.dev.nvmCopy))) = false) ∧
    (∃ (s : State) (c : Cmd), s.dev.hubUp = true ∧ s.dev.cmd.busy = none ∧ s.dev.headCmd = some c ∧ c.op = 7 ∧ c.arg = 2 ∧ s.dev.nvmOpenNow = true ∧
      s.dev.boot.phase = .run ∧ s.dev.boot.inForce = some (1 - s.dev.nvmCopy) ∧ newer c.addr (headSeq (s.dev.header (1 - s.dev.nvmCopy))) = true ∧
      headFixed (s.dev.header s.dev.nvmCopy) = true ∧ headLen (s.dev.header s.dev.nvmCopy) = true ∧ s.dev.bodyCause s.dev.nvmCopy = 0) ∧
    (∃ (s : State) (c : Cmd), s.dev.hubUp = true ∧ s.dev.cmd.busy = none ∧ s.dev.headCmd = some c ∧ c.op = 7 ∧ c.arg = 2 ∧ s.dev.nvmOpenNow = true ∧
      s.dev.boot.phase = .run ∧ s.dev.boot.inForce = some (1 - s.dev.nvmCopy) ∧ newer c.addr (headSeq (s.dev.header (1 - s.dev.nvmCopy))) = true ∧
      s.dev.crcOk s.dev.nvmCopy = false) ∧
    (∃ (s : State) (c : Cmd), s.dev.hubUp = true ∧ s.dev.cmd.queue = [c] ∧ c.op = 7 ∧ c.lost = false ∧ s.dev.cmd.busy = some .nvmOpen) ∧
    (∃ (s : State) (c : Cmd), s.dev.hubUp = true ∧ s.dev.cmd.queue = [c] ∧ c.op = 7 ∧ c.lost = false ∧ s.dev.cmd.busy = some .nvmData) ∧
    (∃ (s : State) (c : Cmd), s.dev.hubUp = true ∧ s.dev.cmd.queue = [c] ∧ c.op = 7 ∧ c.lost = false ∧ s.dev.cmd.busy = some .nvmClose) ∧
    (∃ (s : State) (c : Cmd), s.dev.hubUp = true ∧ s.dev.cmd.queue = [c] ∧ c.op = 7 ∧ c.lost = false ∧ ((s.dev.cmd.busy = some .nvmOpen ∨
      s.dev.cmd.busy = some .nvmData ∨ s.dev.cmd.busy = some .nvmClose))) := by
  refine ⟨?_, ?_, ?_, ?_, ?_, ?_, ?_, ?_, ?_, ?_⟩
  · exact ⟨withCmd (cmd 7 0 0 []) run, cmd 7 0 0 [], by decide +kernel⟩
  · exact ⟨withCmd (cmd 7 12 1 [1, 2, 3, 4]) (run.put R.CFG_NVM F.CFG_NVM_phase 1), cmd 7 12 1 [1, 2, 3, 4], by decide +kernel⟩
  · exact ⟨withCmd (cmd 7 12 1 [1, 2, 3, 4]) run, cmd 7 12 1 [1, 2, 3, 4], by decide +kernel⟩
  · exact ⟨closing 1 (cmd 7 1 2 []), cmd 7 1 2 [], by decide +kernel, by decide +kernel, by decide +kernel, by decide +kernel, by decide +kernel, by decide +kernel, by decide +kernel, by decide +kernel, by rw [show 1 - (closing 1 (cmd 7 1 2 [])).dev.nvmCopy = 0 from rfl, images_header0 _ rfl]; decide +kernel⟩
  · exact ⟨closing 0 (cmd 7 3 2 []), cmd 7 3 2 [], by decide +kernel, by decide +kernel, by decide +kernel, by decide +kernel, by decide +kernel, by decide +kernel, by decide +kernel, by decide +kernel, by rw [show 1 - (closing 0 (cmd 7 3 2 [])).dev.nvmCopy = 1 from rfl, images_header1 _ rfl]; decide +kernel, by rw [show (closing 0 (cmd 7 3 2 [])).dev.nvmCopy = 0 from rfl, images_header0 _ rfl]; decide +kernel, by rw [show (closing 0 (cmd 7 3 2 [])).dev.nvmCopy = 0 from rfl, images_header0 _ rfl]; decide +kernel, images_cause _ rfl rfl⟩
  · exact ⟨closing 1 (cmd 7 2 2 []), cmd 7 2 2 [], by decide +kernel, by decide +kernel, by decide +kernel, by decide +kernel, by decide +kernel, by decide +kernel, by decide +kernel, by decide +kernel, by rw [show 1 - (closing 1 (cmd 7 2 2 [])).dev.nvmCopy = 0 from rfl, images_header0 _ rfl]; decide +kernel, by rw [show (closing 1 (cmd 7 2 2 [])).dev.nvmCopy = 1 from rfl]; unfold Dev.crcOk; rw [images_header1 _ rfl, images_body1 _ rfl]; decide +kernel⟩
  · exact ⟨busy .nvmOpen (cmd 7 0 0 []) run, cmd 7 0 0 [], by decide +kernel⟩
  · exact ⟨busy .nvmData (cmd 7 12 1 [1, 2, 3, 4]) { run with nvmCopy := 1 }, cmd 7 12 1 [1, 2, 3, 4], by decide +kernel⟩
  · exact ⟨busy .nvmClose (cmd 7 5 2 []) { run with nvmCopy := 1 }, cmd 7 5 2 [], by decide +kernel⟩
  · exact ⟨busy .nvmData (cmd 7 12 1 [1, 2, 3, 4]) { run with nvmCopy := 1 }, cmd 7 12 1 [1, 2, 3, 4], by decide +kernel⟩

/-- The hypotheses of Obligations.TheNewerCopyComesFirst can be met, clause by clause. -/
theorem wit_TheNewerCopyComesFirst :
    ∃ d : Dev, headCause (d.header 0) = 0 ∧ headCause (d.header 1) = 0 := by
  exact ⟨{ rs with flash := twoImages }, by rw [images_header0 _ rfl]; decide +kernel, by rw [images_header1 _ rfl]; decide +kernel⟩

/-- The hypotheses of Obligations.BootEndsInRunOrBootFail can be met, clause by clause. -/
theorem wit_BootEndsInRunOrBootFail :
    (∃ (s : State) (x : Nat) (rest : List Nat), s.dev.hubUp = true ∧ s.dev.boot.phase = .idle ∧ s.dev.goodHeads = x :: rest ∧ s.dev.bodyCause x = 0 ∧
      (takeRec (wordsOf (s.dev.copyBody x))).map (·.1) = some .finish ∧ s.dev.cmd.queue = []) ∧
    (∃ (s : State), s.dev.hubUp = true ∧ s.dev.boot.phase = .idle ∧ s.dev.goodHeads = []) ∧
    (∃ (s : State) (e : Dev) (t : Nat) (a : Nat) (m : Nat) (v : Nat), s.dev.hubUp = true ∧ s.dev.boot.phase = .applying ∧ s.dev.boot.poll = some (a,
      m, v) ∧ (s.dev.at_ t).pollMet a m v = (e, true) ∧ e.boot = s.dev.boot ∧ e.pwr = s.dev.pwr ∧ (takeRec s.dev.boot.rest).map (·.1) = some .finish) ∧
    (∃ (s : State) (t : Nat) (a : Nat) (m : Nat) (v : Nat) (e : Dev), s.dev.hubUp = true ∧ s.dev.boot.phase = .applying ∧ s.dev.boot.poll = some (a,
      m, v) ∧ (s.dev.at_ t).pollMet a m v = (e, false)) ∧
    (∃ (s : State) (t : Nat) (p : Nat × Nat × Nat), s.dev.hubUp = true ∧ s.dev.boot.phase = .applying ∧ s.dev.boot.poll = some p ∧ s.dev.boot.others =
      [] ∧ s.dev.boot.pollBy ≤ xoOf s t) ∧
    (∃ (s : State) (t : Nat) (p : Nat × Nat × Nat), s.dev.hubUp = true ∧ s.dev.boot.phase = .applying ∧ s.dev.boot.poll = some p ∧ xoOf s t <
      s.dev.boot.pollBy) := by
  refine ⟨?_, ?_, ?_, ?_, ?_, ?_⟩
  · exact ⟨ofDev { rs with pubDigest := pubDig, flash := flashAt 0 imageA ++ [] }, 0, [], by decide +kernel, by decide +kernel, oneImage_goodHeads _ rfl, image_cause _ [] rfl rfl, by rw [image_body _ _ rfl]; decide +kernel, by decide +kernel⟩
  · exact ⟨State.reset, by decide +kernel⟩
  · exact ⟨ofDev { rs with boot := { rs.boot with phase := .applying, cur := 1, poll := some (R.CLK_CTRL, 0, 0), pollBy := 5, rest := [0x60000000, 0] } }, (((ofDev { rs with boot := { rs.boot with phase := .applying, cur := 1, poll := some (R.CLK_CTRL, 0, 0), pollBy := 5, rest := [0x60000000, 0] } } : State).dev.at_ (nt0 : Nat)).pollMet (R.CLK_CTRL : Nat) (0 : Nat) (0 : Nat)).1, nt0, R.CLK_CTRL, 0, 0, by decide +kernel⟩
  · exact ⟨ofDev { rs with boot := { rs.boot with phase := .applying, cur := 1, poll := some (R.CLK_CTRL, 0, 1), pollBy := 5, rest := [0x60000000, 0] } }, nt0, R.CLK_CTRL, 0, 1, (((ofDev { rs with boot := { rs.boot with phase := .applying, cur := 1, poll := some (R.CLK_CTRL, 0, 1), pollBy := 5, rest := [0x60000000, 0] } } : State).dev.at_ (nt0 : Nat)).pollMet (R.CLK_CTRL : Nat) (0 : Nat) (1 : Nat)).1, by decide +kernel⟩
  · exact ⟨ofDev { rs with boot := { rs.boot with phase := .applying, cur := 1, poll := some (R.CLK_CTRL, 0, 1), pollBy := 5, rest := [0x60000000, 0] } }, nt0 + 5, (R.CLK_CTRL, 0, 1), by decide +kernel⟩
  · exact ⟨ofDev { rs with boot := { rs.boot with phase := .applying, cur := 1, poll := some (R.CLK_CTRL, 0, 1), pollBy := 5, rest := [0x60000000, 0] } }, nt0 + 4, (R.CLK_CTRL, 0, 1), by decide +kernel⟩

/-- The hypotheses of Obligations.PowerStatesAreEntered can be met, clause by clause. -/
theorem wit_PowerStatesAreEntered :
    (∃ (s : State) (c : Cmd), s.dev.hubUp = true ∧ s.dev.cmd.busy = none ∧ s.dev.headCmd = some c ∧ c.op = 8 ∧ c.addr = 0 ∧ c.arg = 1 ∧
      s.dev.basebandsOn ≠ []) ∧
    (∃ (s : State) (c : Cmd), s.dev.hubUp = true ∧ s.dev.cmd.busy = none ∧ s.dev.headCmd = some c ∧ c.op = 8 ∧ c.addr = 0 ∧ c.arg = 1 ∧ ((∀ k, 2 ≤ k →
      k ≤ 6 → s.dev.dom k = 0))) ∧
    (∃ (s : State) (c : Cmd), s.dev.hubUp = true ∧ s.dev.cmd.busy = none ∧ s.dev.headCmd = some c ∧ c.op = 8 ∧ c.addr = 0 ∧ c.arg = 2 ∧ s.dev.fullRun
      = true ∧ s.dev.basebandsOn ≠ []) ∧
    (∃ (s : State) (c : Cmd), s.dev.hubUp = true ∧ s.dev.cmd.busy = none ∧ s.dev.headCmd = some c ∧ c.op = 8 ∧ c.addr = 0 ∧ c.arg = 2 ∧ s.dev.pwr.mode
      = .vigil ∧ s.dev.pwr.entry = none ∧ s.dev.pwr.wake = none) ∧
    (∃ (s : State) (c : Cmd), s.dev.hubUp = true ∧ s.dev.cmd.busy = none ∧ s.dev.headCmd = some c ∧ c.op = 8 ∧ c.addr = 1 ∧ c.arg.testBit 8 = false ∧
      s.dev.present (dieOfDom (c.arg % 16)) = true ∧ s.dev.dom (c.arg % 16) ≠ 0 ∧ s.dev.basebandsOn ≠ [c.arg % 16]) ∧
    (∃ (s : State) (c : Cmd), s.dev.hubUp = true ∧ s.dev.cmd.busy = none ∧ s.dev.headCmd = some c ∧ c.op = 8 ∧ c.addr = 1 ∧ c.arg.testBit 8 = false ∧
      s.dev.present (dieOfDom (c.arg % 16)) = true ∧ s.dev.dom (c.arg % 16) ≠ 0 ∧ s.dev.basebandsOn ≠ [c.arg % 16]) ∧
    (∃ (s : State) (c : Cmd), s.dev.hubUp = true ∧ s.dev.cmd.busy = none ∧ s.dev.headCmd = some c ∧ c.op = 8 ∧ c.addr = 1 ∧ c.arg.testBit 8 = false ∧
      s.dev.present (dieOfDom (c.arg % 16)) = false) ∧
    (∃ (s : State) (c : Cmd), s.dev.hubUp = true ∧ s.dev.cmd.busy = none ∧ s.dev.headCmd = some c ∧ c.op = 8 ∧ c.addr = 1 ∧ c.arg.testBit 8 = false ∧
      s.dev.present (dieOfDom (c.arg % 16)) = false) ∧
    (∃ (s : State) (c : Cmd), s.dev.hubUp = true ∧ s.dev.cmd.busy = none ∧ s.dev.headCmd = some c ∧ c.op = 8 ∧ c.addr = 1 ∧ c.arg.testBit 8 = false ∧
      s.dev.present (dieOfDom (c.arg % 16)) = true ∧ s.dev.dom (c.arg % 16) ≠ 0 ∧ s.dev.basebandsOn = [c.arg % 16]) ∧
    (∃ (s : State) (c : Cmd), s.dev.hubUp = true ∧ s.dev.cmd.busy = none ∧ s.dev.headCmd = some c ∧ c.op = 8 ∧ c.addr = 1 ∧ c.arg.testBit 8 = true ∧
      s.dev.present (dieOfDom (c.arg % 16)) = true ∧ s.dev.dom (c.arg % 16) = 0) ∧
    (∃ (s : State) (c : Cmd), s.dev.hubUp = true ∧ s.dev.cmd.busy = none ∧ s.dev.headCmd = some c ∧ c.op = 8 ∧ c.addr = 1 ∧ c.arg.testBit 8 = true ∧
      s.dev.present (dieOfDom (c.arg % 16)) = true ∧ s.dev.dom (c.arg % 16) ≠ 0) ∧
    (∃ (s : State) (k : Fin 9) (c : Cmd) (q : List Cmd), s.dev.hubUp = true ∧ 2 ≤ k.val ∧ k.val ≤ 6 ∧ s.dev.dom k.val = 2 ∧ s.dev.cmd.queue = c :: q ∧
      s.dev.cmd.busy = some (.domain k.val false) ∧ c.lost = false) ∧
    (∃ (s : State) (k : Fin 9) (c : Cmd) (q : List Cmd), s.dev.hubUp = true ∧ 2 ≤ k.val ∧ k.val ≤ 6 ∧ s.dev.dom k.val = 2 ∧ s.dev.cmd.queue = c :: q ∧
      s.dev.cmd.busy = some (.domain k.val false) ∧ c.lost = false) ∧
    (∃ (s : State), s.dev.hubUp = true ∧ s.dev.dom 8 = 2) ∧
    (∃ (s : State) (k : Fin 9) (t : Nat) (cause : Nat) (c : Cmd) (q : List Cmd) (e : Dev), s.dev.hubUp = true ∧ 2 ≤ k.val ∧ k.val ≤ 6 ∧ s.dev.dom
      k.val = 3 ∧ s.dev.cmd.queue = c :: q ∧ s.dev.cmd.busy = some (.domain k.val true) ∧ c.lost = false ∧ ((s.dev.at_ t).dieReset (dieOfDom
      k.val)).reapply (dieOfDom k.val) = (e, cause) ∧ e.cmd = s.dev.cmd ∧ e.pwr = s.dev.pwr) ∧
    (∃ (s : State) (k : Fin 9) (t : Nat) (cause : Nat) (c : Cmd) (q : List Cmd) (e : Dev), s.dev.hubUp = true ∧ 2 ≤ k.val ∧ k.val ≤ 6 ∧ s.dev.dom
      k.val = 3 ∧ s.dev.cmd.queue = c :: q ∧ s.dev.cmd.busy = some (.domain k.val true) ∧ c.lost = false ∧ ((s.dev.at_ t).dieReset (dieOfDom
      k.val)).reapply (dieOfDom k.val) = (e, cause) ∧ e.cmd = s.dev.cmd ∧ e.pwr = s.dev.pwr) := by
  refine ⟨?_, ?_, ?_, ?_, ?_, ?_, ?_, ?_, ?_, ?_, ?_, ?_, ?_, ?_, ?_, ?_⟩
  · exact ⟨withCmd (cmd 8 0 1 []) run, cmd 8 0 1 [], by decide +kernel⟩
  · exact ⟨withCmd (cmd 8 0 1 []) { run with pwr := { run.pwr with doms := [(2, 0), (3, 0), (4, 0), (5, 0), (6, 0)] } }, cmd 8 0 1 [], by decide +kernel⟩
  · exact ⟨withCmd (cmd 8 0 2 []) run, cmd 8 0 2 [], by decide +kernel⟩
  · exact ⟨withCmd (cmd 8 0 2 []) { run with pwr := { run.pwr with mode := .vigil } }, cmd 8 0 2 [], by decide +kernel⟩
  · exact ⟨withCmd (cmd 8 1 6 []) run, cmd 8 1 6 [], by decide +kernel⟩
  · exact ⟨withCmd (cmd 8 1 2 []) run, cmd 8 1 2 [], by decide +kernel⟩
  · exact ⟨withCmd (cmd 8 1 6 []) { run with member := .tt3002 }, cmd 8 1 6 [], by decide +kernel⟩
  · exact ⟨withCmd (cmd 8 1 3 []) { run with member := .tt3002 }, cmd 8 1 3 [], by decide +kernel⟩
  · exact ⟨withCmd (cmd 8 1 2 []) (run.setDom 3 0), cmd 8 1 2 [], by decide +kernel⟩
  · exact ⟨withCmd (cmd 8 1 0x106 []) (run.setDom 6 0), cmd 8 1 0x106 [], by decide +kernel⟩
  · exact ⟨withCmd (cmd 8 1 0x102 []) run, cmd 8 1 0x102 [], by decide +kernel⟩
  · exact ⟨busy (.domain 2 false) (cmd 8 1 2 []) (run.setDom 2 2), 2, cmd 8 1 2 [], [], by decide +kernel⟩
  · exact ⟨busy (.domain 6 false) (cmd 8 1 6 []) (run.setDom 6 2), 6, cmd 8 1 6 [], [], by decide +kernel⟩
  · exact ⟨ofDev (run.setDom 8 2), by decide +kernel⟩
  · exact ⟨busy (.domain 6 true) (cmd 8 1 0x106 []) (run.setDom 6 3), 6, nt0, 0, cmd 8 1 0x106 [], [], ((((busy (.domain 6 true) (cmd 8 1 0x106 []) (run.setDom 6 3) : State).dev.at_ (nt0 : Nat)).dieReset (dieOfDom (6 : Fin 9).val)).reapply (dieOfDom (6 : Fin 9).val)).1, by decide +kernel⟩
  · exact ⟨busy (.domain 2 true) (cmd 8 1 0x102 []) ({ run with boot := { run.boot with inForce := some 1 } , flash := [(copyBase 1 + 12, 8), (copyBase 1 + 13, 0), (copyBase 1 + 14, 0), (copyBase 1 + 15, 0)] }.setDom 2 3), 2, nt0, 4, cmd 8 1 0x102 [], [], ((((busy (.domain 2 true) (cmd 8 1 0x102 []) ({ run with boot := { run.boot with inForce := some 1 } , flash := [(copyBase 1 + 12, 8), (copyBase 1 + 13, 0), (copyBase 1 + 14, 0), (copyBase 1 + 15, 0)] }.setDom 2 3) : State).dev.at_ (nt0 : Nat)).dieReset (dieOfDom (2 : Fin 9).val)).reapply (dieOfDom (2 : Fin 9).val)).1, by decide +kernel⟩

/-- The hypotheses of Obligations.AWakeWaitsForAnEntry can be met, clause by clause. -/
theorem wit_AWakeWaitsForAnEntry :
    (∃ (s : State) (e : PwrEntry), s.dev.jackAnswers = true ∧ s.dev.pwr.entry = some e ∧ s.dev.evt.pend = []) ∧
    (∃ (s : State) (e : PwrEntry) (k : Fin 9), s.dev.hubUp = true ∧ s.dev.pwr.entry = some e ∧ s.dev.pwr.wakePending = true ∧ ((k = 8 → e.dormant =
      true))) ∧
    (∃ (s : State) (e : PwrEntry) (k : Fin 9), s.dev.hubUp = true ∧ s.dev.pwr.entry = some e ∧ s.dev.pwr.wakePending = true ∧ ((k = 8 → e.dormant =
      true))) ∧
    (∃ (s : State) (w : Wake), s.dev.jackAnswers = true ∧ s.dev.pwr.wake = some w ∧ s.dev.pwr.wakePending = true ∧ s.dev.evt.pend = []) := by
  refine ⟨?_, ?_, ?_, ?_⟩
  · exact ⟨ofDev { jackDev with pwr := { jackDev.pwr with entry := some ⟨false, true⟩ } }, ⟨false, true⟩, by decide +kernel⟩
  · exact ⟨ofDev ({ run with pwr := { run.pwr with jack := true, wakePending := true, entry := some ⟨true, false⟩ } }.setDom 8 2), ⟨true, false⟩, 8, by decide +kernel⟩
  · exact ⟨ofDev ({ run with pwr := { run.pwr with jack := true, wakePending := true, entry := some ⟨false, true⟩, doms := [(2, 2), (3, 0), (4, 0), (5, 0), (6, 0)] } }), ⟨false, true⟩, 2, by decide +kernel⟩
  · exact ⟨ofDev { jackDev with pwr := { jackDev.pwr with wakePending := true, wake := some ⟨5, 0, 2⟩ } }, ⟨5, 0, 2⟩, by decide +kernel⟩

/-- The hypotheses of Obligations.WakesRunInStages can be met, clause by clause. -/
theorem wit_WakesRunInStages :
    (∃ (s : State), s.dev.jackAnswers = true ∧ s.dev.pwr.entry = none ∧ s.dev.pwr.wake = none) ∧
    (∃ (s : State), s.dev.jackAnswers = true ∧ s.dev.pwr.entry = none ∧ s.dev.pwr.wake = none) ∧
    (∃ (s : State), s.dev.jackAnswers = true ∧ s.dev.pwr.entry = none ∧ s.dev.pwr.wake = none) ∧
    (∃ (s : State), s.dev.jackAnswers = true) ∧
    (∃ (s : State), s.dev.jackAnswers = true) ∧
    (∃ (s : State), s.dev.jackAnswers = true) ∧
    (∃ (s : State) (w : Wake), s.dev.pwr.aoOn = true ∧ s.dev.pwr.wake = some w ∧ w.stage < 4) ∧
    (∃ (s : State) (w : Wake), s.dev.pwr.aoOn = true ∧ s.dev.pwr.wake = some w ∧ w.stage = 4 ∧ w.from_ ≠ 1) ∧
    (∃ (s : State) (w : Wake), s.dev.pwr.aoOn = true ∧ s.dev.pwr.wake = some w ∧ w.stage = 4 ∧ w.from_ = 1 ∧ s.dev.pwr.vigilOff = [] ∧ s.dev.pwr.hubOn
      = true) ∧
    (∃ (s : State) (w : Wake), s.dev.pwr.aoOn = true ∧ s.dev.pwr.wake = some w ∧ w.stage = 4 ∧ w.from_ = 1 ∧ s.dev.pwr.vigilOff ≠ []) ∧
    (∃ (s : State) (w : Wake), s.dev.pwr.aoOn = true ∧ s.dev.pwr.wake = some w ∧ w.stage < 5 ∧ w.timeouts < 3) ∧
    (∃ (s : State) (w : Wake), s.dev.pwr.aoOn = true ∧ s.dev.pwr.wake = some w ∧ w.stage < 5 ∧ 3 ≤ w.timeouts) ∧
    (∃ (s : State), s.dev.hubUp = true) := by
  refine ⟨?_, ?_, ?_, ?_, ?_, ?_, ?_, ?_, ?_, ?_, ?_, ?_, ?_⟩
  · exact ⟨ofDev { jackDev with pwr := { jackDev.pwr with mode := .vigil } }, by decide +kernel⟩
  · exact ⟨ofDev { jackDev with pwr := { jackDev.pwr with mode := .dormant, hubOn := false } }, by decide +kernel⟩
  · exact ⟨ofDev { jackDev with pwr := { jackDev.pwr with mode := .wakeFail, hubOn := false } }, by decide +kernel⟩
  · exact ⟨ofDev jackDev, by decide +kernel⟩
  · exact ⟨ofDev { jackDev with pwr := { jackDev.pwr with mode := .wakeFail, hubOn := false, failStage := 3 } }, by decide +kernel⟩
  · exact ⟨ofDev { jackDev with pwr := { jackDev.pwr with mode := .vigil, wakePending := true, entry := some ⟨true, true⟩ } }, by decide +kernel⟩
  · exact ⟨ofDev { jackDev with pwr := { jackDev.pwr with mode := .dormant, hubOn := false, wake := some ⟨1, 2, 2⟩ } }, ⟨1, 2, 2⟩, by decide +kernel⟩
  · exact ⟨ofDev { jackDev with pwr := { jackDev.pwr with mode := .dormant, hubOn := false, wake := some ⟨4, 0, 2⟩ } }, ⟨4, 0, 2⟩, by decide +kernel⟩
  · exact ⟨ofDev { jackDev with pwr := { jackDev.pwr with mode := .vigil, wake := some ⟨4, 0, 1⟩ } }, ⟨4, 0, 1⟩, by decide +kernel⟩
  · exact ⟨ofDev { jackDev with pwr := { jackDev.pwr with mode := .vigil, wake := some ⟨4, 0, 1⟩, vigilOff := [2, 3], doms := [(2, 0), (3, 0)] } }, ⟨4, 0, 1⟩, by decide +kernel⟩
  · exact ⟨ofDev { jackDev with pwr := { jackDev.pwr with mode := .dormant, hubOn := false, wake := some ⟨4, 2, 2⟩ } }, ⟨4, 2, 2⟩, by decide +kernel⟩
  · exact ⟨ofDev { jackDev with pwr := { jackDev.pwr with mode := .dormant, hubOn := false, wake := some ⟨4, 3, 2⟩ } }, ⟨4, 3, 2⟩, by decide +kernel⟩
  · exact ⟨ofDev { rs with pwr := { rs.pwr with failStage := 2 } }, by decide +kernel⟩

/-- The hypotheses of Obligations.RegistryCommands can be met, clause by clause. -/
theorem wit_RegistryCommands :
    (∃ (s : State) (addr : Nat), s.dev.hubUp = true ∧ leAt s.dev.regBuf 0 4 = addr ∧ s.dev.regEntry addr = none ∧ s.dev.sched.registry.length <
      2097152 ∧ s.dev.memUp = true ∧ addr ≠ 0 ∧ addr ≠ 0xFFFFFFFF ∧ byteAt s.dev.regBuf 168 ≤ 1) ∧
    (∃ (s : State) (addr : Nat), s.dev.hubUp = true ∧ leAt s.dev.regBuf 0 4 = addr ∧ s.dev.regEntry addr = none ∧ (2097152 ≤
      s.dev.sched.registry.length ∨ s.dev.memUp = false)) ∧
    (∃ (s : State) (addr : Nat), s.dev.hubUp = true ∧ leAt s.dev.regBuf 0 4 = addr ∧ s.dev.regEntry addr = none) ∧
    (∃ (s : State) (addr : Nat), s.dev.hubUp = true ∧ leAt s.dev.regBuf 0 4 = addr ∧ s.dev.regEntry addr = none) ∧
    (∃ (s : State) (addr : Nat) (e : RegEntry), s.dev.memUp = true ∧ leAt s.dev.regBuf 0 4 = addr ∧ s.dev.regEntry addr = some e ∧
      s.dev.sched.registry.length < 2097152) ∧
    (∃ (s : State) (addr : Nat) (e : RegEntry), s.dev.memUp = true ∧ leAt s.dev.regBuf 0 4 = addr ∧ s.dev.regEntry addr = some e ∧ s.dev.ctxOf addr =
      none ∧ e.image = []) ∧
    (∃ (s : State) (addr : Nat) (e : RegEntry), s.dev.memUp = true ∧ leAt s.dev.regBuf 0 4 = addr ∧ s.dev.regEntry addr = some e ∧ s.dev.ctxOf addr =
      none) ∧
    (∃ (s : State) (addr : Nat) (i : Nat) (e : RegEntry) (x : Ctx), s.dev.memUp = true ∧ leAt s.dev.regBuf 0 4 = addr ∧ s.dev.regEntry addr = some e ∧
      s.dev.ctxOf addr = some (i, x) ∧ (s.dev.flow i).inService = false) ∧
    (∃ (s : State) (addr : Nat) (i : Nat) (e : RegEntry) (x : Ctx), s.dev.memUp = true ∧ leAt s.dev.regBuf 0 4 = addr ∧ s.dev.regEntry addr = some e ∧
      s.dev.ctxOf addr = some (i, x) ∧ (s.dev.flow i).inService = true) ∧
    (∃ (s : State) (addr : Nat) (i : Nat) (e : RegEntry) (x : Ctx), s.dev.memUp = true ∧ leAt s.dev.regBuf 0 4 = addr ∧ s.dev.regEntry addr = some e ∧
      s.dev.ctxOf addr = some (i, x)) := by
  refine ⟨?_, ?_, ?_, ?_, ?_, ?_, ?_, ?_, ?_, ?_⟩
  · exact ⟨ofDev (regDev 1), 5, by decide +kernel⟩
  · exact ⟨ofDev (regDev 1 |>.setDom 7 0), 5, by decide +kernel⟩
  · exact ⟨ofDev (regDev 1), 5, by decide +kernel⟩
  · exact ⟨ofDev (regDev 1), 5, by decide +kernel⟩
  · exact ⟨ofDev { regDev 0 with sched := { rs.sched with registry := [(5, regd)] } }, 5, regd, by decide +kernel⟩
  · exact ⟨ofDev { regDev 0 with sched := { rs.sched with registry := [(5, regd)] } }, 5, regd, by decide +kernel⟩
  · exact ⟨ofDev { regDev 0 with sched := { rs.sched with registry := [(5, regd)] }, cip := { rs.cip with slots := [(256, { slot1 with owner := 5 })] } }, 5, regd, by decide +kernel⟩
  · exact ⟨ofDev { regDev 0 with sched := { rs.sched with registry := [(5, regd)], ctxs := [(65535, ctx0)] }, cip := { rs.cip with slots := [(256, { slot1 with owner := 5 })] } }, 5, 65535, regd, ctx0, by decide +kernel⟩
  · exact ⟨ofDev ({ regDev 0 with sched := { rs.sched with registry := [(5, regd)], ctxs := [(65535, ctx0)] } }.setFlow 65535 { Flow.reset with inService := true }), 5, 65535, regd, ctx0, by decide +kernel⟩
  · exact ⟨ofDev { regDev 0 with sched := { rs.sched with registry := [(5, regd)], ctxs := [(65535, ctx0)] } }, 5, 65535, regd, ctx0, by decide +kernel⟩

/-- The hypotheses of Obligations.NodeCommands can be met, clause by clause. -/
theorem wit_NodeCommands :
    (∃ (s : State) (b : Bool) (m : Fin 8) (p : Fin 16) (c : Instr), c ∈ [Instr.release, .pilotHold b, .revoke, .replace m p] ∧ s.dev.hubUp = true ∧
      s.dev.ctxOf (s.dev.word R.SCH_NODE_ADDR).toNat = none) ∧
    (∃ (s : State) (b : Bool) (m : Fin 8) (p : Fin 16) (c : Instr), c ∈ [Instr.release, .pilotHold b, .revoke, .replace m p] ∧ s.dev.hubUp = true ∧
      s.dev.ctxOf (s.dev.word R.SCH_NODE_ADDR).toNat = none) ∧
    (∃ (s : State) (b : Bool) (m : Fin 8) (p : Fin 16) (c : Instr), c ∈ [Instr.release, .pilotHold b, .revoke, .replace m p] ∧ s.dev.hubUp = true ∧
      s.dev.ctxOf (s.dev.word R.SCH_NODE_ADDR).toNat = none) ∧
    (∃ (s : State) (b : Bool) (m : Fin 8) (p : Fin 16) (c : Instr), c ∈ [Instr.release, .pilotHold b, .revoke, .replace m p] ∧ s.dev.hubUp = true ∧
      s.dev.ctxOf (s.dev.word R.SCH_NODE_ADDR).toNat = none) ∧
    (∃ (s : State) (i : Nat) (x : Ctx), s.dev.hubUp = true ∧ s.dev.ctxOf (s.dev.word R.SCH_NODE_ADDR).toNat = some (i, x) ∧ s.dev.ctx i = some x ∧
      (s.dev.flow i).inService = false) ∧
    (∃ (s : State) (i : Nat) (x : Ctx) (m : Fin 8) (p : Fin 16) (c : Instr), c ∈ [Instr.release, .replace m p] ∧ s.dev.hubUp = true ∧ s.dev.ctxOf
      (s.dev.word R.SCH_NODE_ADDR).toNat = some (i, x) ∧ s.dev.ctx i = some x ∧ (s.dev.flow i).inService = true) ∧
    (∃ (s : State) (i : Nat) (x : Ctx) (m : Fin 8) (p : Fin 16) (c : Instr), c ∈ [Instr.release, .replace m p] ∧ s.dev.hubUp = true ∧ s.dev.ctxOf
      (s.dev.word R.SCH_NODE_ADDR).toNat = some (i, x) ∧ s.dev.ctx i = some x ∧ (s.dev.flow i).inService = true) ∧
    (∃ (s : State) (i : Nat) (x : Ctx), s.dev.hubUp = true ∧ s.dev.ctxOf (s.dev.word R.SCH_NODE_ADDR).toNat = some (i, x) ∧ s.dev.ctx i = some x) ∧
    (∃ (s : State) (i : Nat) (x : Ctx), s.dev.hubUp = true ∧ s.dev.ctxOf (s.dev.word R.SCH_NODE_ADDR).toNat = some (i, x) ∧ s.dev.ctx i = some x) ∧
    (∃ (s : State) (i : Nat) (x : Ctx), s.dev.hubUp = true ∧ s.dev.ctxOf (s.dev.word R.SCH_NODE_ADDR).toNat = some (i, x) ∧ s.dev.ctx i = some x) ∧
    (∃ (s : State) (i : Nat) (x : Ctx), s.dev.hubUp = true ∧ s.dev.ctxOf (s.dev.word R.SCH_NODE_ADDR).toNat = some (i, x) ∧ s.dev.ctx i = some x ∧
      x.ctl.length ≤ 23) ∧
    (∃ (s : State) (i : Nat) (x : Ctx) (m : Fin 8) (p : Fin 16) (a : Grant) (g : Grant), s.dev.hubUp = true ∧ s.dev.ctxOf (s.dev.word
      R.SCH_NODE_ADDR).toNat = some (i, x) ∧ s.dev.ctx i = some x ∧ (s.dev.flow i).inService = false ∧ x.ctl.length ≤ 20 ∧ s.dev.findUplink
      (s.dev.reservations x.address) x m.val (s.dev.periodOf (2 ^ p.val)) (superOf s.dev.nt + 1) (m.val == 0 || x.pilot) = some (a, Grant.none) ∧
      s.dev.findDownlink (s.dev.reservations x.address ++ ([a, Grant.none].filter (fun g => g.radio != 3)).map (fun g => s.dev.ulResv x g (superOf
      s.dev.nt + 1) g.period)) x m.val (superOf s.dev.nt + 1) = some g ∧ a.radio ≠ 3 ∧ a.dl = false ∧ g.dl = true) ∧
    (∃ (s : State) (i : Nat) (x : Ctx) (m : Fin 8) (p : Fin 16), s.dev.hubUp = true ∧ s.dev.ctxOf (s.dev.word R.SCH_NODE_ADDR).toNat = some (i, x) ∧
      s.dev.ctx i = some x ∧ (s.dev.flow i).inService = false ∧ s.dev.findUplink (s.dev.reservations x.address) x m.val (s.dev.periodOf (2 ^ p.val))
      (superOf s.dev.nt + 1) (m.val == 0 || x.pilot) = none) := by
  refine ⟨?_, ?_, ?_, ?_, ?_, ?_, ?_, ?_, ?_, ?_, ?_, ?_, ?_⟩
  · exact ⟨ofDev (rs.setWord R.SCH_NODE_ADDR 5), true, 7, 15, .replace (7 : Fin 8) (15 : Fin 16), by decide +kernel⟩
  · exact ⟨ofDev (rs.setWord R.SCH_NODE_ADDR 5), true, 7, 15, .release, by decide +kernel⟩
  · exact ⟨ofDev (rs.setWord R.SCH_NODE_ADDR 5), true, 7, 15, .revoke, by decide +kernel⟩
  · exact ⟨ofDev (rs.setWord R.SCH_NODE_ADDR 5), true, 7, 15, .pilotHold (true : Bool), by decide +kernel⟩
  · exact ⟨ofDev ({ rs with sched := { rs.sched with registry := [(5, regd)], ctxs := [(65535, ctx0)] } }.setWord R.SCH_NODE_ADDR 5), 65535, ctx0, by decide +kernel⟩
  · exact ⟨ofDev (({ rs with sched := { rs.sched with ctxs := [(65535, ctx0)] } }.setWord R.SCH_NODE_ADDR 5).setFlow 65535 { Flow.reset with inService := true }), 65535, ctx0, 7, 15, .release, by decide +kernel⟩
  · exact ⟨ofDev (({ rs with sched := { rs.sched with ctxs := [(65535, ctx0)] } }.setWord R.SCH_NODE_ADDR 5).setFlow 65535 { Flow.reset with inService := true }), 65535, ctx0, 7, 15, .replace (7 : Fin 8) (15 : Fin 16), by decide +kernel⟩
  · exact ⟨ofDev ({ rs with sched := { rs.sched with ctxs := [(65535, ctx0)] } }.setWord R.SCH_NODE_ADDR 5), 65535, ctx0, by decide +kernel⟩
  · exact ⟨ofDev ({ rs with sched := { rs.sched with ctxs := [(65535, { ctx0 with ulA := ⟨0, 0, 0, 0, false, false, 64⟩ })] } }.setWord R.SCH_NODE_ADDR 5), 65535, { ctx0 with ulA := ⟨0, 0, 0, 0, false, false, 64⟩ }, by decide +kernel⟩
  · exact ⟨ofDev ({ rs with sched := { rs.sched with ctxs := [(65535, { ctx0 with pilotHold := true })] } }.setWord R.SCH_NODE_ADDR 5), 65535, { ctx0 with pilotHold := true }, by decide +kernel⟩
  · exact ⟨ofDev ({ rs with sched := { rs.sched with ctxs := [(65535, { ctx0 with ulA := ⟨0, 0, 0, 0, false, false, 64⟩, dlG := ⟨0, 0, 0, 0, false, true, 64⟩ })] } }.setWord R.SCH_NODE_ADDR 5), 65535, { ctx0 with ulA := ⟨0, 0, 0, 0, false, false, 64⟩, dlG := ⟨0, 0, 0, 0, false, true, 64⟩ }, by decide +kernel⟩
  · exact ⟨ofDev ({ rs with sched := { rs.sched with ctxs := [(65535, ctx0)] } }.setWord R.SCH_NODE_ADDR 5 |>.setWord (R.SCH_DIR_ACT 0 7) 0xFFFFFFFF), 65535, ctx0, 4, 15, (((ofDev ({ rs with sched := { rs.sched with ctxs := [(65535, ctx0)] } }.setWord R.SCH_NODE_ADDR 5 |>.setWord (R.SCH_DIR_ACT 0 7) 0xFFFFFFFF) : State).dev.findUplink ((ofDev ({ rs with sched := { rs.sched with ctxs := [(65535, ctx0)] } }.setWord R.SCH_NODE_ADDR 5 |>.setWord (R.SCH_DIR_ACT 0 7) 0xFFFFFFFF) : State).dev.reservations (ctx0 : Ctx).address) (ctx0 : Ctx) (4 : Fin 8).val ((ofDev ({ rs with sched := { rs.sched with ctxs := [(65535, ctx0)] } }.setWord R.SCH_NODE_ADDR 5 |>.setWord (R.SCH_DIR_ACT 0 7) 0xFFFFFFFF) : State).dev.periodOf (2 ^ (15 : Fin 16).val)) (superOf (ofDev ({ rs with sched := { rs.sched with ctxs := [(65535, ctx0)] } }.setWord R.SCH_NODE_ADDR 5 |>.setWord (R.SCH_DIR_ACT 0 7) 0xFFFFFFFF) : State).dev.nt + 1) ((4 : Fin 8).val == 0 || (ctx0 : Ctx).pilot)).map (·.1)).getD Grant.none, ((ofDev ({ rs with sched := { rs.sched with ctxs := [(65535, ctx0)] } }.setWord R.SCH_NODE_ADDR 5 |>.setWord (R.SCH_DIR_ACT 0 7) 0xFFFFFFFF) : State).dev.findDownlink ((ofDev ({ rs with sched := { rs.sched with ctxs := [(65535, ctx0)] } }.setWord R.SCH_NODE_ADDR 5 |>.setWord (R.SCH_DIR_ACT 0 7) 0xFFFFFFFF) : State).dev.reservations (ctx0 : Ctx).address ++ ([((((ofDev ({ rs with sched := { rs.sched with ctxs := [(65535, ctx0)] } }.setWord R.SCH_NODE_ADDR 5 |>.setWord (R.SCH_DIR_ACT 0 7) 0xFFFFFFFF) : State).dev.findUplink ((ofDev ({ rs with sched := { rs.sched with ctxs := [(65535, ctx0)] } }.setWord R.SCH_NODE_ADDR 5 |>.setWord (R.SCH_DIR_ACT 0 7) 0xFFFFFFFF) : State).dev.reservations (ctx0 : Ctx).address) (ctx0 : Ctx) (4 : Fin 8).val ((ofDev ({ rs with sched := { rs.sched with ctxs := [(65535, ctx0)] } }.setWord R.SCH_NODE_ADDR 5 |>.setWord (R.SCH_DIR_ACT 0 7) 0xFFFFFFFF) : State).dev.periodOf (2 ^ (15 : Fin 16).val)) (superOf (ofDev ({ rs with sched := { rs.sched with ctxs := [(65535, ctx0)] } }.setWord R.SCH_NODE_ADDR 5 |>.setWord (R.SCH_DIR_ACT 0 7) 0xFFFFFFFF) : State).dev.nt + 1) ((4 : Fin 8).val == 0 || (ctx0 : Ctx).pilot)).map (·.1)).getD Grant.none : Grant), Grant.none].filter (fun g => g.radio != 3)).map (fun g => (ofDev ({ rs with sched := { rs.sched with ctxs := [(65535, ctx0)] } }.setWord R.SCH_NODE_ADDR 5 |>.setWord (R.SCH_DIR_ACT 0 7) 0xFFFFFFFF) : State).dev.ulResv (ctx0 : Ctx) g (superOf (ofDev ({ rs with sched := { rs.sched with ctxs := [(65535, ctx0)] } }.setWord R.SCH_NODE_ADDR 5 |>.setWord (R.SCH_DIR_ACT 0 7) 0xFFFFFFFF) : State).dev.nt + 1) g.period)) (ctx0 : Ctx) (4 : Fin 8).val (superOf (ofDev ({ rs with sched := { rs.sched with ctxs := [(65535, ctx0)] } }.setWord R.SCH_NODE_ADDR 5 |>.setWord (R.SCH_DIR_ACT 0 7) 0xFFFFFFFF) : State).dev.nt + 1)).getD Grant.none, by decide +kernel⟩
  · exact ⟨ofDev ((List.range 8).foldl (fun d w => d.setWord (R.SCH_DIR_ACT 0 w) 0xFFFFFFFF) ({ rs with sched := { rs.sched with ctxs := [(65535, ctx0)] } }.setWord R.SCH_NODE_ADDR 5)), 65535, ctx0, 0, 15, by decide +kernel⟩

/-- The hypotheses of Obligations.RadioFrames can be met, clause by clause. -/
theorem wit_RadioFrames :
    ∃ (s u : State) (r : RadioId), s.dev.radioUp r = true ∧ exec (.overloadInterval r 0 65535 nt0) s = .next u ∧ ∃ r', r' ≠ r.val := by
  exact ⟨State.reset, _, 2, by decide +kernel, rfl, 0, by decide⟩

/-- The hypotheses of Obligations.EthernetFrames can be met, clause by clause. -/
theorem wit_EthernetFrames :
    ∃ (s u : State) (n : MacId), exec (.macCntClr n) s = .next u ∧ ∃ n', n' ≠ n.val := by
  exact ⟨State.reset, _, 7, rfl, 0, by decide⟩

/-- The hypotheses of Obligations.CipherFrames can be met, clause by clause. -/
theorem wit_CipherFrames :
    ∃ s u : State, exec .rootKeyBlow s = .next u := by
  exact ⟨State.reset, _, rfl⟩

/-- The hypotheses of Obligations.CoreFrames can be met, clause by clause. -/
theorem wit_CoreFrames :
    (∀ p ∈ slotCOps, Ready (core 63 { mc 0 0 (p.2 * 2 ^ 26 + (if p.2 = 0x17 then 0x400 else 0)) 0 with shadow := true }).dev 63 true p.2) ∧
    (∀ p ∈ moveOps, Ready (core 63 (mc 0 1 0 (p.2 * 2 ^ 28))).dev 63 false p.2 ∧ ((core 63 (mc 0 1 0 (p.2 * 2 ^ 28))).dev.mcore 63).slot = 1 ∧ xLegal
      false ((core 63 (mc 0 1 0 (p.2 * 2 ^ 28))).dev.mcore 63).slotWord = true) ∧
    (∀ op ∈ [0x1, 0x2, 0x3, 0x4, 0x5, 0x6], Ready (core 63 (mc 0 1 0 (op * 2 ^ 28))).dev 63 false op ∧ inLocal (((core 63 (mc 0 1 0 (op * 2 ^
      28))).dev.mcore 63).ptr (xP ((core 63 (mc 0 1 0 (op * 2 ^ 28))).dev.mcore 63).slotWord)) = true) := by
  refine ⟨?_, ?_, ?_⟩
  · exact by decide +kernel
  · exact by decide +kernel
  · exact by decide +kernel

end Sys2Proof.Tests
end

section
/-! PROOFS. A RAD_TX_START that fires while its radio is OFF, or is heading there (R119): what cancelling a burst set leaves, what the end of the
stretch of TX that follows it leaves, and the obligation itself. -/

namespace Sys2Proof

open Sys2Proof.Machine

/-! ## Registers of the radio dies and of the event system -/

/-- The registers of the dies stand above those that hold the event system's counts. -/
theorem not_mem_evtCounts {a : Nat} (h : 0x02000000 ≤ a) : a ∉ evtCounts := by
  simp only [evtCounts, R.EVT_LOG_STAT, R.EVT_NOTIFY, List.mem_cons, List.not_mem_nil, or_false]; omega

/-- The registers of the dies stand above those that hold the status bits. -/
theorem not_mem_evtStatuses {a : Nat} (h : 0x02000000 ≤ a) : a ∉ evtStatuses := by
  simp only [evtStatuses, R.EVT_STATUS_LO, R.EVT_STATUS_HI, List.mem_cons, List.not_mem_nil, or_false]; omega

theorem die_le_radState (r : Nat) : 0x02000000 ≤ R.RAD_STATE r := by unfold R.RAD_STATE; omega

theorem die_le_radTxCancel (r : Nat) : 0x02000000 ≤ R.RAD_TX_CANCEL r := by unfold R.RAD_TX_CANCEL; omega

theorem radTxCancel_ne_radState (r : Nat) : R.RAD_TX_CANCEL r ≠ R.RAD_STATE r := by unfold R.RAD_TX_CANCEL R.RAD_STATE; omega

theorem radState_ne_kalTxStatus (r : Nat) : R.RAD_STATE r ≠ R.KAL_TX_STATUS r := by unfold R.RAD_STATE R.KAL_TX_STATUS; omega

/-! ## A change of a radio's state leaves its bursts and the rest of the device -/

/-- The bursts that a radio sends and the burst sets that it holds. -/
def burstsOf (d : Dev) (r : Nat) : List Carrier × List HeldSet := ((d.radio r).air, (d.radio r).held)

theorem burstsOf_of_radios {d e : Dev} (h : e.radios = d.radios) (r : Nat) : burstsOf e r = burstsOf d r := by
  simp only [burstsOf, Dev.radio, h]

/-- A change of a radio's state: the radios, its RAD_STATE and its state event may change, its bursts on air and its held sets do not. -/
structure StateChange (r : Nat) (d e : Dev) : Prop where
  frame : Frame [.radios] [R.RAD_STATE r] [24 + r] d e
  bursts : burstsOf e r = burstsOf d r

section StateChange

variable {r : Nat} {d e f : Dev}

theorem StateChange.refl (d : Dev) : StateChange r d d := ⟨.refl d, rfl⟩

theorem StateChange.trans (h : StateChange r d e) (g : StateChange r e f) : StateChange r d f := ⟨h.frame.trans g.frame, g.bursts.trans h.bursts⟩

theorem StateChange.ite {c : Prop} [Decidable c] (h : StateChange r d e) (g : StateChange r d f) : StateChange r d (if c then e else f) := by
  split
  · exact h
  · exact g

/-- An update of the radio that keeps its bursts; that it does shows by unfolding where the update names other fields. -/
theorem StateChange.setRadio (d : Dev) (x : Radio) (h : (x.air, x.held) = burstsOf d r := by rfl) : StateChange r d (d.setRadio r x) :=
  ⟨.setRadio _ _ (List.mem_singleton_self _), by rw [← h, burstsOf, Dev.radio_setRadio]⟩

theorem StateChange.putRadState (d : Dev) (g : Fld) (v : Nat) : StateChange r d (d.put (R.RAD_STATE r) g v) :=
  ⟨.put _ _ _ (.inl (List.mem_singleton_self _)) (not_mem_evtStatuses (die_le_radState r)), rfl⟩

theorem StateChange.radEvent (hr : r < 3) (d : Dev) : StateChange r d (d.radEvent r) :=
  ⟨.raise _ _ _ (by omega) (List.mem_singleton_self _), burstsOf_of_radios (raise_radios ..) r⟩

theorem StateChange.logRx (d : Dev) (was : Nat) : StateChange r d (d.logRx r was) :=
  .ite (.refl d) (.setRadio d _)

theorem StateChange.enterVco (d : Dev) : StateChange r d (d.enterVco r) :=
  .ite (((StateChange.putRadState d _ _).trans (.logRx _ _)).trans (.setRadio _ _)) (.refl d)

theorem StateChange.startChange (d : Dev) (goal : Nat) : StateChange r d (d.startChange r goal) :=
  (StateChange.putRadState d _ _).trans (.enterVco _)

theorem StateChange.changeEnds (hr : r < 3) (d : Dev) : StateChange r d (d.changeEnds r) :=
  .ite ((StateChange.setRadio d _).trans (.radEvent hr _)) (.setRadio d _)

theorem StateChange.stretchEnds (hr : r < 3) (d : Dev) (t : Nat) (enOff forced : Bool) : StateChange r d (d.stretchEnds r t enOff forced) :=
  .ite ((StateChange.setRadio d _).trans (.startChange _ _))
    (((StateChange.setRadio d _).trans (.startChange _ _)).trans (.changeEnds hr _))

theorem StateChange.lastEnds (hr : r < 3) (d : Dev) (t : Nat) : StateChange r d (d.lastEnds r t) := by
  have ends := StateChange.stretchEnds hr d t false false
  refine .ite ends ?_
  split
  · exact .ite (.refl d) ends
  · exact ends

theorem StateChange.xampIdle (d : Dev) (t : Nat) : StateChange r d (d.xampIdle r t) := .ite (.refl d) (.setRadio d _)

/-- The end of a stretch of TX is a change of the radio's state and no more. -/
theorem StateChange.settleTx (hr : r < 3) (d : Dev) (t : Nat) : StateChange r d (d.settleTx r t) :=
  .ite (.ite (.ite (.refl d) (.lastEnds hr d t)) (.xampIdle d t)) (.refl d)

end StateChange

/-! ## Cancelling bursts -/

/-- Cancelling a burst writes RAD_TX_CANCEL and raises event 28, and leaves the rest. -/
theorem Frame.txCancel (d : Dev) (r cause : Nat) : Frame [] [R.RAD_TX_CANCEL r] [28] d (d.txCancel r cause) := by
  have hr : R.RAD_TX_CANCEL r ∈ [R.RAD_TX_CANCEL r] ∨ R.RAD_TX_CANCEL r ∈ evtCounts := .inl (List.mem_singleton_self _)
  have hs := not_mem_evtStatuses (die_le_radTxCancel r)
  exact ((Frame.put _ _ _ hr hs).trans (.bump _ _ hr hs)).trans (.raise _ _ _ (by decide) (List.mem_singleton_self _))

theorem Frame.txCancels (d : Dev) (r cause n : Nat) : Frame [] [R.RAD_TX_CANCEL r] [28] d (d.txCancels r cause n) :=
  .foldl _ (fun x _ => .txCancel x r cause) d

theorem txCancel_eq (d : Dev) (r cause : Nat) : d.txCancel r cause =
    ((d.put (R.RAD_TX_CANCEL r) F.RAD_TX_CANCEL_last_cause cause).bump (R.RAD_TX_CANCEL r) F.RAD_TX_CANCEL_count).raise 28 r cause := rfl

/-- A cancelled burst leaves its cause in RAD_TX_CANCEL. -/
theorem txCancel_last_cause (d : Dev) (r cause : Nat) (h : cause < 16) :
    (d.txCancel r cause).get (R.RAD_TX_CANCEL r) F.RAD_TX_CANCEL_last_cause = cause := by
  have hs := not_mem_evtStatuses (die_le_radTxCancel r)
  simp only [evtStatuses, List.mem_cons, List.not_mem_nil, or_false, not_or] at hs
  rw [txCancel_eq, raise_get _ _ _ _ _ hs.1 hs.2, Dev.bump, Dev.bumpBy, Dev.get_put_apart _ _ _ _ _ (by decide) (by decide) (by decide),
    Dev.get_put_same _ _ _ _ (by decide)]
  exact Nat.mod_eq_of_lt h

theorem dieIsolated_of_links {d e : Dev} (h : e.links = d.links) (die : Nat) : e.dieIsolated die = d.dieIsolated die := by
  simp only [Dev.dieIsolated, Dev.link, h]

/-- A cancelled burst raises event 28 while the HUB is on and the radio's die is not isolated. -/
theorem txCancel_evtStatus (d : Dev) (r cause : Nat) (hh : d.pwr.hubOn = true) (hi : d.dieIsolated (r + 1) = false) :
    (d.txCancel r cause).evtStatus 28 = true := by
  have hsrc : srcDie 28 = 0 := by decide
  have hdie : evtDie 28 r = r + 1 := by simp [evtDie]
  rw [txCancel_eq]
  refine evtStatus_raise _ 28 r cause ?_ ?_ ?_
  · rw [hsrc]; exact present_zero _
  · rw [hdie, dieIsolated_of_links (d := d) (by rw [Dev.bump_links, Dev.put_links]), hi]
  · rw [Dev.bump_pwr, Dev.put_pwr, hh]

/-- A number of bursts cancelled, of which the last one is told apart. -/
theorem txCancels_succ (d : Dev) (r cause n : Nat) : d.txCancels r cause (n + 1) = (d.txCancels r cause n).txCancel r cause := by
  simp only [Dev.txCancels, List.range_succ, List.foldl_append, List.foldl_cons, List.foldl_nil]

/-- Cancelling one burst or more leaves the cause of them in RAD_TX_CANCEL. -/
theorem txCancels_last_cause (d : Dev) (r cause : Nat) {n : Nat} (hn : n ≠ 0) (h : cause < 16) :
    (d.txCancels r cause n).get (R.RAD_TX_CANCEL r) F.RAD_TX_CANCEL_last_cause = cause := by
  obtain ⟨m, rfl⟩ := Nat.exists_eq_succ_of_ne_zero hn
  rw [Nat.succ_eq_add_one, txCancels_succ, txCancel_last_cause _ _ _ h]

/-- Cancelling one burst or more raises event 28. -/
theorem txCancels_evtStatus (d : Dev) (r cause : Nat) {n : Nat} (hn : n ≠ 0) (hh : d.pwr.hubOn = true) (hi : d.dieIsolated (r + 1) = false) :
    (d.txCancels r cause n).evtStatus 28 = true := by
  obtain ⟨m, rfl⟩ := Nat.exists_eq_succ_of_ne_zero hn
  obtain ⟨hparts, -, -⟩ := Frame.txCancels d r cause m
  have hpwr : (d.txCancels r cause m).pwr = d.pwr := hparts .pwr List.not_mem_nil
  rw [Nat.succ_eq_add_one, txCancels_succ]
  exact txCancel_evtStatus _ r cause (by rw [hpwr, hh]) (by rw [dieIsolated_of_links (hparts .links List.not_mem_nil), hi])

/-! ## The burst set that fires -/

/-- A chain is read from the registers alone. -/
theorem txChain_of_regs {d e : Dev} (h : e.regs = d.regs) (r fuel i : Nat) (seen : List Nat) :
    e.txChain r fuel i seen = d.txChain r fuel i seen := by
  have hdesc : ∀ j, e.txDesc r j = d.txDesc r j := fun j => by simp only [Dev.txDesc, Dev.descWord, Dev.word, h]
  induction fuel generalizing i seen with
  | zero => rfl
  | succ fuel ih => simp only [Dev.txChain, hdesc, ih]

theorem burstSet_of_regs {d e : Dev} (h : e.regs = d.regs) (r handle : Nat) : e.burstSet r handle = d.burstSet r handle := by
  simp only [Dev.burstSet, txChain_of_regs h]

/-- Check 2 of R510 refuses the burst set of a radio that is OFF or heading there. -/
theorem txCheck_off {d : Dev} {r : Nat} (h : d.radState r = radOFF ∨ d.radTarget r = radOFF) : d.txCheck r = some 5 := by
  rcases h with h | h <;> simp [Dev.txCheck, h]

/-- What stands after every burst of a set was cancelled with a cause: the bursts on air and the held sets are as they were, RAD_TX_CANCEL names the
cause, and event 28 was raised. -/
structure SetCancelled (r cause : Nat) (d e : Dev) : Prop where
  bursts : burstsOf e r = burstsOf d r
  acts : e.acts = d.acts
  last_cause : e.get (R.RAD_TX_CANCEL r) F.RAD_TX_CANCEL_last_cause = cause
  event : e.evtStatus 28 = true

/-- Cancelling the bursts of a set and ending the stretch of TX starts and holds nothing. -/
theorem setCancelled_settleTx (d : Dev) {r cause n : Nat} (handle t : Nat) (hr : r < 3) (hc : cause < 16) (hn : n ≠ 0)
    (hh : d.pwr.hubOn = true) (hi : d.dieIsolated (r + 1) = false) :
    SetCancelled r cause d (((d.txCancels r cause n).dropOwn r handle).settleTx r t) := by
  obtain ⟨hkept, -, -⟩ := Frame.txCancels d r cause n
  obtain ⟨⟨hparts, hregs, hevts⟩, hbursts⟩ := StateChange.settleTx hr ((d.txCancels r cause n).dropOwn r handle) t
  constructor
  case bursts => exact hbursts.trans (burstsOf_of_radios (hkept .radios List.not_mem_nil) r)
  case acts => exact (hparts .acts (by decide)).1.trans (hkept .acts List.not_mem_nil).1
  case last_cause =>
    rw [Dev.get, hregs _ (by simpa using radTxCancel_ne_radState r) (not_mem_evtCounts (die_le_radTxCancel r))
      (not_mem_evtStatuses (die_le_radTxCancel r))]
    exact txCancels_last_cause d r cause hn hc
  case event =>
    rw [hevts 28 (by decide) (by simp only [List.mem_singleton]; omega)]
    exact txCancels_evtStatus d r cause hn hh hi

/-- A burst set that one of checks 1 to 5 refuses, for a cause other than a missing port, has every burst cancelled with it (R510). The check stands as
a variable while txFire is unfolded: the kernel would else run it to find the branch taken. -/
theorem txFire_refused {d b : Dev} {r handle cause : Nat} (time : Nat)
    (hb : b = d.bumpBy (R.KAL_TX_STATUS r) F.KAL_TX_STATUS_bad_desc (d.burstSet r handle).2) (h : b.txCheck r = some cause) (hc : cause ≠ 4) :
    d.txFire r handle time = ((b.txCancels r cause (d.burstSet r handle).1.length).dropOwn r handle).settleTx r b.nt := by
  obtain ⟨fire, hfire⟩ : ∃ fire, fire = Dev.txFire := ⟨_, rfl⟩
  obtain ⟨check, hcheck⟩ : ∃ check, check = Dev.txCheck := ⟨_, rfl⟩
  rw [← hfire]
  delta Dev.txFire at hfire
  rw [← hcheck] at h hfire
  subst hfire hb
  simp only [h, hc, if_false]

/-- A burst set that fires for a radio that is OFF or heading there is cancelled with cause 5 (R119). -/
theorem txFire_off (d : Dev) {r : Nat} (handle time : Nat) (hr : r < 3) (hh : d.pwr.hubOn = true) (hi : d.dieIsolated (r + 1) = false)
    (hoff : d.radState r = radOFF ∨ d.radTarget r = radOFF) (hset : (d.burstSet r handle).1 ≠ []) :
    SetCancelled r 5 d (d.txFire r handle time) := by
  have hn : (d.burstSet r handle).1.length ≠ 0 := fun h => hset (List.eq_nil_of_length_eq_zero h)
  obtain ⟨b, hb⟩ : ∃ b, b = d.bumpBy (R.KAL_TX_STATUS r) F.KAL_TX_STATUS_bad_desc (d.burstSet r handle).2 := ⟨_, rfl⟩
  have hoff' : b.radState r = radOFF ∨ b.radTarget r = radOFF := by
    have hne := radState_ne_kalTxStatus r
    rwa [Dev.radState, Dev.radTarget, hb, Dev.bumpBy, Dev.get_put_ne _ hne, Dev.get_put_ne _ hne]
  have hpwr : b.pwr.hubOn = true := by rw [hb, Dev.bumpBy_pwr, hh]
  have hiso : b.dieIsolated (r + 1) = false := by rw [hb, dieIsolated_of_links (Dev.bumpBy_links ..), hi]
  obtain ⟨hbursts, hacts, hcause, hevent⟩ := setCancelled_settleTx b handle b.nt hr (show 5 < 16 by decide) hn hpwr hiso
  rw [txFire_refused time hb (txCheck_off hoff') (by decide)]
  refine ⟨hbursts.trans (burstsOf_of_radios ?_ r), hacts.trans ?_, hcause, hevent⟩
  · rw [hb, Dev.bumpBy_radios]
  · rw [hb, Dev.bumpBy_acts]

/-- A radio that runs has its HUB on and its die reachable. -/
theorem radioUp_hub {d : Dev} {r : Nat} (h : d.radioUp r = true) : d.hubUp = true ∧ d.dieIsolated (r + 1) = false := by
  simp only [Dev.radioUp, Dev.dieRuns, Dev.dieUp, Bool.and_eq_true, Bool.not_eq_true'] at h
  obtain ⟨⟨⟨⟨hhub, -⟩, -⟩, hiso⟩, -⟩ := h
  exact ⟨hhub, hiso⟩

/-- A RAD_TX_START of a radio that runs takes its entry from the list and fires its burst set. -/
theorem txStart_up {d : Dev} {i : Nat} {a : Act} (hf : d.firing i 1 = some a) (hu : d.radioUp a.target = true) :
    d.txStart i = (d.takeAct i).txFire a.target a.arg a.time := by
  have hu' : (d.takeAct i).radioUp a.target = true := hu
  simp only [Dev.txStart, hf, hu', if_true]

theorem smFind_takeAct (d : Dev) (i : Nat) : smFind (d.takeAct i).acts i = none := (smFind_erase ..).trans (if_pos rfl)

/-- Settles O20: checks 1 to 5 answer cause 5 for a radio that is OFF or heading there, so every burst of the set is cancelled, and the end of the
stretch of TX starts nothing. -/
theorem burstsAreCancelledInOff : Obligations.BurstsAreCancelledInOff := by
  unfold Obligations.BurstsAreCancelledInOff
  intro s i t a r hup hfiring htarget hoff hset
  obtain ⟨hhub, hiso⟩ := radioUp_hub hup
  refine runs_hub hhub rfl ?_
  have hset' : (((s.dev.at_ t).takeAct i.val).burstSet r a.arg).1 ≠ [] := by rwa [burstSet_of_regs (e := (s.dev.at_ t).takeAct i.val) (d := s.dev) rfl]
  obtain ⟨hbursts, hacts, hcause, hevent⟩ := txFire_off ((s.dev.at_ t).takeAct i.val) a.arg a.time r.isLt (hubOn_of_up hhub) hiso hoff hset'
  rw [txStart_up hfiring (by rw [htarget]; exact hup), htarget]
  obtain ⟨hair, hheld⟩ := Prod.mk.inj hbursts
  have hcounts := not_mem_evtCounts (die_le_radTxCancel r)
  simp only [evtCounts, List.mem_cons, List.not_mem_nil, or_false, not_or] at hcounts
  rw [settle_radio, settle_acts, settle_get _ _ hcounts.1 hcounts.2, settle_evtStatus, hacts]
  exact ⟨hair, hheld, smFind_takeAct .., hcause, hevent⟩

end Sys2Proof
end

section
/-! PROOFS. Which of two copies is newer, and which is tried first (18_configuration_and_commands.md, R418). -/

namespace Sys2Proof

open Sys2Proof.Machine

/-- The difference that R418 takes modulo 2^32 is the difference of two machine words. -/
theorem toNat_word_sub (x y : BitVec 32) : (x - y).toNat = (x.toNat + 2 ^ 32 - y.toNat) % 2 ^ 32 := by
  rw [BitVec.toNat_sub]
  have := y.isLt
  congr 1
  omega

theorem newer_toNat_iff (x y : BitVec 32) : newer x.toNat y.toNat = true ↔ 1 ≤ (x - y).toNat ∧ (x - y).toNat ≤ 2 ^ 31 - 1 := by
  simp only [newer, Bool.and_eq_true, decide_eq_true_eq, ← toNat_word_sub]
  omega

/-- Where both headers pass their checks both copies are tried, B first only where it is the newer one. -/
theorem goodHeads_of_both {d : Dev} (ha : headCause (d.header 0) = 0) (hb : headCause (d.header 1) = 0) :
    d.goodHeads = if newer (headSeq (d.header 1)) (headSeq (d.header 0)) then [1, 0] else [0, 1] := by
  simp only [Dev.goodHeads, ha, hb, BEq.rfl, Bool.and_self, if_true]

/-- Settles O46: the order of two sequence numbers is that of their difference as a machine word, and copy B comes first only where it is newer. -/
theorem theNewerCopyComesFirst : Obligations.TheNewerCopyComesFirst := by
  unfold Obligations.TheNewerCopyComesFirst
  exact ⟨newer_toNat_iff, fun _ => goodHeads_of_both, by decide⟩

end Sys2Proof
end

section
/-! PROOFS. WRITE_MASKED (18_configuration_and_commands.md, R425): what completing a command leaves, that its answer outlasts the end of the step, and
the obligation itself. -/

namespace Sys2Proof

open Sys2Proof.Machine

/-! ## Sending a completion leaves the command queue and the power state -/

/-- The commands that wait for the executor, and the state of the power domains. -/
def queueAndPower (d : Dev) : List Cmd × Pwr := (d.cmd.queue, d.pwr)

section Updates

variable (d : Dev)

theorem queueAndPower_put (a : Nat) (f : Fld) (v : Nat) : queueAndPower (d.put a f v) = queueAndPower d := rfl

theorem queueAndPower_bump (a : Nat) (f : Fld) : queueAndPower (d.bump a f) = queueAndPower d := rfl

theorem queueAndPower_setQueue (g : Nat) (x : EQueue) : queueAndPower (d.setQueue g x) = queueAndPower d := rfl

theorem queueAndPower_setPort (n : Nat) (x : Port) : queueAndPower (d.setPort n x) = queueAndPower d := rfl

theorem queueAndPower_setKeySlot (n : Nat) (k : KeySlot) : queueAndPower (d.setKeySlot n k) = queueAndPower d := rfl

theorem queueAndPower_raise (src unit detail : Nat) : queueAndPower (d.raise src unit detail) = queueAndPower d := by
  simp only [queueAndPower, raise_cmd, raise_pwr]

end Updates

theorem queueAndPower_sample (d : Dev) (cls idx : Nat) (v : Int) : queueAndPower (d.sample cls idx v) = queueAndPower d := by
  unfold Dev.sample
  split
  · rfl
  · refine List.foldlRecOn (motive := fun e => queueAndPower e = queueAndPower d) _ _ rfl fun e he n _ => ?_
    split
    · exact he
    · exact he

theorem queueAndPower_showDepth (d : Dev) (g : Nat) : queueAndPower (d.showDepth g) = queueAndPower d :=
  queueAndPower_sample ..

theorem queueAndPower_enqueue (d : Dev) (g : Nat) (f : QFrame) : queueAndPower (d.enqueue g f) = queueAndPower d := by
  simp only [Dev.enqueue]
  split
  · exact queueAndPower_bump ..
  · split
    · exact queueAndPower_bump ..
    · rw [queueAndPower_showDepth, queueAndPower_setQueue]

theorem queueAndPower_cutFrame (d : Dev) (n : Nat) : queueAndPower (d.cutFrame n) = queueAndPower d := by
  simp only [Dev.cutFrame]
  split
  · rfl
  · split
    · rfl
    · split
      · exact queueAndPower_setPort ..
      · rfl

theorem queueAndPower_preemptFor (d : Dev) (n : Nat) : queueAndPower (d.preemptFor n) = queueAndPower d := by
  unfold Dev.preemptFor
  split
  · exact queueAndPower_cutFrame d n
  · rfl

/-- A frame that no policer meters. -/
theorem queueAndPower_offer (d : Dev) (n q : Nat) (f : QFrame) : queueAndPower (d.offer n q none f) = queueAndPower d :=
  (queueAndPower_preemptFor _ n).trans (queueAndPower_enqueue d _ f)

theorem queueAndPower_sendWords (d : Dev) (ws : List Nat) (body : Bytes) : queueAndPower (d.sendWords ws none body) = queueAndPower d := by
  simp only [Dev.sendWords]
  split
  · rfl
  · exact queueAndPower_offer ..

theorem queueAndPower_lockSlot (d : Dev) (n : Nat) (k : KeySlot) : queueAndPower (d.lockSlot n k) = queueAndPower d := by
  rw [Dev.lockSlot, queueAndPower_raise, queueAndPower_put, queueAndPower_bump, queueAndPower_setKeySlot]

theorem queueAndPower_useSlot (d : Dev) (n : Nat) (k : KeySlot) : queueAndPower (d.useSlot n k) = queueAndPower d := by
  simp only [Dev.useSlot]
  split
  · rw [queueAndPower_lockSlot, queueAndPower_put]
    rfl
  · rw [queueAndPower_setKeySlot, queueAndPower_put]
    rfl

theorem queueAndPower_cmacOf (d : Dev) (slot : Nat) (bs : Bytes) : queueAndPower (d.cmacOf slot bs).1 = queueAndPower d := by
  unfold Dev.cmacOf
  split
  · rfl
  · split
    · rfl
    · exact queueAndPower_useSlot ..

theorem queueAndPower_ownFrame (d : Dev) (content : Bytes) : queueAndPower (d.ownFrame content).1 = queueAndPower d :=
  queueAndPower_cmacOf ..

theorem queueAndPower_sendReply (d : Dev) (r : MgmtReply) : queueAndPower (d.sendReply r) = queueAndPower d := by
  have hown := queueAndPower_ownFrame d (r.done.flatMap CmdRec.bytes)
  unfold Dev.sendReply
  split <;> rename_i h <;> rw [h] at hown
  · exact (queueAndPower_sendWords ..).trans hown
  · exact hown

theorem queueAndPower_placeReply (d : Dev) (frame : Nat) (rec : CmdRec) : queueAndPower (d.placeReply frame rec) = queueAndPower d := by
  simp only [Dev.placeReply]
  split
  · rfl
  · split
    · exact queueAndPower_sendReply ..
    · rfl

theorem queueAndPower_placeRec (d : Dev) (c : Cmd) (rec : CmdRec) : queueAndPower (d.placeRec c rec) = queueAndPower d := by
  unfold Dev.placeRec
  split
  · exact queueAndPower_placeReply ..
  · rfl

/-! ## Completing a command -/

/-- The record that a command leaves. -/
def recordOf (c : Cmd) (status detail : Nat) (data : Bytes) (part : Bool) : CmdRec :=
  ⟨false, c.op, status, c.tag, c.targeted && !c.aborted, part, detail, data⟩

/-- The command leaves the queue, its record is placed, and an NVM_WRITE shows its result. -/
def retired (d : Dev) (c : Cmd) (status detail : Nat) (data : Bytes) (part : Bool) : Dev :=
  let e := ({ d with cmd := { d.cmd with queue := d.cmd.queue.tail, busy := none } }).placeRec c (recordOf c status detail data part)
  if c.op = 7 then e.put R.CFG_NVM F.CFG_NVM_result status else e

section Complete

variable {d : Dev} {c : Cmd} (status detail : Nat) (data : Bytes) (part : Bool)

theorem complete_eq (hl : c.lost = false) : d.complete c status detail data part =
    ((retired d c status detail data part).bump R.CMD_STAT (if status = 0 then F.CMD_STAT_done else F.CMD_STAT_errors)).raise
      (if status = 0 then 12 else 13) 0 c.tag := by
  simp only [Dev.complete, retired, recordOf, hl, Bool.false_eq_true, if_false]
  by_cases hs : status = 0 <;> simp only [hs, if_true, if_false]

theorem queueAndPower_retired (d : Dev) (c : Cmd) : queueAndPower (retired d c status detail data part) = (d.cmd.queue.tail, d.pwr) := by
  have placed := queueAndPower_placeRec { d with cmd := { d.cmd with queue := d.cmd.queue.tail, busy := none } } c (recordOf c status detail data part)
  simp only [retired]
  split
  · exact (queueAndPower_put ..).trans placed
  · exact placed

/-- What completes leaves the queue. -/
theorem complete_queue (hl : c.lost = false) : (d.complete c status detail data part).cmd.queue = d.cmd.queue.tail := by
  rw [complete_eq status detail data part hl, raise_cmd, Dev.bump_cmd]
  exact congrArg Prod.fst (queueAndPower_retired status detail data part d c)

/-- A completion raises event 12, or 13 where its status is not 0 (R426). -/
theorem complete_evtStatus (hl : c.lost = false) (hh : d.pwr.hubOn = true) :
    (d.complete c status detail data part).evtStatus (if status = 0 then 12 else 13) = true := by
  have hp : (retired d c status detail data part).pwr = d.pwr := congrArg Prod.snd (queueAndPower_retired status detail data part d c)
  rw [complete_eq status detail data part hl]
  refine evtStatus_raise_hub _ _ _ _ ?_ ?_ (by rw [Dev.bump_pwr, hp, hh])
  · split <;> rfl
  · split <;> rfl

/-- On the I2C transport the record waits to be read. -/
theorem recordOf_mem_complete (hl : c.lost = false) (hm : c.mgmt = false) :
    recordOf c status detail data part ∈ (d.complete c status detail data part).cmd.i2c := by
  rw [complete_eq status detail data part hl, raise_cmd, Dev.bump_cmd]
  simp only [retired, Dev.placeRec, hm, Bool.false_eq_true, if_false]
  split
  · exact List.mem_concat_self
  · exact List.mem_concat_self

/-- On the I2C transport a completion touches the registers of completions alone. -/
theorem complete_word (hl : c.lost = false) (hm : c.mgmt = false) {a : Nat} (ha : a ∉ completionRegs) :
    (d.complete c status detail data part).word a = d.word a := by
  simp only [completionRegs, evtStatuses, List.mem_append, List.mem_cons, List.not_mem_nil, or_false, not_or] at ha
  obtain ⟨⟨⟨hstat, hnvm⟩, -⟩, hlo, hhi⟩ := ha
  rw [complete_eq status detail data part hl, raise_word _ _ _ _ hlo hhi, Dev.word_bump_ne _ hstat]
  simp only [retired, Dev.placeRec, hm, Bool.false_eq_true, if_false]
  split
  · exact Dev.word_put_ne _ hnvm _ _
  · rfl

/-- A command whose queue entry is sound is answered as its row says. -/
theorem answers_complete (hl : c.lost = false) (hh : d.pwr.hubOn = true) : Answers c status detail data (d.complete c status detail data part) :=
  ⟨fun hm => ⟨_, recordOf_mem_complete status detail data part hl hm, rfl, rfl, rfl, rfl, rfl, rfl⟩,
    complete_evtStatus status detail data part hl hh⟩

end Complete

/-! ## Records in the I2C buffer outlast the end of a step -/

theorem i2c_subset_logEvt (d : Dev) (x : PendEvt) : d.cmd.i2c ⊆ (d.logEvt x).cmd.i2c := by
  have append (r : LogRec) : (d.logAppend r).cmd = d.cmd := by
    unfold Dev.logAppend
    split <;> rfl
  unfold Dev.logEvt
  split
  · rw [← append]
    unfold Dev.routeEvt Dev.notifyI2c
    split
    · split
      · exact List.subset_append_left ..
      · exact List.Subset.refl _
    · exact List.Subset.refl _
    · exact List.Subset.refl _
  · exact List.Subset.refl _

theorem i2c_subset_foldl_logEvt (xs : List PendEvt) (d : Dev) : d.cmd.i2c ⊆ (xs.foldl Dev.logEvt d).cmd.i2c := by
  induction xs generalizing d with
  | nil => exact List.Subset.refl _
  | cons x xs ih => exact List.Subset.trans (i2c_subset_logEvt d x) (ih _)

/-- The end of a step adds notifications behind the records that wait, and removes none. -/
theorem i2c_subset_settle (d : Dev) : d.cmd.i2c ⊆ d.settle.cmd.i2c := by
  have trim : d.trimSync.cmd = d.cmd := by
    obtain ⟨w, hw⟩ := trimSync_eq d
    rw [hw]
  rw [← trim]
  exact i2c_subset_foldl_logEvt _ { d.trimSync with evt := { d.trimSync.evt with pend := [] } }

theorem Answers.settle {c : Cmd} {status detail : Nat} {data : Bytes} {d : Dev} (h : Answers c status detail data d) :
    Answers c status detail data d.settle := by
  obtain ⟨hrec, hevt⟩ := h
  refine ⟨fun hm => ?_, by rw [settle_evtStatus, hevt]⟩
  obtain ⟨r, hr, hfields⟩ := hrec hm
  exact ⟨r, i2c_subset_settle d hr, hfields⟩

theorem settle_word_of_not_completionRegs (d : Dev) {a : Nat} (ha : a ∉ completionRegs) : d.settle.word a = d.word a := by
  simp only [completionRegs, evtCounts, List.mem_append, List.mem_cons, List.not_mem_nil, or_false, not_or] at ha
  obtain ⟨⟨-, hlog, hnotify⟩, -⟩ := ha
  exact settle_word d hlog hnotify

/-! ## The command at the head of the queue -/

/-- The executor starts no command whose queue entry was lost (R466). -/
theorem lost_of_headCmd {d : Dev} {c : Cmd} (h : d.headCmd = some c) : c.lost = false := by
  have hpre : d.preStatus c = none := by
    unfold Dev.headCmd at h
    split at h
    · cases h
    · split at h
      case isTrue hstart =>
        cases h
        exact Option.isNone_iff_eq_none.mp (Bool.and_eq_true_iff.mp hstart).2
      case isFalse => cases h
  by_contra hlost
  rw [Bool.not_eq_false] at hlost
  simp only [Dev.preStatus, hlost, if_true] at hpre
  split at hpre <;> cases hpre

theorem runHead_of_headCmd {d : Dev} {c : Cmd} {p : Cmd → Bool} (f : Dev → Cmd → Dev) (h : d.headCmd = some c) (hb : d.cmd.busy = none)
    (hp : p c = true) : d.runHead p f = (f d c).cmdPump := by
  simp only [Dev.runHead, h, hp, hb, Option.isNone_none, Bool.and_self, if_true]

/-- With an empty queue no command completes unexecuted. -/
theorem cmdPump_of_queue_nil {d : Dev} (h : d.cmd.queue = []) : d.cmdPump = d := by
  rw [Dev.cmdPump, h, List.length_nil, Dev.cmdPumpAux]

/-- A WRITE_MASKED that is the only command, reads its register and makes its write, completes and leaves the queue empty. -/
theorem cmdMasked_completes {d e g : Dev} {c : Cmd} {old : Word} (hb : d.cmd.busy = none) (hc : d.headCmd = some c) (hop : c.op = 3)
    (hacc : d.accessStatus [c.addr] = 0) (hrw : d.readWaits c.addr = false) (hww : d.writeWaits c.addr = false)
    (hread : d.busRead c.addr = (e, some old))
    (hwrite : e.busWrite c.addr ((old &&& ~~~BitVec.ofNat 32 c.arg &&& ~~~actingBits c.addr) |||
      (BitVec.ofNat 32 (leAt c.data 0 4) &&& BitVec.ofNat 32 c.arg)) = (g, true))
    (hq : g.cmd.queue = [c]) : d.cmdMasked = g.complete c 0 0 [] false := by
  have hrest : (g.complete c 0 0 [] false).cmd.queue = [] := by rw [complete_queue _ _ _ _ (lost_of_headCmd hc), hq, List.tail_cons]
  rw [Dev.cmdMasked, runHead_of_headCmd _ hc hb (by rw [hop]; rfl)]
  simp only [hacc, hrw, hww, hread, hwrite, bne_self_eq_false, Bool.or_self, Bool.false_eq_true, if_false, if_true]
  exact cmdPump_of_queue_nil hrest

/-- Settles O41: the executor writes the merged word and completes the command, which touches the registers of completions alone. -/
theorem maskedWritesMerge : Obligations.MaskedWritesMerge := by
  unfold Obligations.MaskedWritesMerge
  rintro s c e g old _ _ _ hup hbusy hhead hop hacc hrw hww hread rfl rfl rfl hwrite hon hqueue
  have hlost := lost_of_headCmd hhead
  rw [BitVec.and_assoc old, BitVec.and_comm (~~~_), ← BitVec.and_assoc] at hwrite
  refine runs_hub hup rfl ?_
  rw [cmdMasked_completes hbusy hhead hop hacc hrw hww hread hwrite hqueue]
  refine ⟨(answers_complete 0 0 [] false hlost hon).settle, fun a hm ha => ?_⟩
  rw [settle_word_of_not_completionRegs _ ha, complete_word 0 0 [] false hlost hm ha]

end Sys2Proof
end

section
/-! PROOFS. The operations behind a drain and a state entry that leave the power state (19_power_and_wake.md, R439, R442): the loss of a die, the tasks
and bursts given up, the frames dropped, the links lost and the commands completed. -/

namespace Sys2Proof

open Sys2Proof.Machine

section KeepsPower

variable (d : Dev)

theorem recovery_pwr (kind : Nat) : (d.recovery kind).pwr = d.pwr := by
  rw [Dev.recovery, raise_pwr, Dev.bump_pwr, Dev.put_pwr]

/-! ## Tasks, their cores and the dispatcher -/

theorem countPlacement_pwr (last : Option Nat) (c : Nat) : (d.countPlacement last c).pwr = d.pwr := by
  unfold Dev.countPlacement
  split
  · exact Dev.put_pwr ..
  · split
    · split
      · exact Dev.put_pwr ..
      · exact Dev.put_pwr ..
    · exact Dev.put_pwr ..

theorem startOn_pwr (c i : Nat) (desc : Bytes) : (d.startOn c i desc).pwr = d.pwr := by
  simp only [Dev.startOn, Dev.setWord_pwr, Dev.setPcore_pwr, Dev.setMcore_pwr]

theorem placeTask_pwr (i : Nat) (t : Task) (c : Nat) : (d.placeTask i t c).pwr = d.pwr := by
  simp only [Dev.placeTask]
  split
  · rw [startOn_pwr, Dev.setFlow_pwr, Dev.setTask_pwr, countPlacement_pwr]
  · rw [Dev.setPcore_pwr, Dev.setFlow_pwr, Dev.setTask_pwr, countPlacement_pwr]

theorem dispatchOne_pwr {d e : Dev} (h : d.dispatchOne = some e) : e.pwr = d.pwr := by
  unfold Dev.dispatchOne at h
  split at h
  · split at h
    · cases h
    · obtain rfl := Option.some.inj h
      split
      · rw [recovery_pwr, placeTask_pwr]
      · rw [placeTask_pwr]
  · split at h
    · cases h
    · obtain ⟨c, -, rfl⟩ := Option.map_eq_some_iff.mp h
      exact placeTask_pwr ..

theorem dispatchN_pwr (n : Nat) : (d.dispatchN n).pwr = d.pwr := by
  induction n generalizing d with
  | zero => rfl
  | succ n ih =>
    unfold Dev.dispatchN
    split
    · rfl
    next h => rw [ih, dispatchOne_pwr h]

theorem dispatch_pwr : d.dispatch.pwr = d.pwr := dispatchN_pwr ..

theorem redoTask_pwr (i : Nat) (t : Task) (excl : Nat) (ev : Bool) : (d.redoTask i t excl ev).pwr = d.pwr := by
  simp only [Dev.redoTask, Dev.setTask_pwr]

theorem takeBackQueued_pwr (c : Nat) : (d.takeBackQueued c).pwr = d.pwr := by
  unfold Dev.takeBackQueued
  split
  · rfl
  · split
    · rfl
    · split
      · rw [Dev.setFlow_pwr, Dev.setTask_pwr]
      · rw [redoTask_pwr]

theorem cipDrop_pwr (c : Nat) : (d.cipDrop c).pwr = d.pwr := by
  simp only [Dev.cipDrop]
  split
  · rw [Dev.put_pwr]
  · rfl

theorem evacuateCore_pwr (c : Nat) : (d.evacuateCore c).pwr = d.pwr := by
  simp only [Dev.evacuateCore, cipDrop_pwr, Dev.setMcore_pwr, Dev.setPcore_pwr, takeBackQueued_pwr]
  split
  · rfl
  · split
    · rfl
    · rw [redoTask_pwr]

theorem renameCore_pwr (c u : Nat) : (d.renameCore c u).pwr = d.pwr := rfl

theorem understudyIn_pwr (c : Nat) : (d.understudyIn c).pwr = d.pwr := by
  unfold Dev.understudyIn
  split
  · rw [raise_pwr]
  · rw [dispatch_pwr, raise_pwr, renameCore_pwr, Dev.setPcore_pwr]

theorem coreCmd_pwr (result : Nat) : (d.coreCmd result).pwr = d.pwr := by
  rw [Dev.coreCmd, Dev.put_pwr, Dev.put_pwr]

theorem retireCore_pwr (c : Nat) : (d.retireCore c).pwr = d.pwr := by
  simp only [Dev.retireCore]
  split
  · rw [coreCmd_pwr, understudyIn_pwr, Dev.setPcore_pwr]
  · rw [understudyIn_pwr, Dev.setPcore_pwr]

theorem retireIdle_pwr (c : Nat) : (d.retireIdle c).pwr = d.pwr := by
  unfold Dev.retireIdle
  split
  · rw [retireCore_pwr]
  · rfl

theorem basebandLost_pwr (die : Nat) : (d.basebandLost die).pwr = d.pwr := by
  simp only [Dev.basebandLost]
  rw [foldl_keeps Dev.pwr _ retireIdle_pwr, dispatch_pwr]
  split
  · rw [recovery_pwr, foldl_keeps Dev.pwr _ evacuateCore_pwr]
  · rw [foldl_keeps Dev.pwr _ evacuateCore_pwr]

theorem abandonTask_pwr (i : Nat) (t : Task) : (d.abandonTask i t).pwr = d.pwr := by
  simp only [Dev.abandonTask, recovery_pwr, Dev.bump_pwr, Dev.setTask_pwr]

theorem abandonFired_pwr : d.abandonFired.pwr = d.pwr := by
  simp only [Dev.abandonFired]
  exact foldl_keeps Dev.pwr _ (fun e (p : Nat × Task) => abandonTask_pwr e p.1 p.2) _ _

/-! ## Calibration and refresh -/

theorem calFigures_pwr (u : Nat) (x : CalRun) : (d.calFigures u x).pwr = d.pwr := by
  unfold Dev.calFigures
  split
  · rfl
  · split
    · simp only
      split
      · rw [Dev.put_pwr]
      · split
        · rw [Dev.put_pwr]
        · rw [Dev.put_pwr]
    · rw [Dev.put_pwr, Dev.put_pwr]
    · simp only
      split
      · rw [Dev.put_pwr, Dev.put_pwr]
      · rw [Dev.put_pwr, Dev.put_pwr]

theorem calShow_pwr : d.calShow.pwr = d.pwr := Dev.put_pwr ..

theorem calBegin_pwr (u : Nat) : (d.calBegin u).pwr = d.pwr := by
  simp only [Dev.calBegin, calShow_pwr, Dev.setRun_pwr]

theorem calStart_pwr (u : Nat) : (d.calStart u).pwr = d.pwr := by
  unfold Dev.calStart
  split
  · rfl
  · split
    · rfl
    · exact calBegin_pwr ..

theorem calNext_pwr (u : Nat) : (d.calNext u).pwr = d.pwr := by
  unfold Dev.calNext
  split
  · rfl
  · rw [calStart_pwr]

theorem calEnd_pwr (u : Nat) (x : CalRun) (outcome : Nat) : (d.calEnd u x outcome).pwr = d.pwr := by
  unfold Dev.calEnd
  extract_lets below moved figured cal ended shown noted raised retry low cal' judged
  have hraised : raised.pwr = d.pwr := by
    rw [raise_pwr, Dev.put_pwr, Dev.put_pwr, Dev.put_pwr, calShow_pwr, Dev.bump_pwr]
    exact calFigures_pwr ..
  have hlow : low.pwr = d.pwr := by rw [raise_pwr, Dev.bump_pwr, hraised]
  rw [calNext_pwr]
  unfold judged
  split
  · split
    · exact hlow
    · exact hlow
  · exact hraised

theorem calBreak_pwr (u outcome : Nat) : (d.calBreak u outcome).pwr = d.pwr := by
  unfold Dev.calBreak
  split
  · rfl
  · simp only [calEnd_pwr]
    split
    · rfl
    · rfl

theorem calLost_pwr (p : Nat → Bool) : (d.calLost p).pwr = d.pwr := foldl_keeps Dev.pwr _ (fun e u => calBreak_pwr e u 4) _ _

theorem setMult_pwr (m : Nat) : (d.setMult m).pwr = d.pwr := by
  simp only [Dev.setMult]
  split
  · rfl
  · split
    · simp only [Dev.put_pwr]
    · simp only [Dev.put_pwr]

theorem derateNow_pwr : d.derateNow.pwr = d.pwr := by
  unfold Dev.derateNow
  split
  · exact setMult_pwr ..
  · rfl

/-! ## The dies -/

theorem dieLost_pwr (die : Nat) : (d.dieLost die).pwr = d.pwr := by
  unfold Dev.dieLost
  split
  · exact basebandLost_pwr ..
  · split
    · exact calLost_pwr ..
    · split
      · exact derateNow_pwr _
      · rfl

theorem clearRegs_pwr (lo hi : Nat) : (d.clearRegs lo hi).pwr = d.pwr := rfl

theorem cutRpBlow_pwr (r : Nat) : (d.cutRpBlow r).pwr = d.pwr := by
  obtain ⟨f, n, h⟩ := cutRpBlow_eq d r
  rw [h]

theorem dieReset_pwr (die : Nat) : (d.dieReset die).pwr = d.pwr := by
  unfold Dev.dieReset
  split
  · simp only [clearRegs_pwr]
  · split
    · simp only [clearRegs_pwr, cutRpBlow_pwr]
    · rfl

/-! ## Bursts -/

theorem txCancel_pwr (r cause : Nat) : (d.txCancel r cause).pwr = d.pwr := by
  rw [txCancel_eq, raise_pwr, Dev.bump_pwr, Dev.put_pwr]

theorem txCancels_pwr (r cause n : Nat) : (d.txCancels r cause n).pwr = d.pwr :=
  foldl_keeps Dev.pwr _ (fun e _ => txCancel_pwr e r cause) _ _

theorem dropOwn_pwr (r handle : Nat) : (d.dropOwn r handle).pwr = d.pwr := rfl

theorem abortAir_pwr (r cause : Nat) : (d.abortAir r cause).pwr = d.pwr := by
  simp only [Dev.abortAir, Dev.dutyRefresh, Dev.setRadio_pwr, txCancels_pwr]
  rw [foldl_keeps Dev.pwr _ fun _ _ => dropOwn_pwr .., Dev.setRadio_pwr]

theorem dropHeld_pwr (r cause : Nat) : (d.dropHeld r cause).pwr = d.pwr := by
  unfold Dev.dropHeld
  rw [foldl_keeps Dev.pwr _ fun _ _ => by rw [dropOwn_pwr, txCancels_pwr], Dev.setRadio_pwr]

/-! ## Queues and MACs -/

theorem showDepth_pwr (g : Nat) : (d.showDepth g).pwr = d.pwr := congrArg Prod.snd (queueAndPower_showDepth d g)

theorem popQueue_pwr (g : Nat) : (d.popQueue g).pwr = d.pwr := by
  simp only [Dev.popQueue, showDepth_pwr, Dev.setQueue_pwr]

theorem dropDramHeads_pwr (g n : Nat) : (d.dropDramHeads g n).pwr = d.pwr := by
  induction n generalizing d with
  | zero => rfl
  | succ n ih =>
    unfold Dev.dropDramHeads
    split
    · rw [ih, Dev.bump_pwr, popQueue_pwr]
    · rfl

theorem dropDram_pwr (g : Nat) : (d.dropDram g).pwr = d.pwr := by
  simp only [Dev.dropDram]
  split
  · rw [dropDramHeads_pwr]
  · rw [Dev.bumpBy_pwr, showDepth_pwr, Dev.setQueue_pwr, dropDramHeads_pwr]

theorem lockChange_pwr (n : Nat) (pcs fec : Bool) : (d.lockChange n pcs fec).pwr = d.pwr := by
  simp only [Dev.lockChange]
  split
  · rw [Dev.put_pwr, Dev.put_pwr]
  · rw [Dev.setMac_pwr, Dev.put_pwr, Dev.put_pwr]

theorem macCount_pwr (n c k : Nat) : (d.macCount n c k).pwr = d.pwr := by
  simp only [Dev.macCount]
  split
  · rw [raise_pwr, Dev.setWord_pwr, Dev.setMac_pwr]
  · rw [Dev.setMac_pwr]

theorem wireDone_pwr (g : Nat) : (d.wireDone g).pwr = d.pwr := by
  unfold Dev.wireDone
  split
  · exact popQueue_pwr ..
  · rfl

theorem loseWire_pwr (n : Nat) : (d.loseWire n).pwr = d.pwr := by
  have counted (c : Bool) (e : Dev) : (if c then e.macCount n 40 1 else e).pwr = e.pwr := by
    split
    · exact macCount_pwr ..
    · rfl
  simp only [Dev.loseWire, Dev.setMac_pwr, Dev.setPort_pwr]
  rw [foldl_keeps Dev.pwr _ fun _ _ => wireDone_pwr .., counted, counted]

theorem dropLink_pwr (n : Nat) : (d.dropLink n).pwr = d.pwr := by
  simp only [Dev.dropLink, Dev.setMac_pwr, loseWire_pwr, Dev.put_pwr, raise_pwr]

theorem laneLost_pwr (n : Nat) : (d.laneLost n).pwr = d.pwr := by
  unfold Dev.laneLost
  extract_lets e
  have unlocked : e.pwr = d.pwr := by
    unfold e
    split
    · exact lockChange_pwr ..
    · rfl
  split
  · rw [calLost_pwr, dropLink_pwr, unlocked]
  · exact unlocked

theorem serStopped_pwr (ns : List Nat) : (d.serStopped ns).pwr = d.pwr := foldl_keeps Dev.pwr _ laneLost_pwr _ _

/-! ## Commands -/

theorem placeRec_pwr (c : Cmd) (rec : CmdRec) : (d.placeRec c rec).pwr = d.pwr := congrArg Prod.snd (queueAndPower_placeRec d c rec)

theorem complete_pwr (c : Cmd) (status detail : Nat) (data : Bytes) (part : Bool) : (d.complete c status detail data part).pwr = d.pwr := by
  unfold Dev.complete
  extract_lets st cmd d₁ d₂ d₃
  have shown : d₃.pwr = d.pwr := by
    unfold d₃
    split
    · rw [Dev.put_pwr, placeRec_pwr]
    · exact placeRec_pwr ..
  split
  · rw [raise_pwr, Dev.bump_pwr, shown]
  · rw [raise_pwr, Dev.bump_pwr, shown]

theorem cmdPump_pwr : d.cmdPump.pwr = d.pwr := by
  suffices h : ∀ n, (d.cmdPumpAux n).pwr = d.pwr from h _
  intro n
  induction n generalizing d with
  | zero => rfl
  | succ n ih =>
    unfold Dev.cmdPumpAux
    split
    · rfl
    · split
      · rfl
      · split
        · rw [ih, complete_pwr]
        · rfl

end KeepsPower

end Sys2Proof
end

section
/-! PROOFS. A wake that arrives during an entry or a wake (19_power_and_wake.md, R446): what the steps of an entry leave of the power state, where an
entry ends, and the obligation itself. -/

namespace Sys2Proof

open Sys2Proof.Machine

/-! ## Operations that change the states of domains alone -/

/-- The power state but for the states of the domains. -/
def besideDoms (d : Dev) : Pwr := { d.pwr with doms := [] }

section BesideDoms

variable (d : Dev)

theorem besideDoms_of_pwr {d e : Dev} (h : e.pwr = d.pwr) : besideDoms e = besideDoms d := by rw [besideDoms, h, besideDoms]

theorem entry_of_besideDoms {d e : Dev} (h : besideDoms e = besideDoms d) : e.pwr.entry = d.pwr.entry := by
  simpa only [besideDoms] using congrArg Pwr.entry h

theorem wakePending_of_besideDoms {d e : Dev} (h : besideDoms e = besideDoms d) : e.pwr.wakePending = d.pwr.wakePending := by
  simpa only [besideDoms] using congrArg Pwr.wakePending h

theorem besideDoms_setDom (code st : Nat) : besideDoms (d.setDom code st) = besideDoms d := rfl

theorem besideDoms_fence (code : Nat) : besideDoms (d.fence code) = besideDoms d := by
  simp only [Dev.fence, besideDoms_setDom]
  split
  · exact besideDoms_of_pwr ((dropHeld_pwr ..).trans (abortAir_pwr ..))
  · rfl

theorem besideDoms_powerDown (code : Nat) (unfinished : Bool) : besideDoms (d.powerDown code unfinished) = besideDoms d := by
  unfold Dev.powerDown
  extract_lets die moved lost reset shown
  have hshown : besideDoms shown = besideDoms d := by
    have hreset : besideDoms reset = besideDoms d :=
      (besideDoms_of_pwr ((dieReset_pwr lost die).trans (dieLost_pwr (d.setDom code 0) die))).trans (besideDoms_setDom ..)
    unfold shown
    split
    · exact (besideDoms_of_pwr (raise_pwr ..)).trans hreset
    · exact hreset
  split
  · exact (besideDoms_of_pwr (by rw [raise_pwr, Dev.bump_pwr])).trans hshown
  · exact hshown

theorem besideDoms_memOff : besideDoms d.memOff = besideDoms d := rfl

theorem besideDoms_serOff : besideDoms d.serOff = besideDoms d := by
  simp only [Dev.serOff, besideDoms_setDom]
  exact besideDoms_of_pwr (serStopped_pwr ..)

end BesideDoms

/-! ## Where an entry ends with a wake pending -/

/-- If the entry toward a reduced state has ended, the device is in that state and its wake has started at the first stage of it (R446, R448). -/
def EndsInWake (dormant : Bool) (p : Pwr) : Prop :=
  p.entry = none → p.mode = (if dormant then .dormant else .vigil) ∧ p.wake = some ⟨if dormant then 1 else 4, 0, if dormant then 2 else 1⟩

section Ends

variable {d : Dev} {dormant : Bool}

/-- An entry that goes on has not ended. -/
theorem endsInWake_of_entry {p : Pwr} {e : PwrEntry} (h : p.entry = some e) : EndsInWake dormant p := by
  intro hnone
  rw [h] at hnone
  cases hnone

/-- With a wake pending, the state entered is left at once. -/
theorem endsInWake_entered (hw : d.pwr.wakePending = true) :
    EndsInWake dormant (d.entered (if dormant then .dormant else .vigil)).pwr := by
  intro _
  cases dormant
  · simp [Dev.entered, hw, Dev.startWake]
  · simp [Dev.entered, hw, Dev.startWake]

theorem endsInWake_dormantNow (hw : d.pwr.wakePending = true) : EndsInWake true d.dormantNow.pwr :=
  endsInWake_entered (dormant := true) hw

theorem endsInWake_entryTail {e : PwrEntry} (he : d.pwr.entry = some e) (hw : d.pwr.wakePending = true) :
    EndsInWake dormant (d.entryTail dormant).pwr := by
  have dropped : besideDoms ((List.range 64).foldl Dev.dropDram d).memOff = besideDoms d :=
    (besideDoms_memOff _).trans (besideDoms_of_pwr (foldl_keeps Dev.pwr _ dropDram_pwr _ _))
  unfold Dev.entryTail
  extract_lets d'
  split
  next => exact endsInWake_of_entry ((entry_of_besideDoms ((besideDoms_setDom ..).trans dropped)).trans he)
  next h =>
    rw [Bool.not_eq_true] at h
    subst h
    refine endsInWake_entered (dormant := false) ?_
    rw [raise_pwr, wakePending_of_besideDoms ((besideDoms_serOff _).trans dropped), hw]

theorem endsInWake_entryGoes {e : PwrEntry} (he : d.pwr.entry = some e) (hw : d.pwr.wakePending = true) :
    EndsInWake e.dormant d.entryGoes.pwr := by
  have fenced (on : List Nat) : besideDoms (on.foldl Dev.fence d.abandonFired) = besideDoms d :=
    (foldl_keeps besideDoms _ besideDoms_fence _ _).trans (besideDoms_of_pwr (abandonFired_pwr d))
  unfold Dev.entryGoes
  extract_lets draining radios
  have hradios {d : Dev} {e' : PwrEntry} (he : d.pwr.entry = some e') (hw : d.pwr.wakePending = true) : EndsInWake e.dormant (radios d e).pwr := by
    unfold radios
    split
    · exact endsInWake_of_entry he
    · exact endsInWake_entryTail he hw
  rw [he]
  simp only
  split
  · split
    · exact endsInWake_of_entry he
    · exact hradios rfl ((wakePending_of_besideDoms (fenced _)).trans hw)
  · exact hradios he hw

theorem endsInWake_drainEnd {e : PwrEntry} {code : Nat} (unfinished : Bool) (he : d.pwr.entry = some e) (hw : d.pwr.wakePending = true)
    (hcode : code = 8 → e.dormant = true) : EndsInWake e.dormant (d.drainEnd code unfinished).pwr := by
  have hdown := besideDoms_powerDown d code unfinished
  have hentry := (entry_of_besideDoms hdown).trans he
  simp only [Dev.drainEnd]
  split
  · exact endsInWake_of_entry he
  · split
    next h =>
      rw [hcode h]
      exact endsInWake_dormantNow hw
    next =>
      split
      · refine endsInWake_of_entry (e := e) ?_
        rw [cmdPump_pwr, complete_pwr, hentry]
      · exact endsInWake_entryGoes hentry ((wakePending_of_besideDoms hdown).trans hw)

end Ends

/-! ## A write to Jack's address -/

/-- During an entry or a wake, a write to Jack's address only marks the wake as pending. -/
theorem jackWrite_busy {d : Dev} (hj : d.jackAnswers = true) (hb : (d.pwr.entry.isSome || d.pwr.wake.isSome) = true) :
    d.jackWrite = { d with pwr := { d.pwr with wakePending := true } } := by
  simp only [Dev.jackWrite, hj, hb, Bool.not_true, Bool.false_eq_true, if_false, if_true]

/-- With no event raised, the end of a command leaves the registers and the Command Port. -/
theorem settle_quiet {d : Dev} (h : d.evt.pend = []) : d.settle.regs = d.regs ∧ d.settle.cmd = d.cmd := by
  obtain ⟨w, hw⟩ := trimSync_eq d
  have hflush : d.trimSync.flushEvents = { d.trimSync with evt := { d.trimSync.evt with pend := [] } } := by
    have hp : d.trimSync.evt.pend = [] := by rw [hw, h]
    rw [Dev.flushEvents, hp]
    rfl
  rw [Dev.settle, hflush, hw]
  exact ⟨rfl, rfl⟩

/-- A write to Jack's address during an entry or a wake changes nothing but the mark that a wake is pending. -/
theorem runs_jackWriteMatch_busy {s : State} (hj : s.dev.jackAnswers = true) (hb : (s.dev.pwr.entry.isSome || s.dev.pwr.wake.isSome) = true)
    (hq : s.dev.evt.pend = []) : Runs .jackWriteMatch s (fun d =>
      d.pwr = { s.dev.pwr with wakePending := true } ∧ d.regs = s.dev.regs ∧ d.cmd = s.dev.cmd) := by
  refine runs_of rfl ?_
  rw [jackWrite_busy hj hb]
  exact ⟨settle_pwr _, settle_quiet (d := { s.dev with pwr := { s.dev.pwr with wakePending := true } }) hq⟩

/-- A command of which more is known runs with less of it, too. -/
theorem Runs.imp {c : Instr} {s : State} {P Q : Dev → Prop} (h : Runs c s P) (hpq : ∀ d, P d → Q d) : Runs c s Q := by
  obtain ⟨t, hexec, hpending, hp⟩ := h
  exact ⟨t, hexec, hpending, hpq _ hp⟩

/-- Settles O49: a write to Jack's address during an entry or a wake only marks the wake as pending, and the end of a drain either leaves the entry
running or enters the reduced state, where the pending wake starts. -/
theorem aWakeWaitsForAnEntry : Obligations.AWakeWaitsForAnEntry := by
  unfold Obligations.AWakeWaitsForAnEntry
  refine ⟨fun s e hj he hq => ?_, fun s e k u t hup he hw hk => ?_, fun s w hj hwake hw hq => ?_⟩
  · exact (runs_jackWriteMatch_busy hj (by rw [he]; rfl) hq).imp fun d ⟨hpwr, hregs, _⟩ => ⟨hpwr, hregs⟩
  · refine runs_hub hup rfl ?_
    rw [settle_pwr]
    exact endsInWake_drainEnd u he hw fun h => hk (Fin.ext h)
  · rw [← show ({ s.dev.pwr with wakePending := true } : Pwr) = s.dev.pwr by rw [← hw]]
    exact runs_jackWriteMatch_busy hj (by rw [hwake]; exact Bool.or_true _) hq

end Sys2Proof
end
